-- ==== Sys2Proof/Word.lean ====
section
/-! DEFINITION. The words and numbers of the part, and fixed tables indexed by such a number. -/

namespace Sys2Proof

/-- A byte of a packet, of a control frame or of the configuration image. -/
abbrev Byte := BitVec 8

/-- A tick count or a clock sample: 40 bits, arithmetic modulo 2^40 (R1, Conventions). -/
abbrev Tick := BitVec 40

/-- The tag a port gives an entry (R17). -/
abbrev Tag := BitVec 16

/-- A control port, CP0 to CP3. -/
abbrev PortNo := Fin 4

/-- A feed, 0 to 5. -/
abbrev FeedNo := Fin 6

/-- A position within a feed, 0 to 7. -/
abbrev PosNo := Fin 8

/-- A source, 0 to 15. -/
abbrev SrcNo := Fin 16

/-- A component of a source, 0 to 3. -/
abbrev CompNo := Fin 4

/-- A cue line, 0 to 7. -/
abbrev LineNo := Fin 8

/-- A carousel slot of a feed, 0 to 15. -/
abbrev TableNo := Fin 16

/-- The entry of a fixed table at a number. -/
def tget {α : Type} {n : Nat} (v : Vector α n) (i : Fin n) : α := v[i]

/-- A fixed table with one entry replaced. -/
def tset {α : Type} {n : Nat} (v : Vector α n) (i : Fin n) (x : α) : Vector α n := v.set i x

/-- A fixed table with every entry changed alike. -/
def tmap {α β : Type} {n : Nat} (f : α → β) (v : Vector α n) : Vector β n :=
  ⟨⟨v.toArray.toList.map f⟩, by simp⟩

end Sys2Proof
end

