-- ==== Sys2Proof/Config.lean ====
section
/-! DEFINITION. What the part's build fixes, and the values the spec leaves open.

The three constants without a body are FREE VALUES: nothing can be proved of them, so a claim holds whichever value they
have. -/

namespace Sys2Proof.Config

/-- The most entries the switch list holds (R16). -/
def listPlaces : Nat := 128

/-- The places of a ring (R91). -/
def ringPlaces : Nat := 512

/-- The most records of an outcome log (R159). -/
def logPlaces : Nat := 16

/-- The most waiting requests, and the most BUSY answers owed, of a reply list (R151). -/
def replyPlaces : Nat := 4

/-- The most entries of a selection stack above its base (R41: 4 with the base). -/
def stackUpper : Nat := 3

/-- The ticks of the early and of the late window (R5, R6). -/
def windowTicks : Nat := 270

/-- The ticks a RECEIVING port waits for the next byte of a frame (R150). -/
def byteGapTicks : Nat := 1350000

/-- The bits of a packet times the ticks of a second (R125). -/
def slotConstant : Nat := 40608000000

/-- The bits of a packet (R115). -/
def packetBits : Nat := 1504

/-- The rate of a feed after reset (R127). -/
def defaultRate : Nat := 24128000

/-- The lowest rate of a feed (R115). -/
def lowestRate : Nat := 1504000

/-- The highest rate of a feed (R115). -/
def highestRate : Nat := 90240000

/-- FREE VALUE (log 15). The code of the BUSY reply to a frame whose code is $80 or above: R152 adds $80 to a request code,
and no request code is that high. -/
opaque busyReplyCode : Byte → Byte

/-- FREE VALUE (log 16). Whether READ FEED shows 0 for the tick count of a STOPPED feed: R126 says that "these read 0" of
T and q taken together with the tick count. -/
opaque stoppedTickReadsZero : Bool

/-- FREE VALUE (log 17). Whether a SET POSITION that flags the fallback and the return policy together hands its change of
effective source over with the new policy: R40 applies all groups at once, and says that the new policy governs changes
made after the request. -/
opaque sameRequestPolicyIsNew : Bool

end Sys2Proof.Config
end

