-- ==== Sys2Proof/Syntax.lean ====
section
/-! DEFINITION. The commands of the part: one constructor for each row of spec/opcode_table.json. -/

namespace Sys2Proof

/-- The 28 requests a controller may send (R170, the request codes of 12.3). -/
inductive Request where
  | readPort | readEvents | setMask | readOutcomes | setTime | readTime
  | postEntry | cancelEntry | clearEntries | listEntries
  | setPosition | release | examinePosition | setCueLine
  | setSource | readSource | setScan | ackFaults | readHealth
  | editPlan | swapPlan | setFeedRate | startFeed | stopFeed | readPlan | readFeed
  | loadTable | dropTable
  deriving DecidableEq, Repr

/-- A piece of work that one frame event brings to one position, feed or carousel slot, and that may be taken before or after
the firing pass and the health examination of the same event (R47, R67, R120, R123). Taking a piece that is not due does
nothing. -/
inductive FrameTask where
  /-- The end of the windows of a position that have reached 0 (R46). -/
  | windowEnd (feed : FeedNo) (position : PosNo)
  /-- The forced switch of a search whose wait has reached 0 (R66). -/
  | forcedSwitch (feed : FeedNo) (position : PosNo)
  /-- The due-making of a carousel slot whose countdown has reached 0 (R131). -/
  | dueMaking (feed : FeedNo) (slot : TableNo)
  /-- A pending plan swap (R119). -/
  | swap (feed : FeedNo)
  /-- A pending start (R123). -/
  | start (feed : FeedNo)
  deriving DecidableEq, Repr

/-- The order in which the blocks take one frame event, which the spec leaves open: the pieces taken first, whether the
health examination goes before the firing pass, the pieces taken between the two, and those taken last. A statement over
every order is a statement over every order the part may show (log 3). -/
structure FrameOrder where
  first : List FrameTask
  examineFirst : Bool
  between : List FrameTask
  last : List FrameTask
  deriving DecidableEq, Repr

/-- The commands, one constructor for each row of the table. A request's command says that a frame with that request's code,
this sequence and this body has been accepted on the port (R149, R151); its body is the bytes of R172. -/
inductive Instr where
  /-- RESET_ASSERT (R15), with the level of FRSEL (high is true). -/
  | resetAssert (frsel : Bool)
  /-- RESET_RELEASE (R15), with the level of FRSEL at the release. -/
  | resetRelease (frsel : Bool)
  /-- IMAGE_HEADER_READ (R164, 12.5): the 7 bytes that the memory gives for the format, the length and the check. -/
  | imageHeaderRead (format : Byte) (length : Vector Byte 2) (check : Vector Byte 4)
  /-- IMAGE_READ_COMPLETE (R165): the section bytes read. -/
  | imageReadComplete (bytes : List Byte)
  /-- LINE_SPEED_CHANGE (R147). -/
  | lineSpeedChange (port : PortNo)
  /-- FLYWHEEL_UNDERFLOW (R6). -/
  | flywheelUnderflow (order : FrameOrder)
  /-- LATE_WINDOW_EXPIRY (R6). -/
  | lateWindowExpiry
  /-- HOUSE_REFERENCE_PULSE (R5); the order matters only if the pulse makes a frame event. -/
  | houseReferencePulse (order : FrameOrder)
  /-- WINDOW_END (R46). -/
  | windowEnd (feed : FeedNo) (position : PosNo)
  /-- FORCED_SWITCH (R66). -/
  | forcedSwitch (feed : FeedNo) (position : PosNo)
  /-- CAROUSEL_DUE_MAKING (R131). -/
  | carouselDueMaking (feed : FeedNo) (slot : TableNo)
  /-- PACKET_ARRIVAL (R81): the 188th byte of a packet. -/
  | packetArrival (source : SrcNo) (byte : Byte)
  /-- SLOT_EVENT (R129). -/
  | slotEvent (feed : FeedNo)
  /-- CONTROL_FRAME (R149): the last check byte of a frame, without a framing error. -/
  | controlFrame (port : PortNo) (byte : Byte)
  /-- BYTE_GAP_EXPIRY (R150). -/
  | byteGapExpiry (port : PortNo)
  /-- REPLY_SENT (R152). -/
  | replySent (port : PortNo)
  /-- UNKNOWN_REQUEST (R153). -/
  | unknownRequest (port : PortNo) (sequence : Byte) (code : Byte) (body : List Byte)
  | setTime (port : PortNo) (sequence : Byte) (body : List Byte)
  | readTime (port : PortNo) (sequence : Byte) (body : List Byte)
  | postEntry (port : PortNo) (sequence : Byte) (body : List Byte)
  | cancelEntry (port : PortNo) (sequence : Byte) (body : List Byte)
  | clearEntries (port : PortNo) (sequence : Byte) (body : List Byte)
  | listEntries (port : PortNo) (sequence : Byte) (body : List Byte)
  | setPosition (port : PortNo) (sequence : Byte) (body : List Byte)
  | release (port : PortNo) (sequence : Byte) (body : List Byte)
  | examinePosition (port : PortNo) (sequence : Byte) (body : List Byte)
  | setCueLine (port : PortNo) (sequence : Byte) (body : List Byte)
  | setSource (port : PortNo) (sequence : Byte) (body : List Byte)
  | readSource (port : PortNo) (sequence : Byte) (body : List Byte)
  | setScan (port : PortNo) (sequence : Byte) (body : List Byte)
  | ackFaults (port : PortNo) (sequence : Byte) (body : List Byte)
  | readHealth (port : PortNo) (sequence : Byte) (body : List Byte)
  | editPlan (port : PortNo) (sequence : Byte) (body : List Byte)
  | swapPlan (port : PortNo) (sequence : Byte) (body : List Byte)
  | setFeedRate (port : PortNo) (sequence : Byte) (body : List Byte)
  | startFeed (port : PortNo) (sequence : Byte) (body : List Byte)
  | stopFeed (port : PortNo) (sequence : Byte) (body : List Byte)
  | readPlan (port : PortNo) (sequence : Byte) (body : List Byte)
  | readFeed (port : PortNo) (sequence : Byte) (body : List Byte)
  | loadTable (port : PortNo) (sequence : Byte) (body : List Byte)
  | dropTable (port : PortNo) (sequence : Byte) (body : List Byte)
  | setMask (port : PortNo) (sequence : Byte) (body : List Byte)
  | readEvents (port : PortNo) (sequence : Byte) (body : List Byte)
  | readOutcomes (port : PortNo) (sequence : Byte) (body : List Byte)
  | readPort (port : PortNo) (sequence : Byte) (body : List Byte)
  /-- SOURCE_PORT_BYTE (R82). -/
  | sourcePortByte (source : SrcNo) (byte : Byte)
  /-- CONTROL_PORT_BYTE (R149); `framing` says that the stop bit was sampled low. -/
  | controlPortByte (port : PortNo) (byte : Byte) (framing : Bool)
  deriving DecidableEq, Repr

end Sys2Proof
end

