-- ==== Sys2Proof/Machine/State.lean ====
section
/-! DEFINITION. The state of the part, block by block (00_scope.md), as plain data, and its values at reset. -/

namespace Sys2Proof.Machine

/-! ### Station Clock -/

/-- The frame rate (R2). -/
inductive FrameRate where
  | fps25
  | fps30
  deriving DecidableEq, Repr

/-- The reference state (R8). -/
inductive RefState where
  | unreferenced
  | locked
  | flywheel
  deriving DecidableEq, Repr

/-- A time of day (R3). -/
structure TimeOfDay where
  hours : Nat
  minutes : Nat
  seconds : Nat
  frames : Nat
  deriving DecidableEq, Repr

/-- The Station Clock (01). `atUnderflow` is the model's own: the present tick is that of an underflow which is not yet taken, and the
timer stands at 1 (R4, R5, log 12). `late` holds the tick of the underflow that opened the late window while the window is open
(R6). -/
structure Clock where
  tick : Tick
  rate : FrameRate
  tod : TimeOfDay
  frameStart : Tick
  timer : Nat
  atUnderflow : Bool
  late : Option Tick
  ref : RefState
  run : Nat
  load : Option TimeOfDay
  deriving DecidableEq, Repr

/-! ### Switch List -/

/-- The class of a selection, in rising order (R17). -/
inductive SelClass where
  | network
  | regional
  | alert
  deriving DecidableEq, Repr

/-- A splice policy (R17, R37). -/
inductive Splice where
  | immediate
  | entry (wait : Nat)
  deriving DecidableEq, Repr

/-- The action of an entry (R17). -/
inductive Action where
  | take
  | giveBack
  | base
  | plan
  | cue
  deriving DecidableEq, Repr

/-- What a cue does to its line (R74, R75). -/
inductive CueKind where
  | pulse
  | toggle
  deriving DecidableEq, Repr

/-- The cue of an entry (R17). -/
structure EntryCue where
  line : LineNo
  kind : CueKind
  lead : Nat
  deriving DecidableEq, Repr

/-- An entry of the switch list (R17); `cued` is the state CUED, `late` the late mark. -/
structure Entry where
  owner : PortNo
  tag : Tag
  cls : SelClass
  due : Nat
  feed : FeedNo
  position : PosNo
  action : Action
  source : SrcNo
  window : Nat
  splice : Splice
  cue : Option EntryCue
  seq : BitVec 16
  cued : Bool
  late : Bool
  deriving DecidableEq, Repr

/-- The Switch List (02): the list head first, the posting sequence counter and each port's quota. -/
structure SwitchList where
  entries : List Entry
  nextSeq : BitVec 16
  quotas : Vector Nat 4
  deriving DecidableEq, Repr

/-! ### Position Stacks and Transition Unit -/

/-- A stack entry above the base (R41). `window` is what remains of its window, 0 while its WINDOW END is due (log 6). -/
structure StackEntry where
  cls : SelClass
  source : SrcNo
  owner : PortNo
  tag : Tag
  window : Option Nat
  mark : Bool
  deriving DecidableEq, Repr

/-- The owner of the outcome that waits on a transition (R54, R57); its feed and position are those of the slot. -/
structure Owner where
  port : PortNo
  tag : Tag
  late : Bool
  deriving DecidableEq, Repr

/-- A transition slot (R57). It is SEEKING exactly when the preview cursor is attached, and then holds the source sought, the
wait and the pending owner. -/
inductive Slot where
  | steady
  | seeking (target : SrcNo) (wait : Nat) (owner : Option Owner)
  deriving DecidableEq, Repr

/-- An attached on-air cursor: its source, and its lag, the number of held packets from its next packet up to the write point
(R92). -/
structure Cursor where
  source : SrcNo
  lag : Nat
  deriving DecidableEq, Repr

/-- A position: its settings (R37), its selection stack (R41: the base, and the entries above it, lowest first), its
transition slot, on-air cursor and switch marks (R57) and its overrun count (R96). -/
structure Position where
  ids : Vector (Option Nat) 4
  fallback : Option SrcNo
  policy : Splice
  base : Option SrcNo
  baseMark : Bool
  upper : List StackEntry
  slot : Slot
  onAir : Option Cursor
  marks : BitVec 4
  overruns : Nat
  deriving DecidableEq, Repr

/-! ### Cue Line Unit -/

/-- The mode of a cue line (R73). -/
inductive LineMode where
  | cue
  | tally
  deriving DecidableEq, Repr

/-- The last cue a line took (R73). -/
structure LastCue where
  owner : PortNo
  kind : CueKind
  tod : TimeOfDay
  deriving DecidableEq, Repr

/-- A cue line (R73). -/
structure CueLine where
  mode : LineMode
  level : Bool
  pulse : Bool
  feed : FeedNo
  position : PosNo
  source : SrcNo
  last : Option LastCue
  deriving DecidableEq, Repr

/-! ### Source Intake and Health Monitor -/

/-- The sync state of a source port (R81). -/
inductive SyncState where
  | hunting
  | synced
  deriving DecidableEq, Repr

/-- A set of checks, or of the causes of a verdict (R84, R102). -/
structure Checks where
  sync : Bool
  continuity : Bool
  rate : Bool
  clock : Bool
  deriving DecidableEq, Repr

/-- The rate mode of a source (R84). -/
inductive RateMode where
  | band
  | floor
  | ceiling
  deriving DecidableEq, Repr

/-- A source table entry (R84). -/
structure SourceEntry where
  enabled : Bool
  comps : Vector (Option Nat) 4
  clockComp : Option CompNo
  staleLimit : Nat
  checks : Checks
  rateMode : RateMode
  low : Nat
  high : Nat
  tolerance : Nat
  faultThreshold : Nat
  recoveryThreshold : Nat
  fallbackPermit : Bool
  noticePermit : Bool
  deriving DecidableEq, Repr

/-- A stored packet (R90); the clock sample is present exactly when the clock-present flag was set. -/
structure Packet where
  comp : CompNo
  arrival : Tick
  entry : Bool
  disc : Bool
  id : Nat
  count : BitVec 4
  clock : Option Tick
  payload : List Byte
  deriving DecidableEq, Repr

/-- The health state of a source (R105). -/
inductive Health where
  | healthy
  | suspect
  | faulted
  | disabled
  deriving DecidableEq, Repr

/-- The last verdict on a source (R102). -/
structure Verdict where
  tod : TimeOfDay
  bad : Bool
  causes : Checks
  deriving DecidableEq, Repr

/-- A latched fault record (R110). -/
structure Latched where
  causes : Checks
  time : Option TimeOfDay
  count : Nat
  flag : Bool
  deriving DecidableEq, Repr

/-- A source: its port's sync machine (R81; `bytes` are those of the candidate while HUNTING and of the packet being received
while SYNCED), its table entry (R84), the continuity state of each component (R89), its ring, oldest packet first (R91), its
totals (R96), its interval counters (R101) and its health (R105, R110). -/
structure Source where
  sync : SyncState
  bytes : List Byte
  goodRun : Nat
  badRun : Nat
  table : SourceEntry
  cont : Vector (Option (BitVec 4)) 4
  ring : List Packet
  overrunTotal : Nat
  staleTotal : Nat
  contTotal : Nat
  n : Nat
  e : Nat
  k : Nat
  syncBad : Bool
  clockSeen : Bool
  health : Health
  badCount : Nat
  goodCount : Nat
  verdict : Option Verdict
  latched : Latched
  deriving DecidableEq, Repr

/-- The scan range and the scan pointer (R99). -/
structure Scan where
  first : SrcNo
  last : SrcNo
  pointer : SrcNo
  deriving DecidableEq, Repr

/-! ### Feed Planner and Emission Unit -/

/-- A slot plan (R116). -/
structure Plan where
  shares : Vector Nat 8
  carousel : Nat
  deriving DecidableEq, Repr

/-- A loaded carousel slot (R131). The countdown is 0 while its due-making is due (log 6). -/
structure Table where
  id : Nat
  interval : Nat
  payload : List Byte
  countdown : Nat
  due : Bool
  deriving DecidableEq, Repr

/-- The emission counts of a feed (R143). -/
structure EmissionCounts where
  share : BitVec 32
  spare : BitVec 32
  carousel : BitVec 32
  null : BitVec 32
  stale : Nat
  late : Nat
  deriving DecidableEq, Repr

/-- A feed: the Feed Planner's part (R114 to R119; `activeB` says that plan B is the active one) and the Emission Unit's
(R128). `counters` lists the output continuity counters that are not 0, identifiers strictly rising. `output` is the packet of
the latest slot event, as bytes (log 24). -/
structure Feed where
  running : Bool
  startPending : Bool
  rate : Nat
  capacity : Nat
  planA : Plan
  planB : Plan
  activeB : Bool
  swapPending : Bool
  lastSwap : Option (Tick × TimeOfDay)
  departure : Tick
  remainder : Nat
  shares : Vector Nat 8
  carouselShare : Nat
  sharePtr : PosNo
  sparePtr : PosNo
  carousel : Vector (Option Table) 16
  counters : List (Nat × BitVec 4)
  counts : EmissionCounts
  output : List Byte
  deriving DecidableEq, Repr

/-! ### Control Port Unit -/

/-- A line speed (R147). -/
inductive LineSpeed where
  | low
  | high
  deriving DecidableEq, Repr

/-- The receive state of a port (R149, R150): the bytes after the start byte, and the tick of the latest byte. -/
inductive Rx where
  | waiting
  | receiving (bytes : List Byte) (latest : Tick)
  deriving DecidableEq, Repr

/-- An accepted frame (R149). -/
structure Frame where
  sequence : Byte
  code : Byte
  body : List Byte
  deriving DecidableEq, Repr

/-- An item of a reply list (R151). -/
inductive Item where
  | waiting (frame : Frame)
  | answering (reply : List Byte)
  | busyOwed (sequence : Byte) (code : Byte)
  deriving DecidableEq, Repr

/-- The authority of a port but for its quota, which the Switch List holds (R154). -/
structure Authority where
  classMax : SelClass
  feedMap : BitVec 6
  cueMap : BitVec 8
  configure : Bool
  deriving DecidableEq, Repr

/-- The kinds of notice (R155). -/
inductive Notice where
  | outcome
  | outcomeLost
  | sourceFault
  | sourceRecovered
  | referenceLost
  | referenceRegained
  | referenceStep
  | timeLoaded
  | planSwapped
  | overrun
  deriving DecidableEq, Repr

/-- A set of notice kinds, one bit each (R170). -/
abbrev NoticeSet := BitVec 10

/-- Why an entry failed (R29). -/
inductive FailReason where
  | stackFull
  | nothingToReturn
  | overbooked
  deriving DecidableEq, Repr

/-- The kind of an outcome record, with the reason of FAILED (R159). -/
inductive OutcomeKind where
  | done
  | failed (reason : FailReason)
  | windowEnd
  | discarded
  deriving DecidableEq, Repr

/-- The flags of an outcome record (R159). -/
structure OutcomeFlags where
  late : Bool
  forced : Bool
  hidden : Bool
  abandoned : Bool
  superseded : Bool
  deriving DecidableEq, Repr

/-- An outcome record (R159). -/
structure Outcome where
  tag : Tag
  kind : OutcomeKind
  flags : OutcomeFlags
  feed : FeedNo
  position : PosNo
  tod : TimeOfDay
  deriving DecidableEq, Repr

/-- A control port (10). `pendingSpeed` is the speed it takes when next quiet (R147). -/
structure ControlPort where
  speed : LineSpeed
  pendingSpeed : Option LineSpeed
  rx : Rx
  replies : List Item
  authority : Authority
  notices : NoticeSet
  mask : NoticeSet
  log : List Outcome
  badFrames : Nat
  deriving DecidableEq, Repr

/-! ### Configuration Loader -/

/-- The load state (R163). -/
inductive LoadState where
  | loading
  | ready
  | defaulted
  deriving DecidableEq, Repr

/-- Where the loader stands in its read of the memory (R164). -/
inductive LoadPhase where
  | idle
  | header
  | sections
  | ended
  deriving DecidableEq, Repr

/-- The Configuration Loader (R163): load state, phase of the read, the header bytes read, holding store, running CRC-32 register,
the check the header gave, and the count of bytes still to read. -/
structure Loader where
  state : LoadState
  phase : LoadPhase
  header : List Byte
  store : List Byte
  crc : BitVec 32
  check : BitVec 32
  remaining : Nat
  deriving DecidableEq, Repr

/-! ### The whole -/

/-- The state of the part: the waiting commands (the model's own), whether RESETN is asserted, and the blocks. -/
structure State where
  pending : List Instr
  held : Bool
  clock : Clock
  list : SwitchList
  positions : Vector (Vector Position 8) 6
  lines : Vector CueLine 8
  sources : Vector Source 16
  scan : Scan
  feeds : Vector Feed 6
  ports : Vector ControlPort 4
  loader : Loader
  deriving DecidableEq, Repr

/-- Faults. The spec names no event that stops the part, so there is none. -/
inductive Fault where
  deriving DecidableEq, Repr

/-- Refusals. -/
inductive Refusal where
  /-- Raised by an arm of `exec` whose command has no meaning yet (safe). No arm does. -/
  | notModelled (mnemonic : String)
  deriving DecidableEq, Repr

/-! ### Reset values -/

/-- The reset values of the Station Clock (R15) at a frame rate. -/
def Clock.reset (rate : FrameRate) : Clock where
  tick := 0
  rate := rate
  tod := ⟨0, 0, 0, 0⟩
  frameStart := 0
  timer := match rate with
    | .fps25 => 1080000
    | .fps30 => 900000
  atUnderflow := false
  late := none
  ref := .unreferenced
  run := 0
  load := none

/-- The reset values of the Switch List (R36); the quotas are the defaults of R154. -/
def SwitchList.reset : SwitchList where
  entries := []
  nextSeq := 0
  quotas := #v[32, 16, 16, 16]

/-- The reset values of a position (R56, R72, R98). -/
def Position.reset : Position where
  ids := #v[none, none, none, none]
  fallback := none
  policy := .entry 25
  base := none
  baseMark := false
  upper := []
  slot := .steady
  onAir := none
  marks := 0
  overruns := 0

/-- The reset values of a cue line (R80). -/
def CueLine.reset : CueLine where
  mode := .cue
  level := false
  pulse := false
  feed := 0
  position := 0
  source := 0
  last := none

/-- The empty set of checks. -/
def Checks.empty : Checks := ⟨false, false, false, false⟩

/-- The defaults of a source table entry (R84). -/
def SourceEntry.default : SourceEntry where
  enabled := false
  comps := #v[none, none, none, none]
  clockComp := none
  staleLimit := 25
  checks := .empty
  rateMode := .band
  low := 0
  high := 4095
  tolerance := 0
  faultThreshold := 3
  recoveryThreshold := 3
  fallbackPermit := false
  noticePermit := false

/-- A cleared latched fault record (R110). -/
def Latched.clear : Latched := ⟨.empty, none, 0, false⟩

/-- The reset values of a source (R98, R113). -/
def Source.reset : Source where
  sync := .hunting
  bytes := []
  goodRun := 0
  badRun := 0
  table := .default
  cont := #v[none, none, none, none]
  ring := []
  overrunTotal := 0
  staleTotal := 0
  contTotal := 0
  n := 0
  e := 0
  k := 0
  syncBad := true
  clockSeen := false
  health := .disabled
  badCount := 0
  goodCount := 0
  verdict := none
  latched := .clear

/-- A plan whose shares are all 0. -/
def Plan.zero : Plan := ⟨Vector.replicate 8 0, 0⟩

/-- Emission counts of 0. -/
def EmissionCounts.zero : EmissionCounts := ⟨0, 0, 0, 0, 0, 0⟩

/-- The reset values of a feed (R127, R146) at a frame rate. -/
def Feed.reset (rate : FrameRate) : Feed where
  running := false
  startPending := false
  rate := Config.defaultRate
  capacity := match rate with
    | .fps25 => 641
    | .fps30 => 534
  planA := .zero
  planB := .zero
  activeB := false
  swapPending := false
  lastSwap := none
  departure := 0
  remainder := 0
  shares := Vector.replicate 8 0
  carouselShare := 0
  sharePtr := 7
  sparePtr := 7
  carousel := Vector.replicate 16 none
  counters := []
  counts := .zero
  output := []

/-- The authority of port 0 in the default configuration (R154). -/
def Authority.master : Authority := ⟨.alert, 0x3F, 0xFF, true⟩

/-- The authority of ports 1 to 3 in the default configuration (R154). -/
def Authority.guest : Authority := ⟨.regional, 0, 0, false⟩

/-- The reset values of a control port (R162). -/
def ControlPort.reset (authority : Authority) : ControlPort where
  speed := .low
  pendingSpeed := none
  rx := .waiting
  replies := []
  authority := authority
  notices := 0
  mask := 0
  log := []
  badFrames := 0

/-- The reset values of the loader (R163). -/
def Loader.reset : Loader where
  state := .loading
  phase := .idle
  header := []
  store := []
  crc := 0xFFFFFFFF
  check := 0
  remaining := 0

/-- The part held in reset at a frame rate, with the given commands waiting. -/
def State.heldAt (rate : FrameRate) (pending : List Instr) : State where
  pending := pending
  held := true
  clock := .reset rate
  list := .reset
  positions := Vector.replicate 6 (Vector.replicate 8 .reset)
  lines := Vector.replicate 8 .reset
  sources := Vector.replicate 16 .reset
  scan := ⟨0, 15, 0⟩
  feeds := Vector.replicate 6 (.reset rate)
  ports := #v[.reset .master, .reset .guest, .reset .guest, .reset .guest]
  loader := .reset

/-- The part right after reset: RESETN asserted, FRSEL low, nothing waiting (log 10). -/
def State.reset : State := .heldAt .fps25 []

end Sys2Proof.Machine
end

