-- ==== Sys2Proof/Machine/Ops.lean ====
section
/-! DEFINITION. The named operations over the state that every block uses: reading and writing one position, source, feed, line
or port; saturating counts; time of day and distance; check registers; output continuity counters; notices and outcome
records. -/

namespace Sys2Proof.Machine

/-! ### Every number -/

/-- The feeds. -/
def allFeeds : List FeedNo := [0, 1, 2, 3, 4, 5]

/-- The positions of one feed. -/
def allPlaces : List PosNo := [0, 1, 2, 3, 4, 5, 6, 7]

/-- The 48 positions, 0.0 to 5.7. -/
def allPositions : List (FeedNo × PosNo) := allFeeds.flatMap fun f => allPlaces.map fun p => (f, p)

/-- The sources, and also the carousel slots of a feed. -/
def allSources : List SrcNo := [0, 1, 2, 3, 4, 5, 6, 7, 8, 9, 10, 11, 12, 13, 14, 15]

/-- The cue lines. -/
def allLines : List LineNo := [0, 1, 2, 3, 4, 5, 6, 7]

/-- The control ports, and also the components of a source. -/
def allPorts : List PortNo := [0, 1, 2, 3]

/-- The number that a count of bits names, or none when the range does not hold it. -/
def toFin (n k : Nat) : Option (Fin n) := if h : k < n then some ⟨k, h⟩ else none

/-! ### Reading and writing one item -/

/-- The position `f.p`. -/
def State.pos (s : State) (f : FeedNo) (p : PosNo) : Position := tget (tget s.positions f) p

/-- The state with position `f.p` replaced. -/
def State.setPos (s : State) (f : FeedNo) (p : PosNo) (x : Position) : State :=
  { s with positions := tset s.positions f (tset (tget s.positions f) p x) }

/-- The source `i`. -/
def State.src (s : State) (i : SrcNo) : Source := tget s.sources i

/-- The state with source `i` replaced. -/
def State.setSrc (s : State) (i : SrcNo) (x : Source) : State := { s with sources := tset s.sources i x }

/-- The feed `f`. -/
def State.feed (s : State) (f : FeedNo) : Feed := tget s.feeds f

/-- The state with feed `f` replaced. -/
def State.setFeed (s : State) (f : FeedNo) (x : Feed) : State := { s with feeds := tset s.feeds f x }

/-- The cue line `l`. -/
def State.line (s : State) (l : LineNo) : CueLine := tget s.lines l

/-- The state with cue line `l` replaced. -/
def State.setLine (s : State) (l : LineNo) (x : CueLine) : State := { s with lines := tset s.lines l x }

/-- The control port `p`. -/
def State.port (s : State) (p : PortNo) : ControlPort := tget s.ports p

/-- The state with control port `p` replaced. -/
def State.setPort (s : State) (p : PortNo) (x : ControlPort) : State := { s with ports := tset s.ports p x }

/-! ### Counts -/

/-- A count that saturates at 65,535 (R96, R101, R143, R149). -/
def sat16 (n : Nat) : Nat := min n 65535

/-- A count that saturates at 255 (R101, R110). -/
def sat8 (n : Nat) : Nat := min n 255

/-- A count that saturates at 7 (R102). -/
def sat7 (n : Nat) : Nat := min n 7

/-! ### Time -/

/-- Frames per second (R2). -/
def FrameRate.fps : FrameRate → Nat
  | .fps25 => 25
  | .fps30 => 30

/-- Ticks per frame (R2). -/
def FrameRate.ticks (r : FrameRate) : Nat := 27000000 / r.fps

/-- Frames per day, D (R2). -/
def FrameRate.day (r : FrameRate) : Nat := 86400 * r.fps

/-- The rate that the level of FRSEL straps (R2): low 25, high 30. -/
def FrameRate.ofFrsel (frsel : Bool) : FrameRate := if frsel then .fps30 else .fps25

/-- The frame of day of a time of day (R3). -/
def TimeOfDay.frameOfDay (t : TimeOfDay) (r : FrameRate) : Nat :=
  ((t.hours * 60 + t.minutes) * 60 + t.seconds) * r.fps + t.frames

/-- Whether the four fields are a time of day at a frame rate (R3, R12). -/
def TimeOfDay.valid (t : TimeOfDay) (r : FrameRate) : Bool :=
  decide (t.hours ≤ 23) && decide (t.minutes ≤ 59) && decide (t.seconds ≤ 59) && decide (t.frames < r.fps)

/-- The time of day one frame on (R10). -/
def TimeOfDay.advance (t : TimeOfDay) (r : FrameRate) : TimeOfDay :=
  if t.frames + 1 < r.fps then { t with frames := t.frames + 1 }
  else if t.seconds + 1 < 60 then ⟨t.hours, t.minutes, t.seconds + 1, 0⟩
  else if t.minutes + 1 < 60 then ⟨t.hours, t.minutes + 1, 0, 0⟩
  else if t.hours + 1 < 24 then ⟨t.hours + 1, 0, 0, 0⟩
  else ⟨0, 0, 0, 0⟩

/-- The frame of day of the current time of day. -/
def State.now (s : State) : Nat := s.clock.tod.frameOfDay s.clock.rate

/-- The frames of the day at the part's rate. -/
def State.day (s : State) : Nat := s.clock.rate.day

/-- The distance of a due frame (R19). -/
def distance (due now day : Nat) : Nat := (due + day - now % day) % day

/-- The classes of a distance (R19). -/
inductive Timing where
  | scheduled
  | late
  | past
  deriving DecidableEq, Repr

/-- The class of a distance (R19). -/
def timing (d day : Nat) : Timing :=
  if d = 0 ∨ day - 50 < d then .late else if d ≤ day / 2 then .scheduled else .past

/-- The frame capacity K of a rate (R115). -/
def capacityOf (rate : Nat) (r : FrameRate) : Nat := rate / (Config.packetBits * r.fps)

/-! ### Check registers -/

/-- A check register shifted by a number of bits (R148, R165: most significant bit first, no reflection). -/
def crcShift {w : Nat} (poly : BitVec w) : Nat → BitVec w → BitVec w
  | 0, r => r
  | n + 1, r => crcShift poly n (if r.msb then (r <<< 1) ^^^ poly else r <<< 1)

/-- A check register fed one byte. -/
def crcByte {w : Nat} (poly : BitVec w) (r : BitVec w) (b : Byte) : BitVec w :=
  crcShift poly 8 (r ^^^ (b.setWidth w <<< (w - 8)))

/-- The CRC-16 of a control frame (R148). -/
def crc16 (bytes : List Byte) : BitVec 16 := bytes.foldl (crcByte 0x1021) 0xFFFF

/-- The CRC-32 register of the loader fed bytes (R165); the result is its inverse. -/
def crc32Feed (r : BitVec 32) (bytes : List Byte) : BitVec 32 := bytes.foldl (crcByte 0x04C11DB7) r

/-! ### Output continuity counters -/

/-- The value of a counter: 0 where the list has no entry (R128). -/
def counterGet : List (Nat × BitVec 4) → Nat → BitVec 4
  | [], _ => 0
  | (k, v) :: rest, id => if k = id then v else counterGet rest id

/-- The list with the counter of an identifier taken out. -/
def counterDrop (l : List (Nat × BitVec 4)) (id : Nat) : List (Nat × BitVec 4) := l.filter fun e => e.1 ≠ id

/-- The list with an entry put in its place by identifier. -/
def counterInsert (id : Nat) (v : BitVec 4) : List (Nat × BitVec 4) → List (Nat × BitVec 4)
  | [] => [(id, v)]
  | (k, w) :: rest => if id < k then (id, v) :: (k, w) :: rest else (k, w) :: counterInsert id v rest

/-- A counter written; writing 0 removes its entry, so that equal counters are equal lists. -/
def counterSet (l : List (Nat × BitVec 4)) (id : Nat) (v : BitVec 4) : List (Nat × BitVec 4) :=
  if v = 0 then counterDrop l id else counterInsert id v (counterDrop l id)

/-- The canonical form of the counters: identifiers strictly rising, no count 0. -/
def countersWf (l : List (Nat × BitVec 4)) : Bool :=
  decide ((l.map Prod.fst).Pairwise (· < ·)) && l.all fun e => e.2 ≠ 0

/-! ### Notices -/

/-- The bit of a kind (R170). -/
def Notice.bit : Notice → NoticeSet
  | .outcome => 0x001
  | .outcomeLost => 0x002
  | .sourceFault => 0x004
  | .sourceRecovered => 0x008
  | .referenceLost => 0x010
  | .referenceRegained => 0x020
  | .referenceStep => 0x040
  | .timeLoaded => 0x080
  | .planSwapped => 0x100
  | .overrun => 0x200

/-- A kind raised for one port: it joins the pending set whatever the mask holds (R155). -/
def State.raise (s : State) (p : PortNo) (k : Notice) : State :=
  s.setPort p { s.port p with notices := (s.port p).notices ||| k.bit }

/-- A kind raised for all ports (R14, R106, R107). -/
def State.raiseAll (s : State) (k : Notice) : State := allPorts.foldl (fun s p => s.raise p k) s

/-- Whether a port's feed map holds a feed (R154). A number above 5 is held by none. -/
def ControlPort.holdsFeed (x : ControlPort) (f : Nat) : Bool := x.authority.feedMap.getLsbD f

/-- A kind raised for every port whose feed map holds the feed (R94, R119). -/
def State.raiseForFeed (s : State) (f : FeedNo) (k : Notice) : State :=
  allPorts.foldl (fun s p => if (s.port p).holdsFeed f then s.raise p k else s) s

/-! ### Outcome records -/

/-- No flags. -/
def OutcomeFlags.none : OutcomeFlags := ⟨false, false, false, false, false⟩

/-- A record added to a port's log: at 16 records the oldest is dropped and OUTCOME LOST is raised, and OUTCOME is raised in
any case (R159). -/
def State.addOutcome (s : State) (p : PortNo) (r : Outcome) : State :=
  let x := s.port p
  let full := Config.logPlaces ≤ x.log.length
  let kinds := if full then Notice.outcome.bit ||| Notice.outcomeLost.bit else Notice.outcome.bit
  s.setPort p { x with log := x.log.drop (x.log.length + 1 - Config.logPlaces) ++ [r], notices := x.notices ||| kinds }

/-- The DONE record of a transition's owner, if there is one, at the present time of day (R68); a set late mark adds LATE. -/
def State.ownerDone (s : State) (f : FeedNo) (p : PosNo) (o : Option Owner) (flags : OutcomeFlags) : State :=
  match o with
  | some o => s.addOutcome o.port ⟨o.tag, .done, { flags with late := o.late }, f, p, s.clock.tod⟩
  | none => s

end Sys2Proof.Machine
end

