-- ==== Sys2Proof/Machine/Operands.lean ====
section
/-! DEFINITION. The formats of 12_formats.md: reading the fields of a request body, of an image record and of a packet header,
and writing the fields of a reply and of a packet. -/

namespace Sys2Proof.Machine

/-! ### Bytes and numbers (R170: most significant byte first) -/

/-- Byte `i` of a list. -/
def byteAt (b : List Byte) (i : Nat) : Byte := b.getD i 0

/-- The number in `n` bytes from byte `i` on. -/
def natAt (b : List Byte) (i n : Nat) : Nat := ((b.drop i).take n).foldl (fun a x => a * 256 + x.toNat) 0

/-- A number in `k` bytes. -/
def natBytes : Nat → Nat → List Byte
  | 0, _ => []
  | k + 1, n => natBytes k (n / 256) ++ [BitVec.ofNat 8 n]

/-- A number in one byte. -/
def nat8 (n : Nat) : Byte := BitVec.ofNat 8 n

/-! ### Request codes and body lengths (12.3) -/

/-- The code of a request. -/
def reqCode : Request → Byte
  | .readPort => 0x01
  | .readEvents => 0x02
  | .setMask => 0x03
  | .readOutcomes => 0x04
  | .setTime => 0x05
  | .readTime => 0x06
  | .postEntry => 0x10
  | .cancelEntry => 0x11
  | .clearEntries => 0x12
  | .listEntries => 0x13
  | .setPosition => 0x18
  | .release => 0x19
  | .examinePosition => 0x1A
  | .setCueLine => 0x1C
  | .setSource => 0x20
  | .readSource => 0x21
  | .setScan => 0x24
  | .ackFaults => 0x25
  | .readHealth => 0x26
  | .editPlan => 0x30
  | .swapPlan => 0x31
  | .setFeedRate => 0x32
  | .startFeed => 0x33
  | .stopFeed => 0x34
  | .readPlan => 0x35
  | .readFeed => 0x36
  | .loadTable => 0x38
  | .dropTable => 0x39

/-- The body length of a request. -/
def reqLength : Request → Nat
  | .readPort => 0
  | .readEvents => 0
  | .setMask => 4
  | .readOutcomes => 0
  | .setTime => 4
  | .readTime => 0
  | .postEntry => 17
  | .cancelEntry => 2
  | .clearEntries => 0
  | .listEntries => 1
  | .setPosition => 14
  | .release => 2
  | .examinePosition => 2
  | .setCueLine => 7
  | .setSource => 21
  | .readSource => 1
  | .setScan => 2
  | .ackFaults => 2
  | .readHealth => 1
  | .editPlan => 21
  | .swapPlan => 1
  | .setFeedRate => 5
  | .startFeed => 1
  | .stopFeed => 1
  | .readPlan => 1
  | .readFeed => 1
  | .loadTable => 189
  | .dropTable => 2

/-- Every request. -/
def allRequests : List Request :=
  [.readPort, .readEvents, .setMask, .readOutcomes, .setTime, .readTime, .postEntry, .cancelEntry, .clearEntries,
   .listEntries, .setPosition, .release, .examinePosition, .setCueLine, .setSource, .readSource, .setScan, .ackFaults,
   .readHealth, .editPlan, .swapPlan, .setFeedRate, .startFeed, .stopFeed, .readPlan, .readFeed, .loadTable, .dropTable]

/-- The request that a code names (R153). -/
def reqOf (code : Byte) : Option Request := allRequests.find? fun r => reqCode r = code

/-! ### Results (12.3) -/

/-- The results of a reply. -/
inductive Result where
  | ok | busy | unknownRequest | malformed | range | notPermitted | notReady | listFull | duplicateTag | past | notFound
  | overbooked | planPending | feedState | duplicateId
  deriving DecidableEq, Repr

/-- The value of a result. -/
def resultByte : Result → Byte
  | .ok => 0x00
  | .busy => 0x01
  | .unknownRequest => 0x02
  | .malformed => 0x03
  | .range => 0x04
  | .notPermitted => 0x05
  | .notReady => 0x06
  | .listFull => 0x07
  | .duplicateTag => 0x08
  | .past => 0x09
  | .notFound => 0x0A
  | .overbooked => 0x0B
  | .planPending => 0x0C
  | .feedState => 0x0D
  | .duplicateId => 0x0E

/-- What a request answers: the state after it, and the body of its reply. -/
abbrev Answer := State × List Byte

/-- A request refused: nothing changes, and the reply holds the result alone (R152). -/
def refuse (s : State) (r : Result) : Answer := (s, [resultByte r])

/-- A request taken: the reply holds OK and its fields. -/
def accept (s : State) (fields : List Byte) : Answer := (s, resultByte .ok :: fields)

/-! ### Reading fields (12.1) -/

/-- A class. -/
def classOf (b : Byte) : Option SelClass :=
  if b = 0 then some .network else if b = 1 then some .regional else if b = 2 then some .alert else none

/-- The rank of a class. -/
def SelClass.rank : SelClass → Nat
  | .network => 0
  | .regional => 1
  | .alert => 2

/-- An action. -/
def actionOf (b : Byte) : Option Action :=
  if b = 0 then some .take else if b = 1 then some .giveBack else if b = 2 then some .base
  else if b = 3 then some .plan else if b = 4 then some .cue else none

/-- A splice or return policy: 0 IMMEDIATE, 1 to 50 ENTRY with that wait. -/
def spliceOf (b : Byte) : Option Splice :=
  if b = 0 then some .immediate else if b.toNat ≤ 50 then some (.entry b.toNat) else none

/-- A field of two values, of which 1 is the true one. For a 'set or clear' flag (the configure flag, autostart) 12.1 names no values:
set is 1 and clear is 0, DESIGN CHOICE (log 32). -/
def boolOf (b : Byte) : Option Bool := if b = 0 then some false else if b = 1 then some true else none

/-- PULSE or TOGGLE. -/
def cueKindOf (b : Byte) : Option CueKind := if b = 0 then some .pulse else if b = 1 then some .toggle else none

/-- CUE or TALLY. -/
def lineModeOf (b : Byte) : Option LineMode := if b = 0 then some .cue else if b = 1 then some .tally else none

/-- A source, or NONE ($FF). -/
def sourceOrNone (b : Byte) : Option (Option SrcNo) :=
  if b = 0xFF then some none else (toFin 16 b.toNat).map some

/-- An identifier from `low` to 8190, or absent ($FFFF). -/
def idOrNone (low n : Nat) : Option (Option Nat) :=
  if n = 0xFFFF then some none else if low ≤ n ∧ n ≤ 8190 then some (some n) else none

/-- A rate mode. -/
def rateModeOf (b : Byte) : Option RateMode :=
  if b = 0 then some .band else if b = 1 then some .floor else if b = 2 then some .ceiling else none

/-- A set of checks, in bits 0 to 3. -/
def checksOf (b : Byte) : Checks := ⟨b.getLsbD 0, b.getLsbD 1, b.getLsbD 2, b.getLsbD 3⟩

/-- The time of day in four bytes. -/
def todAt (b : List Byte) (i : Nat) : TimeOfDay :=
  ⟨(byteAt b i).toNat, (byteAt b (i + 1)).toNat, (byteAt b (i + 2)).toNat, (byteAt b (i + 3)).toNat⟩

/-- Four identifiers of two bytes each, or none when one is out of its range. -/
def idsAt (low : Nat) (b : List Byte) (i : Nat) : Option (Vector (Option Nat) 4) :=
  match idOrNone low (natAt b i 2), idOrNone low (natAt b (i + 2) 2), idOrNone low (natAt b (i + 4) 2),
      idOrNone low (natAt b (i + 6) 2) with
  | some a, some c, some d, some e => some #v[a, c, d, e]
  | _, _, _, _ => none

/-- The clock component of a table entry, or none when it names no component whose identifier is present (R84, R85). -/
def clockCompOf (comps : Vector (Option Nat) 4) (b : Byte) : Option (Option CompNo) :=
  if b = 0xFF then some none
  else match toFin 4 b.toNat with
    | some c => if (tget comps c).isSome then some (some c) else none
    | none => none

/-- The identifiers present in a list. -/
def present (v : Vector (Option Nat) 4) : List Nat := v.toList.filterMap id

/-- A source table entry of 20 bytes from byte `i` on, or none when a field is out of its range (R84, R85 check 2). Bits that
no field uses are ignored (R172). -/
def sourceEntryAt (b : List Byte) (i : Nat) : Option SourceEntry :=
  match idsAt 0 b (i + 2), rateModeOf (byteAt b (i + 12)) with
  | some comps, some mode =>
    match clockCompOf comps (byteAt b (i + 10)) with
    | some clock =>
      let stale := (byteAt b (i + 11)).toNat
      let low := natAt b (i + 13) 2
      let high := natAt b (i + 15) 2
      let tolerance := (byteAt b (i + 17)).toNat
      let fault := (byteAt b (i + 18)).toNat
      let recovery := (byteAt b (i + 19)).toNat
      if 1 ≤ stale ∧ stale ≤ 50 ∧ low ≤ 4095 ∧ high ≤ 4095 ∧ (mode = .band → low ≤ high) ∧ tolerance ≤ 15 ∧
          1 ≤ fault ∧ fault ≤ 7 ∧ 1 ≤ recovery ∧ recovery ≤ 7 then
        some { enabled := (byteAt b i).getLsbD 0, comps := comps, clockComp := clock, staleLimit := stale,
               checks := checksOf (byteAt b (i + 1)), rateMode := mode, low := low, high := high, tolerance := tolerance,
               faultThreshold := fault, recoveryThreshold := recovery, fallbackPermit := (byteAt b i).getLsbD 1,
               noticePermit := (byteAt b i).getLsbD 2 }
      else none
    | none => none
  | _, _ => none

/-- A plan of 17 bytes from byte `i` on. -/
def planAt (b : List Byte) (i : Nat) : Plan :=
  ⟨#v[natAt b i 2, natAt b (i + 2) 2, natAt b (i + 4) 2, natAt b (i + 6) 2, natAt b (i + 8) 2, natAt b (i + 10) 2,
      natAt b (i + 12) 2, natAt b (i + 14) 2], (byteAt b (i + 16)).toNat⟩

/-! ### Writing fields (12.1) -/

/-- A field of two values, of which 1 is the true one. For a one-byte 'set or clear' flag (configure, autostart, pulse, start and swap
pending, substitution mark, faulted since acknowledged) 12.1 names no values: set is 1 and clear is 0, DESIGN CHOICE (log 32). -/
def boolByte (b : Bool) : Byte := if b then 1 else 0

/-- A 'yes or no' field: 0 or 1, in that order (12.1). -/
def yesNoByte (yes : Bool) : Byte := if yes then 0 else 1

/-- A time of day, absent as $FF in every byte. -/
def todBytes : Option TimeOfDay → List Byte
  | some t => [nat8 t.hours, nat8 t.minutes, nat8 t.seconds, nat8 t.frames]
  | none => [0xFF, 0xFF, 0xFF, 0xFF]

/-- A tick value or clock sample. -/
def tickBytes (t : Tick) : List Byte := natBytes 5 t.toNat

/-- A source, NONE or detached as $FF. -/
def sourceByte : Option SrcNo → Byte
  | some x => nat8 x.val
  | none => 0xFF

/-- An identifier, absent as $FFFF. -/
def idBytes : Option Nat → List Byte
  | some n => natBytes 2 n
  | none => [0xFF, 0xFF]

/-- Four identifiers. -/
def idsBytes (v : Vector (Option Nat) 4) : List Byte := v.toList.flatMap idBytes

/-- A splice or return policy. -/
def spliceByte : Splice → Byte
  | .immediate => 0
  | .entry w => nat8 w

/-- A class. -/
def classByte (c : SelClass) : Byte := nat8 c.rank

/-- An action. -/
def actionByte : Action → Byte
  | .take => 0
  | .giveBack => 1
  | .base => 2
  | .plan => 3
  | .cue => 4

/-- PULSE or TOGGLE. -/
def cueKindByte : CueKind → Byte
  | .pulse => 0
  | .toggle => 1

/-- CUE or TALLY. -/
def lineModeByte : LineMode → Byte
  | .cue => 0
  | .tally => 1

/-- A reference state. -/
def refByte : RefState → Byte
  | .unreferenced => 0
  | .locked => 1
  | .flywheel => 2

/-- A health state. -/
def healthByte : Health → Byte
  | .healthy => 0
  | .suspect => 1
  | .faulted => 2
  | .disabled => 3

/-- A load state. -/
def loadByte : LoadState → Byte
  | .loading => 0
  | .ready => 1
  | .defaulted => 2

/-- A line speed. -/
def speedByte : LineSpeed → Byte
  | .low => 0
  | .high => 1

/-- A rate mode. -/
def rateModeByte : RateMode → Byte
  | .band => 0
  | .floor => 1
  | .ceiling => 2

/-- A byte whose bits 0 to 4 are the given flags. -/
def flagByte (b0 b1 b2 b3 b4 : Bool) : Byte :=
  boolByte b0 ||| (boolByte b1 <<< 1) ||| (boolByte b2 <<< 2) ||| (boolByte b3 <<< 3) ||| (boolByte b4 <<< 4)

/-- A set of checks or causes. -/
def checksByte (c : Checks) : Byte := flagByte c.sync c.continuity c.rate c.clock false

/-- A set of notice kinds. -/
def noticeBytes (n : NoticeSet) : List Byte := natBytes 2 n.toNat

/-! ### Records (12.4) -/

/-- The 21-byte entry record. A cue that is absent leaves its mode and lead 0 (log 18). -/
def entryRecord (e : Entry) : List Byte :=
  [nat8 e.owner.val] ++ natBytes 2 e.tag.toNat ++ [classByte e.cls] ++ natBytes 3 e.due ++
  [nat8 e.feed.val, nat8 e.position.val, actionByte e.action, nat8 e.source.val] ++ natBytes 3 e.window ++
  [spliceByte e.splice] ++
  (match e.cue with
   | some c => [nat8 c.line.val, cueKindByte c.kind, nat8 c.lead]
   | none => [0xFF, 0, 0]) ++
  natBytes 2 e.seq.toNat ++ [flagByte e.cued e.late false false false]

/-- The 9-byte stack-entry record of the base. -/
def baseRecord (p : Position) : List Byte :=
  [classByte .network, sourceByte p.base, 0xFF, 0, 0, 0xFF, 0xFF, 0xFF, boolByte p.baseMark]

/-- The 9-byte stack-entry record of an entry above the base. -/
def stackRecord (e : StackEntry) : List Byte :=
  [classByte e.cls, nat8 e.source.val, nat8 e.owner.val] ++ natBytes 2 e.tag.toNat ++
  (match e.window with
   | some w => natBytes 3 w
   | none => [0xFF, 0xFF, 0xFF]) ++
  [boolByte e.mark]

/-- The kind and reason bytes of an outcome record. -/
def outcomeKindBytes : OutcomeKind → List Byte
  | .done => [0, 0]
  | .failed .stackFull => [1, 1]
  | .failed .nothingToReturn => [1, 2]
  | .failed .overbooked => [1, 3]
  | .windowEnd => [2, 0]
  | .discarded => [3, 0]

/-- The 11-byte outcome record. -/
def outcomeRecord (r : Outcome) : List Byte :=
  natBytes 2 r.tag.toNat ++ outcomeKindBytes r.kind ++
  [flagByte r.flags.late r.flags.forced r.flags.hidden r.flags.abandoned r.flags.superseded,
   nat8 r.feed.val, nat8 r.position.val] ++ todBytes (some r.tod)

/-- The 20-byte source table entry. -/
def sourceEntryBytes (t : SourceEntry) : List Byte :=
  [flagByte t.enabled t.fallbackPermit t.noticePermit false false, checksByte t.checks] ++ idsBytes t.comps ++
  [(match t.clockComp with
    | some c => nat8 c.val
    | none => 0xFF), nat8 t.staleLimit, rateModeByte t.rateMode] ++
  natBytes 2 t.low ++ natBytes 2 t.high ++ [nat8 t.tolerance, nat8 t.faultThreshold, nat8 t.recoveryThreshold]

/-- The 17-byte plan. -/
def planBytes (p : Plan) : List Byte := p.shares.toList.flatMap (natBytes 2) ++ [nat8 p.carousel]

/-- The 7-byte latched fault record. -/
def latchedBytes (l : Latched) : List Byte :=
  [checksByte l.causes] ++ todBytes l.time ++ [nat8 l.count, boolByte l.flag]

/-- The last verdict: verdict ($FF absent), time of day, causes. -/
def verdictBytes : Option Verdict → List Byte
  | some v => [boolByte v.bad] ++ todBytes (some v.tod) ++ [checksByte v.causes]
  | none => [0xFF, 0xFF, 0xFF, 0xFF, 0xFF, 0]

/-! ### Control frames (12.3) -/

/-- The frame of a reply: start byte, length, sequence, code, body, check (R148, R152). -/
def frameBytes (sequence code : Byte) (body : List Byte) : List Byte :=
  let fed := natBytes 2 (body.length + 2) ++ [sequence, code] ++ body
  [0xC3] ++ fed ++ natBytes 2 (crc16 fed).toNat

/-- The code of the reply to a code (R152): $80 added, but a code of $80 or above echoed. -/
def replyCode (code : Byte) : Byte := if code.toNat < 128 then code + 0x80 else code

/-- The code of a BUSY reply (R152); for a code of $80 or above it is a free value (log 15). -/
def busyCode (code : Byte) : Byte := if code.toNat < 128 then code + 0x80 else Config.busyReplyCode code

/-- The frame of a BUSY reply (R151). -/
def busyReply (sequence code : Byte) : List Byte := frameBytes sequence (busyCode code) [resultByte .busy]

/-! ### Packets (12.2) -/

/-- The 13-bit identifier of a packet. -/
def headerId (b : List Byte) : Nat := (byteAt b 1).toNat % 32 * 256 + (byteAt b 2).toNat

/-- A received packet of 188 bytes as it is stored for a component at a tick (R90, R171). -/
def packetOf (b : List Byte) (comp : CompNo) (arrival : Tick) : Packet :=
  let clocked := (byteAt b 1).getLsbD 6
  { comp := comp, arrival := arrival, entry := (byteAt b 1).getLsbD 7, disc := (byteAt b 1).getLsbD 5, id := headerId b,
    count := (byteAt b 3).setWidth 4, clock := if clocked then some (BitVec.ofNat 40 (natAt b 4 5)) else none,
    payload := if clocked then b.drop 9 else b.drop 4 }

/-- The bytes of a packet sent (R171). -/
def packetBytes (id : Nat) (entry disc : Bool) (count : BitVec 4) (clock : Option Tick) (payload : List Byte) : List Byte :=
  ([0x47, (boolByte entry <<< 7) ||| (boolByte clock.isSome <<< 6) ||| (boolByte disc <<< 5) ||| nat8 (id / 256 % 32),
   nat8 id, count.setWidth 8] : List Byte) ++
  (match clock with
   | some c => tickBytes c
   | none => []) ++ payload

/-- The null packet (R142): $47, $1F, $FF, $00 and 184 bytes of $FF. -/
def nullPacket : List Byte := packetBytes 8191 false false 0 none (List.replicate 184 0xFF)

end Sys2Proof.Machine
end

