-- ==== Sys2Proof/Machine/Flags.lean ====
section
/-! DEFINITION. The flags and levels that the spec computes from the state: substitution marks, the effective source, the
classification of a position, cursors and ring flags, cue outputs, the attention line, the pool. -/

namespace Sys2Proof.Machine

/-! ### Substitution and the effective source (R50, R52) -/

/-- FAULTED and DISABLED count alike for a mark (R50). -/
def Health.failed : Health → Bool
  | .healthy => false
  | .suspect => false
  | .faulted => true
  | .disabled => true

/-- The mark of a stack entry with this source at a position with this fallback (R50). -/
def State.markFor (s : State) (source fallback : Option SrcNo) : Bool :=
  match source, fallback with
  | some x, some y => (s.src x).health.failed && (s.src x).table.fallbackPermit && !(s.src y).health.failed
  | _, _ => false

/-- Whether the top entry of the stack carries a mark. -/
def Position.topMark (p : Position) : Bool :=
  match p.upper.getLast? with
  | some e => e.mark
  | none => p.baseMark

/-- The effective on-air source, none when dark (R52). -/
def Position.effective (p : Position) : Option SrcNo :=
  if p.topMark then p.fallback
  else match p.upper.getLast? with
    | some e => some e.source
    | none => p.base

/-- The number of the classification (R55, R172): DARK 0, BASE 1, NETWORK OVERRIDE 2, REGIONAL OVERRIDE 3, ALERT 4. -/
def Position.classification (p : Position) : Nat :=
  match p.effective, p.upper.getLast? with
  | none, _ => 0
  | some _, none => 1
  | some _, some e => 2 + e.cls.rank

/-! ### The transition slot -/

/-- Whether a search is under way (R57). -/
def Slot.isSeeking : Slot → Bool
  | .steady => false
  | .seeking _ _ _ => true

/-- The source the preview cursor reads. -/
def Slot.target : Slot → Option SrcNo
  | .steady => none
  | .seeking t _ _ => some t

/-- The wait, 0 while STEADY (R57). -/
def Slot.wait : Slot → Nat
  | .steady => 0
  | .seeking _ w _ => w

/-- The pending owner, absent while STEADY (R57). -/
def Slot.owner : Slot → Option Owner
  | .steady => none
  | .seeking _ _ o => o

/-- The source the on-air cursor reads, none when it is detached. -/
def Position.onAirSource (p : Position) : Option SrcNo := p.onAir.map Cursor.source

/-- Whether the position has an output identifier for a component (R37). -/
def Position.carries (p : Position) (c : CompNo) : Bool := (tget p.ids c).isSome

/-! ### Cursors and rings (R92, R93) -/

/-- The lags of the cursors attached to the ring of a source: on-air cursors, and preview cursors at lag 0. -/
def State.lags (s : State) (x : SrcNo) : List Nat :=
  allPositions.flatMap fun fp =>
    let p := s.pos fp.1 fp.2
    (match p.onAir with
     | some c => if c.source = x then [c.lag] else []
     | none => []) ++
    (if p.slot.target = some x then [0] else [])

/-- The backlog of a ring: the largest lag among its cursors, 0 with none (R93). -/
def State.backlog (s : State) (x : SrcNo) : Nat := (s.lags x).foldl max 0

/-- The ring flags (R93). -/
def ringFlags (backlog : Nat) : Byte :=
  flagByte (decide (backlog = 0)) (decide (256 ≤ backlog)) (decide (backlog = 512)) false false

/-- The packets of a ring from a cursor's next packet on. -/
def unread (ring : List Packet) (lag : Nat) : List Packet := ring.drop (ring.length - lag)

/-- The lag of a cursor once it has passed over the packets its position does not carry (R92). -/
def passOver (p : Position) (ring : List Packet) (lag : Nat) : Nat :=
  ((unread ring lag).dropWhile fun k => !p.carries k.comp).length

/-! ### Cue lines (R73, R76) -/

/-- The tally condition of a line (R76). -/
def State.tally (s : State) (l : CueLine) : Bool :=
  (s.feed l.feed).running && decide ((s.pos l.feed l.position).onAirSource = some l.source)

/-- The level of the CUEn pin (R73). -/
def State.cueOutput (s : State) (n : LineNo) : Bool :=
  let l := s.line n
  match l.mode with
  | .cue => xor l.level l.pulse
  | .tally => s.tally l

/-! ### The station clock (R4, R13) -/

/-- The ticks until the next underflow: the timer, and 0 at the underflow's own tick while it is not yet taken (R4, log 12). -/
def Clock.untilUnderflow (c : Clock) : Nat := if c.atUnderflow then 0 else c.timer

/-- The tick count as a request reads it. A request taken before the underflow of its tick reports that frame event not at all, so it
reads the tick before (R13, log 12). -/
def Clock.shown (c : Clock) : Tick := if c.atUnderflow then c.tick - 1 else c.tick

/-! ### The loader's pins (R164) -/

/-- Whether CFG_CS is low: from the release of RESETN to the end of the read. -/
def Loader.csLow (l : Loader) : Bool := decide (l.phase = .header) || decide (l.phase = .sections)

/-- The bytes sent on CFG_MOSI since the release of RESETN: the read command $03 and the address. -/
def Loader.sent (l : Loader) : List Byte := if l.phase = .idle then [] else [0x03, 0x00, 0x00, 0x00]

/-- Whether CFG_MOSI is held low: from the end of the read on. -/
def Loader.mosiLow (l : Loader) : Bool := decide (l.phase = .ended)

/-! ### Control ports -/

/-- The level of the attention line (R156). -/
def ControlPort.attention (x : ControlPort) : Bool := decide (x.notices &&& x.mask ≠ 0)

/-- The frame on the transmit line: the reply of the item at the head of the list (R151, R152). The transmitter is idle
exactly when the list is empty (log 9). -/
def ControlPort.sending (x : ControlPort) : Option (List Byte) :=
  match x.replies with
  | .answering reply :: _ => some reply
  | .busyOwed sequence code :: _ => some (busyReply sequence code)
  | _ => none

/-- Whether the port is quiet (R147). -/
def ControlPort.quiet (x : ControlPort) : Bool := decide (x.rx = .waiting) && x.replies.isEmpty

/-- An item that is a waiting request (R151). -/
def Item.isWaiting : Item → Bool
  | .waiting _ => true
  | _ => false

/-- An item that is a BUSY owed (R151). -/
def Item.isBusy : Item → Bool
  | .busyOwed _ _ => true
  | _ => false

/-! ### The switch list's places (R20) -/

/-- The entries a port owns in the list, c_p. -/
def SwitchList.count (l : SwitchList) (p : PortNo) : Nat := (l.entries.filter fun e => e.owner = p).length

/-- The pool P. -/
def SwitchList.pool (l : SwitchList) : Nat := Config.listPlaces - (allPorts.map fun p => tget l.quotas p).sum

/-- The pool use U. -/
def SwitchList.poolUse (l : SwitchList) : Nat := (allPorts.map fun p => l.count p - tget l.quotas p).sum

/-- Whether a port has a live item with a tag: a list entry, or a stack entry of any position (R18). -/
def State.liveTag (s : State) (p : PortNo) (t : Tag) : Bool :=
  (s.list.entries.any fun e => e.owner = p && e.tag = t) ||
  allPositions.any fun fp => (s.pos fp.1 fp.2).upper.any fun e => e.owner = p && e.tag = t

/-! ### Plans (R116) -/

/-- The total of a plan. -/
def Plan.total (p : Plan) : Nat := p.shares.toList.sum + p.carousel

/-- The active plan. -/
def Feed.active (f : Feed) : Plan := if f.activeB then f.planB else f.planA

/-- The shadow plan. -/
def Feed.shadow (f : Feed) : Plan := if f.activeB then f.planA else f.planB

/-! ### Identifiers of a feed (R134) -/

/-- The identifiers of the feed's positions but for one position left out, and of its carousel slots but for one left out. -/
def State.feedIds (s : State) (f : FeedNo) (skipPos : Option PosNo) (skipSlot : Option TableNo) : List Nat :=
  (allPlaces.flatMap fun p => if skipPos = some p then [] else present (s.pos f p).ids) ++
  (allSources.flatMap fun c => if skipSlot = some c then []
    else match tget (s.feed f).carousel c with
      | some t => [t.id]
      | none => [])

end Sys2Proof.Machine
end

