-- ==== Sys2Proof/Machine/Transitions.lean ====
section
/-! DEFINITION. The Transition Unit (04) and the reading points it moves: cursors, switches, the taking of a change of effective
source. -/

namespace Sys2Proof.Machine

/-- The packets that every attached cursor has passed are freed; with no cursor attached all are kept (R91). -/
def State.trim (s : State) (x : SrcNo) : State :=
  if (s.lags x).isEmpty then s
  else
    let r := s.src x
    s.setSrc x { r with ring := r.ring.drop (r.ring.length - s.backlog x) }

/-- The ring of an optional source trimmed. -/
def State.trimOpt (s : State) : Option SrcNo → State
  | some x => s.trim x
  | none => s

/-- The on-air cursor put at a place (or detached), with the slot STEADY, and the rings it left and joined trimmed (R58, R91).
A cursor put at lag 0 stands at the write point. -/
def State.moveOnAir (s : State) (f : FeedNo) (p : PosNo) (c : Option Cursor) (marks : BitVec 4) : State :=
  let x := s.pos f p
  let s := s.setPos f p { x with slot := .steady, onAir := c, marks := marks }
  ((s.trimOpt (c.map Cursor.source)).trimOpt x.onAirSource).trimOpt x.slot.target

/-- The switch to a source: the on-air cursor at its write point, all components in the switch marks, the preview cursor
detached and the slot STEADY (R62, R66). -/
def State.switchTo (s : State) (f : FeedNo) (p : PosNo) (t : SrcNo) : State := s.moveOnAir f p (some ⟨t, 0⟩) 0xF

/-- The on-air cursor detached by a change to dark: the switch marks stay (R59, R69). -/
def State.goDark (s : State) (f : FeedNo) (p : PosNo) : State := s.moveOnAir f p none (s.pos f p).marks

/-- Whether an ENTRY policy degrades: the target or the position has no key component (R61). -/
def State.keyless (s : State) (f : FeedNo) (p : PosNo) (t : SrcNo) : Bool :=
  (tget (s.src t).table.comps 0).isNone || (tget (s.pos f p).ids 0).isNone

/-- The wait of the search that a policy asks for, or none when the change is taken as IMMEDIATE: the policy is IMMEDIATE, the
target is dark (R53), or ENTRY degrades (R61). -/
def State.searchWait (s : State) (f : FeedNo) (p : PosNo) (t : Option SrcNo) : Splice → Option Nat
  | .immediate => none
  | .entry w =>
    match t with
    | some x => if s.keyless f p x then none else some w
    | none => none

/-- The on-air cursor moved at once to a source, or detached. -/
def State.switchNow (s : State) (f : FeedNo) (p : PosNo) : Option SrcNo → State
  | some t => s.switchTo f p t
  | none => s.goDark f p

/-- A slot put to a search of a source with a wait and a pending owner; the ring of the source it sought before, and that of
the new one, are trimmed. -/
def State.seek (s : State) (f : FeedNo) (p : PosNo) (t : SrcNo) (wait : Nat) (owner : Option Owner) : State :=
  let x := s.pos f p
  ((s.setPos f p { x with slot := .seeking t wait owner }).trim t).trimOpt x.slot.target

/-- A change of effective source taken by the Transition Unit (R59, R60, R61). The record of a search that is overtaken is
made first (R68). -/
def State.takeChange (s : State) (f : FeedNo) (p : PosNo) (t : Option SrcNo) (policy : Splice) (owner : Option Owner) :
    State :=
  let x := s.pos f p
  match x.slot with
  | .steady =>
    if t = x.onAirSource then s.ownerDone f p owner .none
    else match s.searchWait f p t policy, t with
      | some w, some y => s.seek f p y w owner
      | _, _ => (s.switchNow f p t).ownerDone f p owner .none
  | .seeking target wait old =>
    let s1 := s.ownerDone f p old { OutcomeFlags.none with superseded := true }
    if t = x.onAirSource then
      ((s1.setPos f p { x with slot := .steady }).trim target).ownerDone f p owner .none
    else match s1.searchWait f p t policy, t with
      | some _, some y => s1.seek f p y wait owner
      | _, _ => (s1.switchNow f p t).ownerDone f p owner .none

/-- The forced switch of a search whose wait is 0 (R66); anything else is left as it is. -/
def State.forceSwitch (s : State) (f : FeedNo) (p : PosNo) : State :=
  match (s.pos f p).slot with
  | .seeking t 0 owner => (s.switchTo f p t).ownerDone f p owner { OutcomeFlags.none with forced := true }
  | _ => s

/-- The switch at an entry point that has just been stored: the on-air cursor stands at that packet (R64). -/
def State.entrySwitch (s : State) (f : FeedNo) (p : PosNo) : State :=
  match (s.pos f p).slot with
  | .seeking t _ owner => (s.moveOnAir f p (some ⟨t, 1⟩) 0xF).ownerDone f p owner .none
  | .steady => s

/-- The wait of a SEEKING slot lowered by one at a frame event (R65). At 0 its forced switch is due. -/
def Slot.countWait : Slot → Slot
  | .seeking t w owner => .seeking t (w - 1) owner
  | .steady => .steady

/-- A position of a feed that stops: a search is abandoned with its record, both cursors detach, the switch marks empty (R70). -/
def State.restPosition (s : State) (f : FeedNo) (p : PosNo) : State :=
  let owner := (s.pos f p).slot.owner
  (s.moveOnAir f p none 0).ownerDone f p owner { OutcomeFlags.none with abandoned := true }

/-- A position of a feed that starts: its on-air cursor attaches to the effective source with all switch marks; a dark
position stays detached with none (R71). -/
def State.attachPosition (s : State) (f : FeedNo) (p : PosNo) : State :=
  match (s.pos f p).effective with
  | some t => s.switchTo f p t
  | none => s.moveOnAir f p none 0

end Sys2Proof.Machine
end

