-- ==== Sys2Proof/Machine/Stacks.lean ====
section
/-! DEFINITION. The Position Stacks (03): insertion, removal, windows, substitution marks, and the handing over of a change of
effective source. -/

namespace Sys2Proof.Machine

/-! ### Handing a change over (R54) -/

/-- Whether a position of a RUNNING feed has another effective source than before (R54). -/
def State.differs (s : State) (f : FeedNo) (p : PosNo) (before : Option SrcNo) : Bool :=
  (s.feed f).running && decide ((s.pos f p).effective ≠ before)

/-- A change of effective source, if there is one on a RUNNING feed, handed to the Transition Unit (R54). -/
def State.handOver (s : State) (f : FeedNo) (p : PosNo) (before : Option SrcNo) (policy : Splice) (owner : Option Owner) :
    State :=
  if s.differs f p before then s.takeChange f p (s.pos f p).effective policy owner else s

/-- The policy of a change of marks or of fallback (R53): IMMEDIATE where the top entry is marked after it, else the return
policy. -/
def Position.markPolicy (p : Position) (policy : Splice) : Splice := if p.topMark then .immediate else policy

/-! ### The stack -/

/-- A stack entry put directly above the highest entry whose class is at most its own; and whether an entry lies above it
(R42). -/
def insertEntry (upper : List StackEntry) (e : StackEntry) : List StackEntry × Bool :=
  let higher := fun x : StackEntry => decide (e.cls.rank < x.cls.rank)
  let top := (upper.reverse.takeWhile higher).reverse
  let low := (upper.reverse.dropWhile higher).reverse
  (low ++ [e] ++ top, !top.isEmpty)

/-- The topmost entry of an owner and class taken out of a stack, and whether an entry lay above it; none where there is no
such entry (R26, R43). -/
def removeTopmost (upper : List StackEntry) (owner : PortNo) (cls : SelClass) : Option (List StackEntry × Bool) :=
  let other := fun x : StackEntry => !(decide (x.owner = owner) && decide (x.cls = cls))
  let top := upper.reverse.takeWhile other
  match upper.reverse.dropWhile other with
  | [] => none
  | _ :: low => some ((top ++ low).reverse, !top.isEmpty)

/-- The entries whose window has ended, lowest first, each with whether it is hidden at its removal (R46). -/
def endings : List StackEntry → List (StackEntry × Bool)
  | [] => []
  | e :: rest => if e.window = some 0 then (e, !rest.isEmpty) :: endings rest else endings rest

/-- The stack entries' windows counted down by one (R45). -/
def Position.countWindows (p : Position) : Position :=
  { p with upper := p.upper.map fun e => { e with window := e.window.map fun w => w - 1 } }

/-- The window ends that are due at a position: the entries removed, the change handed over with the return policy, then a
WINDOW END record for each, lowest first (R46). The records are made at once, DESIGN CHOICE (log 34), where the removal leaves the
effective source as it was (R54) while a search for the ended entry's own TAKE goes on, whose outcome comes later. -/
def State.endWindows (s : State) (f : FeedNo) (p : PosNo) : State :=
  let x := s.pos f p
  let s := s.setPos f p { x with upper := x.upper.filter fun e => e.window ≠ some 0 }
  (endings x.upper).foldl
    (fun s e => s.addOutcome e.1.owner
      ⟨e.1.tag, .windowEnd, { OutcomeFlags.none with hidden := e.2 }, f, p, s.clock.tod⟩)
    (s.handOver f p x.effective x.policy none)

/-! ### Marks (R50, R51) -/

/-- The marks of the entries whose source a test picks, judged anew (R51). -/
def State.judged (s : State) (x : Position) (picks : Option SrcNo → Bool) : Position :=
  { x with
    baseMark := if picks x.base then s.markFor x.base x.fallback else x.baseMark
    upper := x.upper.map fun e =>
      if picks (some e.source) then { e with mark := s.markFor (some e.source) x.fallback } else e }

/-- The picked marks of one position judged anew and the change handed over (R51, R53). -/
def State.judgePosition (s : State) (f : FeedNo) (p : PosNo) (picks : Option SrcNo → Bool) : State :=
  let x := s.pos f p
  let y := s.judged x picks
  (s.setPos f p y).handOver f p x.effective (y.markPolicy x.policy) none

/-- The marks judged after a change of a source's health (R51): the entries whose source it is, and every entry of a position
whose fallback it is. -/
def State.healthChanged (s : State) (i : SrcNo) : State :=
  allPositions.foldl
    (fun s fp => s.judgePosition fp.1 fp.2 fun x =>
      decide ((s.pos fp.1 fp.2).fallback = some i) || decide (x = some i)) s

/-- The marks judged after a change of a source's fallback permit (R51, R86). -/
def State.permitChanged (s : State) (i : SrcNo) : State :=
  allPositions.foldl (fun s fp => s.judgePosition fp.1 fp.2 fun x => decide (x = some i)) s

/-! ### Outcomes of a firing (R29) -/

/-- The record of an entry that fails. -/
def State.entryFailed (s : State) (e : Entry) (r : FailReason) : State :=
  s.addOutcome e.owner ⟨e.tag, .failed r, { OutcomeFlags.none with late := e.late }, e.feed, e.position, s.clock.tod⟩

/-- The DONE record of an entry that waits on no transition. -/
def State.entryDone (s : State) (e : Entry) (hidden : Bool) : State :=
  s.addOutcome e.owner
    ⟨e.tag, .done, { OutcomeFlags.none with late := e.late, hidden := hidden }, e.feed, e.position, s.clock.tod⟩

/-- The end of a firing that has changed a stack: the change handed over with the entry's splice and its outcome waiting on
the transition, or DONE at once where the effective source is unchanged or the feed STOPPED (R25, R26, R27, R29). -/
def State.entryStacked (s : State) (e : Entry) (before : Option SrcNo) (hidden : Bool) : State :=
  if s.differs e.feed e.position before then
    s.takeChange e.feed e.position (s.pos e.feed e.position).effective e.splice (some ⟨e.owner, e.tag, e.late⟩)
  else s.entryDone e hidden

/-- A TAKE fires (R25, R42). -/
def State.fireTake (s : State) (e : Entry) : State :=
  let x := s.pos e.feed e.position
  if Config.stackUpper ≤ x.upper.length then s.entryFailed e .stackFull
  else
    let new : StackEntry :=
      { cls := e.cls, source := e.source, owner := e.owner, tag := e.tag,
        window := if e.window = 0 then none else some e.window, mark := s.markFor (some e.source) x.fallback }
    let r := insertEntry x.upper new
    (s.setPos e.feed e.position { x with upper := r.1 }).entryStacked e x.effective r.2

/-- A RETURN fires (R26, R43). -/
def State.fireReturn (s : State) (e : Entry) : State :=
  let x := s.pos e.feed e.position
  match removeTopmost x.upper e.owner e.cls with
  | some r => (s.setPos e.feed e.position { x with upper := r.1 }).entryStacked e x.effective r.2
  | none => s.entryFailed e .nothingToReturn

/-- A BASE fires (R27, R44). -/
def State.fireBase (s : State) (e : Entry) : State :=
  let x := s.pos e.feed e.position
  (s.setPos e.feed e.position
    { x with base := some e.source, baseMark := s.markFor (some e.source) x.fallback }).entryStacked e x.effective
      (!x.upper.isEmpty)

end Sys2Proof.Machine
end

