-- ==== Sys2Proof/Machine/Feeds.lean ====
section
/-! DEFINITION. The Feed Planner (08) and the Emission Unit's part of its work: swaps, starts, stops, share reloads, carousel
countdowns. -/

namespace Sys2Proof.Machine

/-- The remaining shares set from the active plan (R130). -/
def Feed.reload (x : Feed) : Feed := { x with shares := x.active.shares, carouselShare := x.active.carousel }

/-- A plan swap at the present frame event (R119). -/
def State.swapNow (s : State) (f : FeedNo) : State :=
  let x := s.feed f
  let y := { x with activeB := !x.activeB, swapPending := false, lastSwap := some (s.clock.frameStart, s.clock.tod) }
  (s.setFeed f (if x.running then y.reload else y)).raiseForFeed f .planSwapped

/-- Whether a feed has already swapped at the present frame event (R119). -/
def State.hasSwapped (s : State) (f : FeedNo) : Bool :=
  decide ((s.feed f).lastSwap.map Prod.fst = some s.clock.frameStart)

/-- A pending swap taken, unless the feed has already swapped at this frame event (R119). -/
def State.takeSwap (s : State) (f : FeedNo) : State :=
  if (s.feed f).swapPending && !s.hasSwapped f then s.swapNow f else s

/-- A PLAN entry fires (R28, R120). -/
def State.firePlan (s : State) (e : Entry) : State :=
  let x := s.feed e.feed
  if s.hasSwapped e.feed || x.swapPending then s.entryDone e false
  else if x.shadow.total ≤ x.capacity then (s.swapNow e.feed).entryDone e false
  else s.entryFailed e .overbooked

/-- A feed as its start leaves it at a frame event (R123, R144). -/
def Feed.started (x : Feed) (frameStart : Tick) : Feed :=
  Feed.reload { x with
    running := true
    startPending := false
    departure := frameStart
    remainder := 0
    sharePtr := 7
    sparePtr := 7
    counters := []
    counts := .zero
    carousel := tmap (Option.map fun t => { t with countdown := t.interval, due := true }) x.carousel }

/-- A pending start taken (R123): the feed runs, and the on-air cursors attach (R71). -/
def State.takeStart (s : State) (f : FeedNo) : State :=
  if (s.feed f).startPending then
    allPlaces.foldl (fun s p => s.attachPosition f p) (s.setFeed f ((s.feed f).started s.clock.frameStart))
  else s

/-- A RUNNING feed stopped at once (R124, R70, R145). -/
def State.stopNow (s : State) (f : FeedNo) : State :=
  allPlaces.foldl (fun s p => s.restPosition f p) (s.setFeed f { s.feed f with running := false })

/-- The shares of a RUNNING feed reloaded (R130). -/
def Feed.reloadRunning (x : Feed) : Feed := if x.running then x.reload else x

/-- The carousel countdowns of a RUNNING feed lowered by one (R131). -/
def Feed.countCarousel (x : Feed) : Feed :=
  if x.running then
    { x with carousel := tmap (Option.map fun t => { t with countdown := t.countdown - 1 }) x.carousel }
  else x

/-- Whether the due-making of a carousel slot is due (R131). -/
def Feed.dueMakingDue (x : Feed) (c : TableNo) : Bool :=
  x.running && (match tget x.carousel c with
    | some t => decide (t.countdown = 0)
    | none => false)

/-- A carousel slot whose countdown has reached 0 made due and its countdown reloaded; carousel late counts one if it was still
due (R131). -/
def Feed.makeDue (x : Feed) (c : TableNo) : Feed :=
  match tget x.carousel c with
  | some t =>
    let y := { x with carousel := tset x.carousel c (some { t with countdown := t.interval, due := true }) }
    if t.due then { y with counts := { y.counts with late := sat16 (y.counts.late + 1) } } else y
  | none => x

/-- The due-making of a carousel slot, where it is due. -/
def State.makeDue (s : State) (f : FeedNo) (c : TableNo) : State :=
  if (s.feed f).dueMakingDue c then s.setFeed f ((s.feed f).makeDue c) else s

/-- The slot clock after a slot event (R125). -/
def Feed.nextSlot (x : Feed) : Feed :=
  let sum := x.remainder + Config.slotConstant
  { x with departure := x.departure + BitVec.ofNat 40 (sum / x.rate), remainder := sum % x.rate }

end Sys2Proof.Machine
end

