-- ==== Sys2Proof/Machine/Health.lean ====
section
/-! DEFINITION. The Health Monitor (07): the examination of one source at each frame event. -/

namespace Sys2Proof.Machine

/-- The interval counters reset; the sync-bad flag is set again at once while the port is HUNTING (R82, R101). -/
def Source.resetInterval (x : Source) : Source :=
  { x with n := 0, e := 0, k := 0, syncBad := decide (x.sync = .hunting), clockSeen := false }

/-- Whether the rate test passes (R103). -/
def Source.ratePasses (x : Source) : Bool :=
  match x.table.rateMode with
  | .band => decide (x.table.low * x.k ≤ x.n) && decide (x.n ≤ x.table.high * x.k)
  | .floor => decide (x.table.low * x.k ≤ x.n)
  | .ceiling => decide (x.n ≤ x.table.high * x.k)

/-- The enabled checks that fail (R102). -/
def Source.causes (x : Source) : Checks where
  sync := x.table.checks.sync && x.syncBad
  continuity := x.table.checks.continuity && decide (x.table.tolerance < x.e)
  rate := x.table.checks.rate && !x.ratePasses
  clock := x.table.checks.clock && x.table.clockComp.isSome && !x.clockSeen

/-- Whether a set of causes makes a verdict bad (R102). -/
def Checks.any (c : Checks) : Bool := c.sync || c.continuity || c.rate || c.clock

/-- The health state after a verdict, from the counts after it (R105). -/
def Source.healthAfter (x : Source) (bad : Bool) : Health :=
  match x.health, bad with
  | .healthy, false => .healthy
  | .suspect, false => .healthy
  | .healthy, true => if x.table.faultThreshold ≤ x.badCount then .faulted else .suspect
  | .suspect, true => if x.table.faultThreshold ≤ x.badCount then .faulted else .suspect
  | .faulted, true => .faulted
  | .faulted, false => if x.table.recoveryThreshold ≤ x.goodCount then .healthy else .faulted
  | .disabled, _ => .disabled

/-- The source after an examination at a time of day (R102 steps 1 to 4, R106, R110). -/
def Source.examined (x : Source) (tod : TimeOfDay) : Source :=
  let causes := x.causes
  let bad := causes.any
  let y := { x with
    badCount := if bad then sat7 (x.badCount + 1) else 0
    goodCount := if bad then 0 else sat7 (x.goodCount + 1) }
  let health := y.healthAfter bad
  let latched := if health = .faulted ∧ x.health ≠ .faulted then
      { causes := causes, time := some tod, count := sat8 (x.latched.count + 1), flag := true }
    else x.latched
  { y with health := health, latched := latched, verdict := some ⟨tod, bad, causes⟩ }.resetInterval

/-- The scan pointer advanced: from last to first (R99). -/
def Scan.next (c : Scan) : Scan := { c with pointer := if c.pointer = c.last then c.first else c.pointer + 1 }

/-- A change of health between two states: the notice if permitted (R106, R107), then the marks (R51). -/
def State.healthMoved (s : State) (i : SrcNo) (before : Health) : State :=
  let x := s.src i
  if x.health = before then s
  else
    let s := if x.table.noticePermit then
        if x.health = .faulted then s.raiseAll .sourceFault
        else if before = .faulted then s.raiseAll .sourceRecovered else s
      else s
    s.healthChanged i

/-- The examination of the source at the scan pointer: judged if enabled (R102), else a visit (R104); then the pointer
advances (R99). -/
def State.examine (s : State) : State :=
  let i := s.scan.pointer
  let x := s.src i
  let s := if x.table.enabled then (s.setSrc i (x.examined s.clock.tod)).healthMoved i x.health
    else s.setSrc i x.resetInterval
  { s with scan := s.scan.next }

end Sys2Proof.Machine
end

