-- ==== Sys2Proof/Machine/FrameEvent.lean ====
section
/-! DEFINITION. The frame event (R10): the clock's part, the counts every block takes, the firing pass or the re-evaluation of
the switch list, and the rest of the blocks' work in the order an operand gives. -/

namespace Sys2Proof.Machine

/-! ### Cues (R23, R74, R75) -/

/-- A line in CUE mode after a cue; a line in TALLY mode does not take it (R74, R75). -/
def CueLine.takeCue (l : CueLine) (kind : CueKind) (owner : PortNo) (tod : TimeOfDay) : CueLine :=
  match l.mode with
  | .tally => l
  | .cue =>
    let l := { l with last := some ⟨owner, kind, tod⟩ }
    match kind with
    | .pulse => { l with pulse := true }
    | .toggle => { l with level := !l.level }

/-- The cue of an entry applied at this frame event if it is due: the entry WAITING, and it fires or its distance is at most
its lead (R23). -/
def State.applyCue (s : State) (e : Entry) (fires : Bool) : State × Entry :=
  match e.cue with
  | some c =>
    if !e.cued && (fires || decide (distance e.due s.now s.day ≤ c.lead)) then
      (s.setLine c.line ((s.line c.line).takeCue c.kind e.owner s.clock.tod), { e with cued := true })
    else (s, e)
  | none => (s, e)

/-! ### The pass and the re-evaluation (R24, R31) -/

/-- What becomes of an entry at a frame event. -/
inductive Fate where
  | fires (late : Bool)
  | discarded
  | stays
  deriving DecidableEq, Repr

/-- The fate of an entry: at an ordinary frame event (R24), and at one that takes a time load (R31). -/
def Entry.fate (e : Entry) (loaded : Bool) (now day : Nat) : Fate :=
  if e.late then .fires true
  else if loaded then
    let d := distance e.due now day
    if d = 0 then .fires false
    else match timing d day with
      | .late => .fires true
      | .past => .discarded
      | .scheduled => .stays
  else if e.due = now then .fires false else .stays

/-- An entry's action carried out (R25 to R28). -/
def State.fire (s : State) (e : Entry) : State :=
  match e.action with
  | .take => s.fireTake e
  | .giveBack => s.fireReturn e
  | .base => s.fireBase e
  | .plan => s.firePlan e
  | .cue => s.entryDone e false

/-- The record of an entry that a time load makes past (R31). -/
def State.discard (s : State) (e : Entry) : State :=
  s.addOutcome e.owner ⟨e.tag, .discarded, .none, e.feed, e.position, s.clock.tod⟩

/-- The entries taken in list order, each carried through before the next; the entries that stay are returned (R24, R31). -/
def passEntries (loaded : Bool) : List Entry → State → State × List Entry
  | [], s => (s, [])
  | e :: rest, s =>
    match e.fate loaded s.now s.day with
    | .fires late =>
      let c := s.applyCue { e with late := late } true
      passEntries loaded rest (c.1.fire c.2)
    | .discarded => passEntries loaded rest (s.discard e)
    | .stays =>
      let c := s.applyCue e false
      let r := passEntries loaded rest c.1
      (r.1, c.2 :: r.2)

/-- The Switch List's part of a frame event. -/
def State.pass (s : State) (loaded : Bool) : State :=
  let r := passEntries loaded s.list.entries s
  { r.1 with list := { r.1.list with entries := r.2 } }

/-! ### The counts every frame event takes, whichever order the blocks take it in (log 5) -/

/-- The pulse flag cleared (R74). -/
def CueLine.endPulse (l : CueLine) : CueLine := { l with pulse := false }

/-- One frame more in a source's interval (R101). -/
def Source.countFrame (x : Source) : Source := { x with k := sat8 (x.k + 1) }

/-- A position's windows and wait counted (R45, R65). -/
def Position.countFrame (x : Position) : Position := { x.countWindows with slot := x.slot.countWait }

/-- Pulse ends, interval counts, window, wait and carousel countdowns. -/
def State.counts (s : State) : State :=
  { s with
    lines := tmap CueLine.endPulse s.lines
    sources := tmap Source.countFrame s.sources
    positions := tmap (tmap Position.countFrame) s.positions
    feeds := tmap Feed.countCarousel s.feeds }

/-! ### The whole frame event -/

/-- The Station Clock's part (R10, R11). -/
def State.clockFrame (s : State) : State :=
  match s.clock.load with
  | some t =>
    { s with clock := { s.clock with frameStart := s.clock.tick, tod := t, load := none } }.raiseAll .timeLoaded
  | none =>
    { s with clock := { s.clock with frameStart := s.clock.tick, tod := s.clock.tod.advance s.clock.rate } }

/-- One piece of the work of a frame event. -/
def State.frameTask (s : State) : FrameTask → State
  | .windowEnd f p => s.endWindows f p
  | .forcedSwitch f p => s.forceSwitch f p
  | .dueMaking f c => s.makeDue f c
  | .swap f => s.takeSwap f
  | .start f => s.takeStart f

/-- Pieces of the work of a frame event, one after another. -/
def State.frameTasks (s : State) (l : List FrameTask) : State := l.foldl State.frameTask s

/-- A frame event, its blocks' work in a given order (R10, R24, R99, R119, R123, R130). Window ends, forced switches and
due-makings that the order does not name are left due: they are the commands WINDOW_END, FORCED_SWITCH and
CAROUSEL_DUE_MAKING (log 3, 6). Swaps and starts that it does not name come last, and then the shares are reloaded. -/
def State.frameEvent (s : State) (order : FrameOrder) : State :=
  let loaded := s.clock.load.isSome
  let s := s.clockFrame.counts.frameTasks order.first
  let s := if order.examineFirst then s.examine else s.pass loaded
  let s := s.frameTasks order.between
  let s := if order.examineFirst then s.pass loaded else s.examine
  let s := s.frameTasks order.last
  let s := s.frameTasks (allFeeds.map .swap ++ allFeeds.map .start)
  { s with feeds := tmap Feed.reloadRunning s.feeds }

/-- The order taken where no command gives one (log 1). -/
def FrameOrder.plain : FrameOrder := ⟨[], false, [], []⟩

end Sys2Proof.Machine
end

