-- ==== Sys2Proof/Machine/RequestsPosition.lean ====
section
/-! DEFINITION. What the requests of Service Positions and of Cue Lines do once the port's own checks have passed (R153). -/

namespace Sys2Proof.Machine

/-- The feed that a byte names, if the port's feed map holds it (R154). -/
def ControlPort.feedOf (x : ControlPort) (b : Byte) : Option FeedNo :=
  if x.holdsFeed b.toNat then toFin 6 b.toNat else none

/-! ### SET POSITION (R39, R40) -/

/-- The values that SET POSITION gives the four groups of a position's settings; a group that is not flagged keeps its value.
None where a flagged value is out of range or a flag names no group (R39 check 2, R172). -/
def positionValues (x : Position) (b : List Byte) :
    Option (Vector (Option Nat) 4 × Option SrcNo × Option SrcNo × Splice) :=
  let flags := byteAt b 2
  if 16 ≤ flags.toNat then none
  else match (if flags.getLsbD 0 then idsAt 1 b 3 else some x.ids),
      (if flags.getLsbD 1 then sourceOrNone (byteAt b 11) else some x.base),
      (if flags.getLsbD 2 then sourceOrNone (byteAt b 12) else some x.fallback),
      (if flags.getLsbD 3 then spliceOf (byteAt b 13) else some x.policy) with
    | some ids, some base, some fallback, some policy => some (ids, base, fallback, policy)
    | _, _, _, _ => none

/-- Whether identifiers are distinct and none is held elsewhere (R38). -/
def distinctFrom (ids : Vector (Option Nat) 4) (others : List Nat) : Bool :=
  decide (present ids).Nodup && (present ids).all fun x => !others.contains x

/-- The return policy of the change that a SET POSITION itself brings: the present one, but a free choice where the same request
changes both the fallback and the policy (log 17). -/
def requestPolicy (flags : Byte) (old new : Splice) : Splice :=
  if flags.getLsbD 2 && flags.getLsbD 3 then (if Config.sameRequestPolicyIsNew then new else old) else old

/-- A position's settings replaced (R40): the cursor passes over what is no longer carried, the marks are judged anew where the
base or the fallback is flagged. -/
def State.withSettings (s : State) (f : FeedNo) (p : PosNo) (flags : Byte)
    (v : Vector (Option Nat) 4 × Option SrcNo × Option SrcNo × Splice) : Position :=
  let x := s.pos f p
  let y := { x with ids := v.1, base := v.2.1, fallback := v.2.2.1, policy := v.2.2.2 }
  let z := if flags.getLsbD 0 then
      { y with onAir := y.onAir.map fun c => { c with lag := passOver y (s.src c.source).ring c.lag } }
    else y
  if flags.getLsbD 2 then s.judged z fun _ => true
  else if flags.getLsbD 1 then { z with baseMark := s.markFor z.base z.fallback }
  else z

/-- SET POSITION (R39, R40). -/
def reqSetPosition (p : PortNo) (b : List Byte) (s : State) : Answer :=
  if !(s.port p).authority.configure then refuse s .notPermitted
  else match (s.port p).feedOf (byteAt b 0) with
    | none => refuse s .notPermitted
    | some f =>
      match toFin 8 (byteAt b 1).toNat with
      | none => refuse s .range
      | some k =>
        let x := s.pos f k
        let flags := byteAt b 2
        match positionValues x b with
        | none => refuse s .range
        | some v =>
          if flags.getLsbD 1 && (s.feed f).running then refuse s .feedState
          else if flags.getLsbD 0 && !distinctFrom v.1 (s.feedIds f (some k) none) then refuse s .duplicateId
          else
            let y := s.withSettings f k flags v
            accept (((s.setPos f k y).trimOpt x.onAirSource).handOver f k x.effective
              (y.markPolicy (requestPolicy flags x.policy v.2.2.2)) none) []

/-! ### RELEASE (R48) -/

/-- Whether a stack entry is a port's with a tag (R48). -/
def StackEntry.named (e : StackEntry) (p : PortNo) (t : Tag) : Bool := decide (e.owner = p) && decide (e.tag = t)

/-- The position whose stack holds a port's entry with a tag (R48). -/
def State.holderOf (s : State) (p : PortNo) (t : Tag) : Option (FeedNo × PosNo) :=
  allPositions.find? fun fp => (s.pos fp.1 fp.2).upper.any fun e => e.named p t

/-- RELEASE (R48). -/
def reqRelease (p : PortNo) (b : List Byte) (s : State) : Answer :=
  let t : Tag := BitVec.ofNat 16 (natAt b 0 2)
  match s.holderOf p t with
  | none => refuse s .notFound
  | some (f, k) =>
    let x := s.pos f k
    let y := { x with upper := x.upper.eraseP fun e => e.named p t }
    accept ((s.setPos f k y).handOver f k x.effective x.policy none)
      [nat8 f.val, nat8 k.val, boolByte (decide (y.effective ≠ x.effective))]

/-! ### EXAMINE POSITION (R55) -/

/-- The four stack records of a position, those above the count all zero (R172). -/
def stackRecords (x : Position) : List Byte :=
  let r := baseRecord x ++ x.upper.flatMap stackRecord
  r ++ List.replicate (36 - r.length) 0

/-- EXAMINE POSITION (R55, R172). -/
def reqExaminePosition (p : PortNo) (b : List Byte) (s : State) : Answer :=
  match (s.port p).feedOf (byteAt b 0) with
  | none => refuse s .notPermitted
  | some f =>
    match toFin 8 (byteAt b 1).toNat with
    | none => refuse s .range
    | some k =>
      let x := s.pos f k
      accept s ([boolByte (s.feed f).running] ++ idsBytes x.ids ++
        [sourceByte x.base, sourceByte x.fallback, spliceByte x.policy, nat8 (x.upper.length + 1)] ++ stackRecords x ++
        [sourceByte x.effective, nat8 x.classification, flagByte x.topMark x.slot.isSeeking false false false,
         boolByte x.slot.isSeeking, sourceByte x.slot.target, nat8 x.slot.wait] ++
        (match x.slot.owner with
         | some o => [nat8 o.port.val] ++ natBytes 2 o.tag.toNat
         | none => [0xFF, 0, 0]) ++
        [sourceByte x.onAirSource] ++ natBytes 2 x.overruns)

/-! ### SET CUE LINE (R77, R78) -/

/-- The values that SET CUE LINE gives the three groups: mode, tally target, level. None where a flagged value is out of range or
a flag names no group (R77 check 2, R172). -/
def lineValues (b : List Byte) : Option (Option LineMode × Option (FeedNo × PosNo × SrcNo) × Option Bool) :=
  let flags := byteAt b 1
  if 8 ≤ flags.toNat then none
  else match (if flags.getLsbD 0 then (lineModeOf (byteAt b 2)).map some else some none),
      (if flags.getLsbD 1 then (boolOf (byteAt b 3)).map some else some none),
      (if flags.getLsbD 2 then
        match toFin 6 (byteAt b 4).toNat, toFin 8 (byteAt b 5).toNat, toFin 16 (byteAt b 6).toNat with
        | some f, some k, some x => some (some (f, k, x))
        | _, _, _ => none
      else some none) with
    | some mode, some level, some target => some (mode, target, level)
    | _, _, _ => none

/-- A flagged mode: the level low and the pulse flag clear, whether it changes the mode or not (R78). -/
def CueLine.withMode (l : CueLine) : Option LineMode → CueLine
  | some m => { l with mode := m, level := false, pulse := false }
  | none => l

/-- A flagged tally target (R78). -/
def CueLine.withTarget (l : CueLine) : Option (FeedNo × PosNo × SrcNo) → CueLine
  | some t => { l with feed := t.1, position := t.2.1, source := t.2.2 }
  | none => l

/-- A flagged level (R78). -/
def CueLine.withLevel (l : CueLine) : Option Bool → CueLine
  | some v => { l with level := v }
  | none => l

/-- The fields of the reply to SET CUE LINE (R78, R172). -/
def lineFields (l : CueLine) (output : Bool) : List Byte :=
  [lineModeByte l.mode, boolByte l.level, boolByte l.pulse, nat8 l.feed.val, nat8 l.position.val, nat8 l.source.val,
   boolByte output] ++
  (match l.last with
   | some c => [nat8 c.owner.val, cueKindByte c.kind] ++ todBytes (some c.tod)
   | none => [0xFF, 0, 0xFF, 0xFF, 0xFF, 0xFF])

/-- SET CUE LINE (R77, R78): the flagged groups applied in the order mode, tally target, level. -/
def reqSetCueLine (p : PortNo) (b : List Byte) (s : State) : Answer :=
  if !(s.port p).authority.cueMap.getLsbD (byteAt b 0).toNat then refuse s .notPermitted
  else match toFin 8 (byteAt b 0).toNat with
    | none => refuse s .notPermitted
    | some n =>
      match lineValues b with
      | none => refuse s .range
      | some v =>
        let l := (((s.line n).withMode v.1).withTarget v.2.1).withLevel v.2.2
        let s := s.setLine n l
        accept s (lineFields l (s.cueOutput n))

end Sys2Proof.Machine
end

