-- ==== Sys2Proof/Machine/RequestsFeed.lean ====
section
/-! DEFINITION. What the requests of Feeds and Slot Plans and of Slot Arbitration and Emission do once the port's own checks have
passed (R153). -/

namespace Sys2Proof.Machine

/-- The feed that a byte names, if the port may configure it (R154). -/
def ControlPort.configFeed (x : ControlPort) (b : Byte) : Option FeedNo :=
  if x.authority.configure then x.feedOf b else none

/-! ### Plans (R117, R118) -/

/-- A plan with the flagged shares of another written into it (R117). -/
def Plan.edit (base given : Plan) (flags : BitVec 16) : Plan where
  shares := allPlaces.foldl (fun v k => if flags.getLsbD k.val then tset v k (tget given.shares k) else v) base.shares
  carousel := if flags.getLsbD 8 then given.carousel else base.carousel

/-- The shadow plan replaced. -/
def Feed.withShadow (x : Feed) (p : Plan) : Feed := if x.activeB then { x with planA := p } else { x with planB := p }

/-- Whether the flags name only shares and every flagged position share is in range (R117 check 2, R172). A carousel share is one
byte, so always is. -/
def planFlagsOk (given : Plan) (flags : BitVec 16) : Bool :=
  decide (flags.toNat < 512) && allPlaces.all fun k => !flags.getLsbD k.val || decide (tget given.shares k ≤ 4095)

/-- EDIT PLAN (R117). -/
def reqEditPlan (p : PortNo) (b : List Byte) (s : State) : Answer :=
  match (s.port p).feedOf (byteAt b 0) with
  | none => refuse s .notPermitted
  | some f =>
    let x := s.feed f
    let flags : BitVec 16 := BitVec.ofNat 16 (natAt b 2 2)
    match boolOf (byteAt b 1) with
    | none => refuse s .range
    | some copy =>
      if !planFlagsOk (planAt b 4) flags then refuse s .range
      else if x.swapPending then refuse s .planPending
      else
        let plan := (if copy then x.active else x.shadow).edit (planAt b 4) flags
        accept (s.setFeed f (x.withShadow plan))
          (natBytes 2 plan.total ++ natBytes 2 x.capacity ++ [yesNoByte (decide (plan.total ≤ x.capacity))])

/-- SWAP PLAN (R118). -/
def reqSwapPlan (p : PortNo) (b : List Byte) (s : State) : Answer :=
  match (s.port p).feedOf (byteAt b 0) with
  | none => refuse s .notPermitted
  | some f =>
    let x := s.feed f
    if x.capacity < x.shadow.total then refuse s .overbooked
    else accept (s.setFeed f { x with swapPending := true }) []

/-! ### Rate, start and stop (R121, R122, R124) -/

/-- SET FEED RATE (R121). -/
def reqSetFeedRate (p : PortNo) (b : List Byte) (s : State) : Answer :=
  match (s.port p).configFeed (byteAt b 0) with
  | none => refuse s .notPermitted
  | some f =>
    let x := s.feed f
    let rate := natAt b 1 4
    let k := capacityOf rate s.clock.rate
    if rate < Config.lowestRate ∨ Config.highestRate < rate then refuse s .range
    else if x.running || x.startPending then refuse s .feedState
    else if k < x.active.total ∨ (x.swapPending ∧ k < x.shadow.total) then refuse s .overbooked
    else accept (s.setFeed f { x with rate := rate, capacity := k }) (natBytes 2 k)

/-- START FEED (R122). -/
def reqStartFeed (p : PortNo) (b : List Byte) (s : State) : Answer :=
  match (s.port p).configFeed (byteAt b 0) with
  | none => refuse s .notPermitted
  | some f =>
    let x := s.feed f
    if x.running || x.startPending then refuse s .feedState
    else accept (s.setFeed f { x with startPending := true }) []

/-- STOP FEED (R124). -/
def reqStopFeed (p : PortNo) (b : List Byte) (s : State) : Answer :=
  match (s.port p).configFeed (byteAt b 0) with
  | none => refuse s .notPermitted
  | some f =>
    let x := s.feed f
    if x.running then accept (s.stopNow f) []
    else if x.startPending then accept (s.setFeed f { x with startPending := false }) []
    else refuse s .feedState

/-! ### Reading a feed (R126) -/

/-- READ PLAN (R126, R172). -/
def reqReadPlan (p : PortNo) (b : List Byte) (s : State) : Answer :=
  match (s.port p).feedOf (byteAt b 0) with
  | none => refuse s .notPermitted
  | some f =>
    let x := s.feed f
    accept s (planBytes x.planA ++ natBytes 2 x.planA.total ++ planBytes x.planB ++ natBytes 2 x.planB.total ++
      [boolByte x.activeB, boolByte x.swapPending] ++ natBytes 2 x.capacity)

/-- The slot clock and the tick count of the same moment as READ FEED shows them (R126); the tick count of a STOPPED feed is a free choice (log 16). -/
def slotClockFields (x : Feed) (tick : Tick) : List Byte :=
  if x.running then tickBytes x.departure ++ natBytes 4 x.remainder ++ tickBytes tick
  else tickBytes 0 ++ natBytes 4 0 ++ tickBytes (if Config.stoppedTickReadsZero then 0 else tick)

/-- The emission counts as READ FEED shows them (R143). -/
def countFields (c : EmissionCounts) : List Byte :=
  natBytes 4 c.share.toNat ++ natBytes 4 c.spare.toNat ++ natBytes 4 c.carousel.toNat ++ natBytes 4 c.null.toNat ++
  natBytes 2 c.stale ++ natBytes 2 c.late

/-- READ FEED (R126, R172). -/
def reqReadFeed (p : PortNo) (b : List Byte) (s : State) : Answer :=
  match (s.port p).feedOf (byteAt b 0) with
  | none => refuse s .notPermitted
  | some f =>
    let x := s.feed f
    accept s ([boolByte x.running, boolByte x.startPending] ++ natBytes 4 x.rate ++ natBytes 2 x.capacity ++
      [boolByte x.activeB] ++ natBytes 2 x.active.total ++ [boolByte x.swapPending] ++
      todBytes (x.lastSwap.map Prod.snd) ++ slotClockFields x s.clock.tick ++ countFields x.counts)

/-! ### The carousel (R132, R133) -/

/-- LOAD TABLE (R132). -/
def reqLoadTable (p : PortNo) (b : List Byte) (s : State) : Answer :=
  match (s.port p).configFeed (byteAt b 0) with
  | none => refuse s .notPermitted
  | some f =>
    let x := s.feed f
    let id := natAt b 2 2
    let interval := (byteAt b 4).toNat
    match toFin 16 (byteAt b 1).toNat with
    | none => refuse s .range
    | some c =>
      if id < 1 ∨ 8190 < id ∨ interval < 1 ∨ 250 < interval then refuse s .range
      else if (s.feedIds f none (some c)).contains id then refuse s .duplicateId
      else
        accept (s.setFeed f { x with carousel := tset x.carousel c (some ⟨id, interval, b.drop 5, interval, true⟩) }) []

/-- DROP TABLE (R133). -/
def reqDropTable (p : PortNo) (b : List Byte) (s : State) : Answer :=
  match (s.port p).configFeed (byteAt b 0) with
  | none => refuse s .notPermitted
  | some f =>
    match toFin 16 (byteAt b 1).toNat with
    | none => refuse s .range
    | some c => accept (s.setFeed f { s.feed f with carousel := tset (s.feed f).carousel c none }) []

end Sys2Proof.Machine
end

