-- ==== Sys2Proof/Machine/RequestsList.lean ====
section
/-! DEFINITION. What the requests of Station Time and of The Switch List do once the port's own checks have passed (R153). -/

namespace Sys2Proof.Machine

/-- SET TIME (R12). -/
def reqSetTime (_p : PortNo) (b : List Byte) (s : State) : Answer :=
  let t := todAt b 0
  if t.valid s.clock.rate then accept { s with clock := { s.clock with load := some t } } [] else refuse s .range

/-- READ TIME (R13). -/
def reqReadTime (_p : PortNo) (_b : List Byte) (s : State) : Answer :=
  accept s (todBytes (some s.clock.tod) ++ tickBytes s.clock.frameStart ++
    [refByte s.clock.ref, nat8 s.clock.rate.fps] ++ tickBytes s.clock.shown ++ [yesNoByte s.clock.load.isSome])

/-! ### POST ENTRY (R21, R22) -/

/-- The authority check of POST ENTRY (R21 check 1, R154). -/
def postPermitted (x : ControlPort) (b : List Byte) : Bool :=
  x.holdsFeed (byteAt b 6).toNat && decide ((byteAt b 2).toNat ≤ x.authority.classMax.rank) &&
  (byteAt b 14 == 0xFF || x.authority.cueMap.getLsbD (byteAt b 14).toNat)

/-- The cue of a posted entry: absent, or within its ranges (R21 check 2). -/
def postedCue (b : List Byte) : Option (Option EntryCue) :=
  if byteAt b 14 = 0xFF then some none
  else match toFin 8 (byteAt b 14).toNat, cueKindOf (byteAt b 15) with
    | some l, some k => if (byteAt b 16).toNat ≤ 250 then some (some ⟨l, k, (byteAt b 16).toNat⟩) else none
    | _, _ => none

/-- Whether an action names a position and carries a splice (R17). -/
def Action.stacked : Action → Bool
  | .take => true
  | .giveBack => true
  | .base => true
  | .plan => false
  | .cue => false

/-- Whether an action names a source (R17). -/
def Action.sourced : Action → Bool
  | .take => true
  | .giveBack => false
  | .base => true
  | .plan => false
  | .cue => false

/-- The entry that a body posts, none where a field that applies is out of its range; a field that does not apply is not checked
and takes its value of R17 (R21 check 2). The posting sequence and the late mark are set at the placing. -/
def postedEntry (p : PortNo) (b : List Byte) (day : Nat) : Option Entry :=
  match actionOf (byteAt b 8), classOf (byteAt b 2), toFin 6 (byteAt b 6).toNat, postedCue b with
  | some a, some cls, some f, some cue =>
    match (if a.stacked then toFin 8 (byteAt b 7).toNat else some 0),
        (if a.sourced then toFin 16 (byteAt b 9).toNat else some 0),
        (if a.stacked then spliceOf (byteAt b 13) else some .immediate) with
    | some pos, some src, some splice =>
      let window := if a = .take then natAt b 10 3 else 0
      if window ≤ 1048575 ∧ natAt b 3 3 < day then
        some { owner := p, tag := BitVec.ofNat 16 (natAt b 0 2), cls := cls, due := natAt b 3 3, feed := f, position := pos,
               action := a, source := src, window := window, splice := splice, cue := cue, seq := 0, cued := false,
               late := false }
      else none
    | _, _, _ => none
  | _, _, _, _ => none

/-- The class rules (R21 check 4). -/
def Entry.classRules (e : Entry) : Bool :=
  !(decide (e.action = .base) && decide (e.cls ≠ .network)) && !(decide (e.action = .cue) && e.cue.isNone)

/-- The line of a posted cue is in CUE mode (R21 check 5). -/
def State.cueLineReady (s : State) (e : Entry) : Bool :=
  match e.cue with
  | some c => decide ((s.line c.line).mode = .cue)
  | none => true

/-- Whether the list has a place for a post of a port (R20). -/
def SwitchList.hasPlace (l : SwitchList) (p : PortNo) : Bool :=
  decide (l.count p < tget l.quotas p) || decide (l.poolUse < l.pool)

/-- The list split where an entry goes in: a late one after every late one, a scheduled one after every late one and every one
whose distance is no greater (R16, R22). -/
def placeOf (l : List Entry) (e : Entry) (now day : Nat) : List Entry × List Entry :=
  let before := fun x : Entry =>
    x.late || (!e.late && decide (distance x.due now day ≤ distance e.due now day))
  (l.takeWhile before, l.dropWhile before)

/-- POST ENTRY (R21, R22). -/
def reqPostEntry (p : PortNo) (b : List Byte) (s : State) : Answer :=
  if !postPermitted (s.port p) b then refuse s .notPermitted
  else match postedEntry p b s.day with
    | none => refuse s .range
    | some e =>
      if s.liveTag p e.tag then refuse s .duplicateTag
      else if !e.classRules then refuse s .range
      else if !s.cueLineReady e then refuse s .range
      else if !s.list.hasPlace p then refuse s .listFull
      else
        let t := timing (distance e.due s.now s.day) s.day
        if t = .past then refuse s .past
        else
          let e := { e with seq := s.list.nextSeq, late := decide (t = .late) }
          let l := placeOf s.list.entries e s.now s.day
          accept { s with list := { s.list with entries := l.1 ++ [e] ++ l.2, nextSeq := s.list.nextSeq + 1 } }
            ([boolByte e.late] ++ natBytes 2 e.seq.toNat ++ [nat8 l.1.length])

/-! ### CANCEL ENTRY, CLEAR ENTRIES, LIST ENTRIES -/

/-- Whether an entry is a port's with a tag (R33). -/
def Entry.named (e : Entry) (p : PortNo) (t : Tag) : Bool := decide (e.owner = p) && decide (e.tag = t)

/-- CANCEL ENTRY (R33). -/
def reqCancelEntry (p : PortNo) (b : List Byte) (s : State) : Answer :=
  let t : Tag := BitVec.ofNat 16 (natAt b 0 2)
  if s.list.entries.any fun e => e.named p t then
    accept { s with list := { s.list with entries := s.list.entries.eraseP fun e => e.named p t } } []
  else refuse s .notFound

/-- CLEAR ENTRIES (R34). -/
def reqClearEntries (p : PortNo) (_b : List Byte) (s : State) : Answer :=
  accept { s with list := { s.list with entries := s.list.entries.filter fun e => e.owner ≠ p } } [nat8 (s.list.count p)]

/-- LIST ENTRIES (R35). -/
def reqListEntries (_p : PortNo) (b : List Byte) (s : State) : Answer :=
  let start := (byteAt b 0).toNat
  if 127 < start then refuse s .range
  else
    let shown := (s.list.entries.drop start).take 8
    accept s (todBytes (some s.clock.tod) ++
      [nat8 s.list.entries.length, nat8 s.list.pool, nat8 s.list.poolUse, nat8 shown.length] ++ shown.flatMap entryRecord)

end Sys2Proof.Machine
end

