-- ==== Sys2Proof/Machine/Intake.lean ====
section
/-! DEFINITION. The Source Intake (06): the sync machine of a source port, the arrival of a packet, its store in the ring. -/

namespace Sys2Proof.Machine

/-! ### The ring (R90 to R94) -/

/-- Whether a cursor stands before the oldest packet of a full ring and is pushed by the next store (R94). -/
def Position.isPushed (p : Position) (i : SrcNo) (held : Nat) : Bool :=
  match p.onAir with
  | some c => decide (c.source = i) && decide (held ≤ c.lag)
  | none => false

/-- A position whose cursor is pushed past the oldest packet (R94). -/
def Position.pushed (p : Position) (ring : List Packet) : Position :=
  match p.onAir with
  | some c => { p with onAir := some { c with lag := passOver p ring (ring.length - 1) }, overruns := sat16 (p.overruns + 1) }
  | none => p

/-- One cursor of a full ring pushed, with its counts and notice (R94). -/
def State.pushCursor (s : State) (i : SrcNo) (f : FeedNo) (p : PosNo) : State :=
  let r := s.src i
  if (s.pos f p).isPushed i r.ring.length then
    ((s.setPos f p ((s.pos f p).pushed r.ring)).setSrc i { r with overrunTotal := sat16 (r.overrunTotal + 1) }).raiseForFeed f
      .overrun
  else s

/-- Room made in a ring of 512 packets (R94): the cursors at the oldest packet are pushed, and it is freed. -/
def State.makeRoom (s : State) (i : SrcNo) : State :=
  if (s.src i).ring.length < Config.ringPlaces then s
  else
    let s := allPositions.foldl (fun s fp => s.pushCursor i fp.1 fp.2) s
    let r := s.src i
    s.setSrc i { r with ring := r.ring.drop (r.ring.length + 1 - Config.ringPlaces) }

/-- A packet written at the write point and counted (R90 steps 2 to 4). -/
def Source.write (x : Source) (k : Packet) : Source :=
  { x with
    ring := x.ring ++ [k]
    n := sat16 (x.n + 1)
    clockSeen := x.clockSeen || (decide (x.table.clockComp = some k.comp) && k.clock.isSome) }

/-- A position's on-air cursor offered a packet just stored in a ring (R90 step 5, R92): at the write point it passes over a
packet its position does not carry. -/
def Position.offered (p : Position) (i : SrcNo) (k : Packet) : Position :=
  match p.onAir with
  | some c =>
    if c.source = i then
      if c.lag = 0 ∧ !p.carries k.comp then p else { p with onAir := some { c with lag := c.lag + 1 } }
    else p
  | none => p

/-- Whether a packet just stored is the entry point that a position seeks (R63). -/
def Position.finds (p : Position) (i : SrcNo) (k : Packet) : Bool :=
  decide (p.slot.target = some i) && decide (k.comp = 0) && p.carries k.comp && k.entry

/-- A packet stored in a ring (R90): room, the write, the offer to on-air cursors, the examination by preview cursors, and the
freeing of what every cursor has passed (R91). -/
def State.store (s : State) (i : SrcNo) (k : Packet) : State :=
  let s := s.makeRoom i
  let s := s.setSrc i ((s.src i).write k)
  let s := { s with positions := tmap (tmap fun p : Position => p.offered i k) s.positions }
  let s := allPositions.foldl (fun s fp => if (s.pos fp.1 fp.2).finds i k then s.entrySwitch fp.1 fp.2 else s) s
  s.trim i

/-! ### Arrival (R88, R89) -/

/-- The component of a source that an identifier names (R88). -/
def SourceEntry.compOf (t : SourceEntry) (id : Nat) : Option CompNo := allPorts.find? fun c => tget t.comps c = some id

/-- Whether a packet breaks its component's sequence (R89). -/
def continuityError (state : Option (BitVec 4)) (k : Packet) : Bool :=
  match state with
  | none => false
  | some last => !k.disc && decide (k.count ≠ last + 1)

/-- The continuity check of a source on a packet (R89). -/
def Source.checkContinuity (x : Source) (k : Packet) : Source :=
  let y := { x with cont := tset x.cont k.comp (some k.count) }
  if continuityError (tget x.cont k.comp) k then { y with e := sat16 (y.e + 1), contTotal := sat16 (y.contTotal + 1) } else y

/-- A packet of 188 bytes with a good sync byte arrives: matched, checked and stored, or discarded (R88). -/
def State.arrive (s : State) (i : SrcNo) (b : List Byte) : State :=
  let x := s.src i
  if x.table.enabled then
    match x.table.compOf (headerId b) with
    | some c =>
      let k := packetOf b c s.clock.tick
      (s.setSrc i (x.checkContinuity k)).store i k
    | none => s
  else s

/-! ### The sync machine (R82, R83) -/

/-- Whether the bytes from a candidate's first sync byte on hold $47 at 188-byte spacing, as far as they go (R82). -/
def candidateHolds (b : List Byte) : Bool :=
  (byteAt b 0 == 0x47) && (decide (b.length ≤ 188) || byteAt b 188 == 0x47) &&
  (decide (b.length ≤ 376) || byteAt b 376 == 0x47)

/-- The candidate that stands after a byte: the first $47 from which the bytes hold (R82). -/
def candidate : List Byte → List Byte
  | [] => []
  | b :: rest => if candidateHolds (b :: rest) then b :: rest else candidate rest

/-- The good-sync run of a candidate (R81, R82). -/
def goodRunOf (b : List Byte) : Nat := if b.isEmpty then 0 else (b.length - 1) / 188 + 1

/-- A HUNTING port takes a byte (R82): at a third sync byte it is SYNCED, and a packet begins at that byte. -/
def Source.huntByte (x : Source) (b : Byte) : Source :=
  let c := candidate (x.bytes ++ [b])
  if goodRunOf c = 3 then { x with sync := .synced, bytes := [b], goodRun := 0, badRun := 0 }
  else { x with bytes := c, goodRun := goodRunOf c }

/-- A port falls back to HUNTING (R83): every component unseeded, the sync-bad flag set. -/
def Source.loseSync (x : Source) : Source :=
  { x with sync := .hunting, bytes := [], goodRun := 0, badRun := 0, cont := #v[none, none, none, none], syncBad := true }

/-- A SYNCED port takes a byte before the 188th of a packet (R83). -/
def Source.syncByte (x : Source) (b : Byte) : Source :=
  if x.bytes.isEmpty then
    if b = 0x47 then { x with bytes := [b], badRun := 0 }
    else if 3 ≤ x.badRun + 1 then x.loseSync
    else { x with bytes := [b], badRun := x.badRun + 1 }
  else { x with bytes := x.bytes ++ [b] }

/-- A byte taken on a source port (R81 to R83). The 188th byte of a packet is its arrival; a packet that began with a bad sync
byte is discarded there. -/
def State.takeByte (s : State) (i : SrcNo) (b : Byte) : State :=
  let x := s.src i
  match x.sync with
  | .hunting => s.setSrc i (x.huntByte b)
  | .synced =>
    if x.bytes.length = 187 then
      let s := s.setSrc i { x with bytes := [] }
      if byteAt x.bytes 0 = 0x47 then s.arrive i (x.bytes ++ [b]) else s
    else s.setSrc i (x.syncByte b)

end Sys2Proof.Machine
end

