-- ==== Sys2Proof/Machine/RequestsSource.lean ====
section
/-! DEFINITION. What the requests of Source Intake and of Source Health do once the port's own checks have passed (R153). -/

namespace Sys2Proof.Machine

/-! ### SET SOURCE (R85 to R87, R108) -/

/-- The continuity states after a table entry is replaced: a component whose identifier changes is unseeded, and all are when the
source is enabled (R86, R87). -/
def Source.contAfter (x : Source) (t : SourceEntry) : Vector (Option (BitVec 4)) 4 :=
  let keep := fun c : CompNo =>
    if (t.enabled && !x.table.enabled) || decide (tget x.table.comps c ≠ tget t.comps c) then none else tget x.cont c
  #v[keep 0, keep 1, keep 2, keep 3]

/-- A source with its table entry replaced, disabled or enabled by it (R86, R87, R108). -/
def Source.withTable (x : Source) (t : SourceEntry) : Source :=
  let y := { x with table := t, cont := x.contAfter t }
  if x.table.enabled && !t.enabled then { y with health := .disabled, badCount := 0, goodCount := 0 }
  else if !x.table.enabled && t.enabled then { y with health := .healthy, badCount := 0, goodCount := 0 }.resetInterval
  else y

/-- SET SOURCE (R85, R86). -/
def reqSetSource (p : PortNo) (b : List Byte) (s : State) : Answer :=
  if !(s.port p).authority.configure then refuse s .notPermitted
  else match toFin 16 (byteAt b 0).toNat, sourceEntryAt b 1 with
    | some i, some t =>
      if !decide (present t.comps).Nodup then refuse s .duplicateId
      else
        let x := s.src i
        let s := s.setSrc i (x.withTable t)
        accept
          (if x.table.enabled ≠ t.enabled then s.healthChanged i
           else if x.table.fallbackPermit ≠ t.fallbackPermit then s.permitChanged i
           else s) []
    | _, _ => refuse s .range

/-! ### READ SOURCE (R97) -/

/-- The health fields of a source that READ SOURCE and READ HEALTH share (R97, R112): state, counts, interval counters, flags. -/
def healthFields (x : Source) : List Byte :=
  [healthByte x.health, nat8 x.badCount, nat8 x.goodCount] ++ natBytes 2 x.n ++ natBytes 2 x.e ++
  [nat8 x.k, flagByte x.syncBad x.clockSeen false false false]

/-- READ SOURCE (R97, R172). -/
def reqReadSource (_p : PortNo) (b : List Byte) (s : State) : Answer :=
  match toFin 16 (byteAt b 0).toNat with
  | none => refuse s .range
  | some i =>
    let x := s.src i
    accept s (sourceEntryBytes x.table ++ [boolByte (decide (x.sync = .synced))] ++ natBytes 2 x.ring.length ++
      natBytes 2 (s.backlog i) ++ [ringFlags (s.backlog i), nat8 (s.lags i).length] ++ natBytes 2 x.overrunTotal ++
      natBytes 2 x.staleTotal ++ natBytes 2 x.contTotal ++ healthFields x ++ latchedBytes x.latched)

/-! ### SET SCAN, ACK FAULTS, READ HEALTH -/

/-- SET SCAN (R100). -/
def reqSetScan (p : PortNo) (b : List Byte) (s : State) : Answer :=
  if !(s.port p).authority.configure then refuse s .notPermitted
  else match toFin 16 (byteAt b 0).toNat, toFin 16 (byteAt b 1).toNat with
    | some x, some y => if x ≤ y then accept { s with scan := ⟨x, y, x⟩ } [] else refuse s .range
    | _, _ => refuse s .range

/-- The latched records of a set of sources cleared (R111). -/
def State.clearLatched (s : State) (set : BitVec 16) : State :=
  allSources.foldl (fun s i => if set.getLsbD i.val then s.setSrc i { s.src i with latched := .clear } else s) s

/-- The named sources whose faulted-since-acknowledged flag is set (R111). -/
def State.latchedSet (s : State) (set : BitVec 16) : BitVec 16 :=
  allSources.foldl (fun a i => if set.getLsbD i.val && (s.src i).latched.flag then a ||| (1#16 <<< i.val) else a) 0

/-- ACK FAULTS (R111). -/
def reqAckFaults (_p : PortNo) (b : List Byte) (s : State) : Answer :=
  let set : BitVec 16 := BitVec.ofNat 16 (natAt b 0 2)
  accept (s.clearLatched set) (natBytes 2 (s.latchedSet set).toNat)

/-- READ HEALTH (R112, R172). -/
def reqReadHealth (_p : PortNo) (b : List Byte) (s : State) : Answer :=
  match toFin 16 (byteAt b 0).toNat with
  | none => refuse s .range
  | some i =>
    let x := s.src i
    accept s (todBytes (some s.clock.tod) ++ [nat8 s.scan.first.val, nat8 s.scan.last.val, nat8 s.scan.pointer.val] ++
      allSources.flatMap (fun j => [healthByte (s.src j).health, boolByte (s.src j).latched.flag]) ++
      healthFields x ++ verdictBytes x.verdict ++ latchedBytes x.latched)

end Sys2Proof.Machine
end

