-- ==== Sys2Proof/Machine/ControlPorts.lean ====
section
/-! DEFINITION. The Control Port Unit (10): its own requests, the checks before a request, its execution, the reply list and the
receiver. -/

namespace Sys2Proof.Machine

/-! ### Its own requests -/

/-- SET MASK (R157). -/
def reqSetMask (p : PortNo) (b : List Byte) (s : State) : Answer :=
  let off := natAt b 0 2
  let on := natAt b 2 2
  if 1024 ≤ off ∨ 1024 ≤ on then refuse s .range
  else
    let x := s.port p
    let mask := (x.mask &&& ~~~(BitVec.ofNat 10 off)) ||| BitVec.ofNat 10 on
    accept (s.setPort p { x with mask := mask }) (noticeBytes mask ++ noticeBytes x.notices)

/-- READ EVENTS (R158). -/
def reqReadEvents (p : PortNo) (_b : List Byte) (s : State) : Answer :=
  let x := s.port p
  accept (s.setPort p { x with notices := 0 }) (noticeBytes x.notices ++ noticeBytes x.mask)

/-- READ OUTCOMES (R160). -/
def reqReadOutcomes (p : PortNo) (_b : List Byte) (s : State) : Answer :=
  let x := s.port p
  accept (s.setPort p { x with log := [] }) ([nat8 x.log.length] ++ x.log.flatMap outcomeRecord)

/-- READ PORT (R161, R172). -/
def reqReadPort (p : PortNo) (_b : List Byte) (s : State) : Answer :=
  let x := s.port p
  accept s ([nat8 p.val, loadByte s.loader.state, speedByte x.speed] ++
    (match x.pendingSpeed with
     | some v => [speedByte v]
     | none => [0xFF]) ++
    [classByte x.authority.classMax, x.authority.feedMap.setWidth 8, x.authority.cueMap, boolByte x.authority.configure,
     nat8 (tget s.list.quotas p), nat8 (s.list.count p)] ++ natBytes 2 x.badFrames ++ noticeBytes x.mask)

/-! ### Execution (R152, R153) -/

/-- The block that owns a request takes it. -/
def perform (r : Request) (p : PortNo) (b : List Byte) (s : State) : Answer :=
  match r with
  | .readPort => reqReadPort p b s
  | .readEvents => reqReadEvents p b s
  | .setMask => reqSetMask p b s
  | .readOutcomes => reqReadOutcomes p b s
  | .setTime => reqSetTime p b s
  | .readTime => reqReadTime p b s
  | .postEntry => reqPostEntry p b s
  | .cancelEntry => reqCancelEntry p b s
  | .clearEntries => reqClearEntries p b s
  | .listEntries => reqListEntries p b s
  | .setPosition => reqSetPosition p b s
  | .release => reqRelease p b s
  | .examinePosition => reqExaminePosition p b s
  | .setCueLine => reqSetCueLine p b s
  | .setSource => reqSetSource p b s
  | .readSource => reqReadSource p b s
  | .setScan => reqSetScan p b s
  | .ackFaults => reqAckFaults p b s
  | .readHealth => reqReadHealth p b s
  | .editPlan => reqEditPlan p b s
  | .swapPlan => reqSwapPlan p b s
  | .setFeedRate => reqSetFeedRate p b s
  | .startFeed => reqStartFeed p b s
  | .stopFeed => reqStopFeed p b s
  | .readPlan => reqReadPlan p b s
  | .readFeed => reqReadFeed p b s
  | .loadTable => reqLoadTable p b s
  | .dropTable => reqDropTable p b s

/-- The three checks before a request reaches its owner, and then its owner (R153). -/
def execute (p : PortNo) (code : Byte) (body : List Byte) (s : State) : Answer :=
  match reqOf code with
  | none => refuse s .unknownRequest
  | some r =>
    if s.loader.state = .loading ∧ r ≠ .readPort then refuse s .notReady
    else if body.length ≠ reqLength r then refuse s .malformed
    else perform r p body s

/-- The reply list of a port replaced. -/
def State.setReplies (s : State) (p : PortNo) (l : List Item) : State := s.setPort p { s.port p with replies := l }

/-- The head of the reply list handled (R152): a waiting request is executed and becomes the answering one; a BUSY owed is sent as
it stands. -/
def State.handleHead (s : State) (p : PortNo) : State :=
  match (s.port p).replies with
  | .waiting q :: rest =>
    let a := execute p q.code q.body s
    a.1.setReplies p (.answering (frameBytes q.sequence (replyCode q.code) a.2) :: rest)
  | _ => s

/-- A frame discarded as a receive error (R149): counted, and the receiver WAITING. -/
def State.receiveError (s : State) (p : PortNo) : State :=
  let x := s.port p
  s.setPort p { x with rx := .waiting, badFrames := sat16 (x.badFrames + 1) }

/-- An accepted frame placed in the reply list (R151); on an empty list it is handled at once (R152). The receiver has put the port
WAITING before (R149). A request's own command leaves the receive state as it stands, DESIGN CHOICE (log 8). -/
def State.acceptFrame (s : State) (p : PortNo) (q : Frame) : State :=
  let l := (s.port p).replies
  if (l.filter Item.isWaiting).length < Config.replyPlaces then
    let s := s.setReplies p (l ++ [.waiting q])
    if l.isEmpty then s.handleHead p else s
  else if (l.filter Item.isBusy).length < Config.replyPlaces then s.setReplies p (l ++ [.busyOwed q.sequence q.code])
  else s.receiveError p

/-- The last byte of the reply at the head has left: its item leaves and the new head is handled (R152). -/
def State.replyDone (s : State) (p : PortNo) : State :=
  match (s.port p).replies with
  | [] => s
  | _ :: rest => (s.setReplies p rest).handleHead p

/-! ### The receiver (R149) -/

/-- A frame that is received whole judged by its check (R148, R149). -/
def State.frameWhole (s : State) (p : PortNo) (bytes : List Byte) : State :=
  let len := natAt bytes 0 2
  if (crc16 (bytes.take (len + 2))).toNat = natAt bytes (len + 2) 2 then
    (s.setPort p { s.port p with rx := .waiting }).acceptFrame p
      ⟨byteAt bytes 2, byteAt bytes 3, (bytes.take (len + 2)).drop 4⟩
  else s.receiveError p

/-- A byte received on a control port (R149); `framing` says that its stop bit was sampled low. -/
def State.receive (s : State) (p : PortNo) (b : Byte) (framing : Bool) : State :=
  let x := s.port p
  match x.rx with
  | .waiting =>
    if b = 0xC3 ∧ framing = false then s.setPort p { x with rx := .receiving [] s.clock.tick } else s
  | .receiving bytes _ =>
    if framing then s.receiveError p
    else
      let bytes := bytes ++ [b]
      let len := natAt bytes 0 2
      if bytes.length < 2 then s.setPort p { x with rx := .receiving bytes s.clock.tick }
      else if len < 2 ∨ 242 < len then s.receiveError p
      else if bytes.length < len + 4 then s.setPort p { x with rx := .receiving bytes s.clock.tick }
      else s.frameWhole p bytes

/-- The byte gap expires on a RECEIVING port (R150). -/
def State.gapExpired (s : State) (p : PortNo) : State :=
  if (s.port p).rx = .waiting then s else s.receiveError p

/-- A quiet port takes the speed that waits for it (R147). -/
def State.changeSpeed (s : State) (p : PortNo) : State :=
  let x := s.port p
  match x.pendingSpeed with
  | some v => if x.quiet then s.setPort p { x with speed := v, pendingSpeed := none } else s
  | none => s

end Sys2Proof.Machine
end

