-- ==== Sys2Proof/Machine/Emission.lean ====
section
/-! DEFINITION. The Emission Unit (09): what a slot event discards, chooses, builds and sends. -/

namespace Sys2Proof.Machine

/-! ### Stale packets (R135) -/

/-- The residence of a packet at a departure tick (R135, R141). -/
def Packet.residence (k : Packet) (departure : Tick) : Tick := departure - k.arrival

/-- Whether a packet is stale at a departure tick (R135). -/
def Packet.stale (k : Packet) (departure : Tick) (limit : Nat) : Bool := decide (limit < (k.residence departure).toNat)

/-- The packets at a cursor once the stale ones at its head are discarded, with their number; packets the position does not
carry are passed over uncounted (R92, R135). -/
def dropStale (p : Position) (departure : Tick) (limit : Nat) : List Packet → Nat × List Packet
  | [] => (0, [])
  | k :: rest =>
    if !p.carries k.comp then dropStale p departure limit rest
    else if k.stale departure limit then
      let r := dropStale p departure limit rest
      (r.1 + 1, r.2)
    else (0, k :: rest)

/-- The stale limit of a source in ticks (R135). -/
def State.staleTicks (s : State) (i : SrcNo) : Nat := (s.src i).table.staleLimit * s.clock.rate.ticks

/-- The stale discards of one position at a slot event (R135, R96, R143). The stale-drop total of a disabled source rises as well,
DESIGN CHOICE (log 31): R96 and R135 count each stale discard, R87 lets cursors read on, and R96 says too that a disabled source's
totals stand. -/
def State.discardStale (s : State) (f : FeedNo) (p : PosNo) : State :=
  let x := s.pos f p
  match x.onAir with
  | some c =>
    let r := s.src c.source
    let d := dropStale x (s.feed f).departure (s.staleTicks c.source) (unread r.ring c.lag)
    let y := s.feed f
    (((s.setPos f p { x with onAir := some { c with lag := d.2.length } }).setSrc c.source
      { r with staleTotal := sat16 (r.staleTotal + d.1) }).setFeed f
      { y with counts := { y.counts with stale := sat16 (y.counts.stale + d.1) } }).trim c.source
  | none => s

/-- The packet at a position's on-air cursor, if it stands before one: after the discards, its fresh packet (R135). -/
def State.fresh (s : State) (f : FeedNo) (p : PosNo) : Option Packet :=
  match (s.pos f p).onAir with
  | some c => (unread (s.src c.source).ring c.lag).head?
  | none => none

/-! ### The choice (R136, R137) -/

/-- The positions in round-robin order after a pointer (R137). -/
def roundRobin (ptr : PosNo) : List PosNo := allPlaces.map fun k => ptr + 1 + k

/-- What fills a slot (R136). -/
inductive Fill where
  | table (slot : TableNo)
  | share (position : PosNo)
  | spare (position : PosNo)
  | null
  deriving DecidableEq, Repr

/-- The lowest-numbered due carousel slot (R131). -/
def Feed.dueSlot (x : Feed) : Option TableNo :=
  allSources.find? fun c => match tget x.carousel c with
    | some t => t.due
    | none => false

/-- The first position, in round-robin order after a pointer, with a fresh packet and a remaining share that a test accepts
(R136, R137). -/
def State.pick (s : State) (f : FeedNo) (ptr : PosNo) (test : Nat → Bool) : Option PosNo :=
  (roundRobin ptr).find? fun p => test (tget (s.feed f).shares p) && (s.fresh f p).isSome

/-- What fills the slot of a feed, after the stale discards (R136). -/
def State.choose (s : State) (f : FeedNo) : Fill :=
  let x := s.feed f
  match (if 1 ≤ x.carouselShare then x.dueSlot else none) with
  | some c => .table c
  | none =>
    match s.pick f x.sharePtr fun n => decide (1 ≤ n) with
    | some p => .share p
    | none =>
      match s.pick f x.sparePtr fun n => decide (n = 0) with
      | some p => .spare p
      | none => .null

/-! ### Sending -/

/-- An output continuity counter raised by one (R139). -/
def Feed.bump (x : Feed) (id : Nat) : Feed := { x with counters := counterSet x.counters id (counterGet x.counters id + 1) }

/-- A carousel packet sent (R131, R136 step 1). -/
def Feed.sendTable (x : Feed) (c : TableNo) : Feed :=
  match tget x.carousel c with
  | some t =>
    { x with
      carouselShare := x.carouselShare - 1
      carousel := tset x.carousel c (some { t with due := false })
      counts := { x.counts with carousel := x.counts.carousel + 1 }
      output := packetBytes t.id false false (counterGet x.counters t.id) none t.payload }.bump t.id
  | none => x

/-- A null packet sent (R142, R136 step 4). -/
def Feed.sendNull (x : Feed) : Feed :=
  { x with counts := { x.counts with null := x.counts.null + 1 }, output := nullPacket }

/-- The bytes of a programme packet sent (R139, R140, R141). -/
def sentBytes (x : Feed) (p : Position) (k : Packet) (id : Nat) : List Byte :=
  packetBytes id k.entry (k.disc || p.marks.getLsbD k.comp.val) (counterGet x.counters id)
    (k.clock.map fun c => c + k.residence x.departure) k.payload

/-- The position after its fresh packet is taken: the cursor past it, its component out of the switch marks (R69, R92). -/
def Position.served (p : Position) (c : Cursor) (ring : List Packet) (k : Packet) : Position :=
  { p with
    onAir := some { c with lag := passOver p ring (c.lag - 1) }
    marks := p.marks &&& ~~~(1#4 <<< k.comp.val) }

/-- A programme packet of a position sent, its identifier and continuity counter included (R139). -/
def State.sendFrom (s : State) (f : FeedNo) (p : PosNo) : State :=
  let x := s.pos f p
  match x.onAir, s.fresh f p with
  | some c, some k =>
    match tget x.ids k.comp with
    | some id =>
      let y := s.feed f
      (((s.setPos f p (x.served c (s.src c.source).ring k)).setFeed f
        ({ y with output := sentBytes y x k id }.bump id))).trim c.source
    | none => s
  | _, _ => s

/-- The feed's counts and pointer after a position is served within its share (R136 step 2). -/
def Feed.countShare (x : Feed) (p : PosNo) : Feed :=
  { x with
    shares := tset x.shares p (tget x.shares p - 1)
    sharePtr := p
    counts := { x.counts with share := x.counts.share + 1 } }

/-- The feed's counts and pointer after a position is served in a spare slot (R136 step 3). -/
def Feed.countSpare (x : Feed) (p : PosNo) : Feed :=
  { x with sparePtr := p, counts := { x.counts with spare := x.counts.spare + 1 } }

/-- The slot filled (R136). -/
def State.fillSlot (s : State) (f : FeedNo) : Fill → State
  | .table c => s.setFeed f ((s.feed f).sendTable c)
  | .share p => (s.setFeed f ((s.feed f).countShare p)).sendFrom f p
  | .spare p => (s.setFeed f ((s.feed f).countSpare p)).sendFrom f p
  | .null => s.setFeed f (s.feed f).sendNull

/-- A slot event of a RUNNING feed (R129). -/
def State.slotEvent (s : State) (f : FeedNo) : State :=
  let s := allPlaces.foldl (fun s p => s.discardStale f p) s
  let s := s.fillSlot f (s.choose f)
  s.setFeed f (s.feed f).nextSlot

end Sys2Proof.Machine
end

