-- ==== Sys2Proof/Machine/Timing.lean ====
section
/-! DEFINITION. Ticks and the events that come of themselves at a tick (log 1, 2): which are due, when, and what each does; the
house reference. -/

namespace Sys2Proof.Machine

/-! ### The house reference and the frame events (R5 to R8) -/

/-- The reference state after an accepted pulse or a reference step; REFERENCE REGAINED from FLYWHEEL (R8). -/
def State.lockReference (s : State) : State :=
  let before := s.clock.ref
  let s := { s with clock := { s.clock with ref := .locked } }
  if before = .flywheel then s.raiseAll .referenceRegained else s

/-- The timer reloaded with the ticks per frame (R4). The underflow it was running towards does not occur (R5). -/
def State.reloadTimer (s : State) : State :=
  { s with clock := { s.clock with timer := s.clock.rate.ticks, atUnderflow := false } }

/-- The run count set (R7). -/
def State.setRun (s : State) (n : Nat) : State := { s with clock := { s.clock with run := n } }

/-- Whether a pulse at this tick falls in the late window (R6): 0 to 270 ticks after the underflow that opened it. -/
def Clock.inLateWindow (c : Clock) : Bool :=
  match c.late with
  | some u => decide ((c.tick - u).toNat ≤ Config.windowTicks)
  | none => false

/-- A pulse of HREF judged by the timer and the late window (R5, R6, R7). Each pulse command of a tick is judged as a pulse of its own,
DESIGN CHOICE (log 33): R9 speaks of frame events at different ticks, and no rule says whether two pulses can fall at one. -/
def State.judgePulse (s : State) (order : FrameOrder) : State :=
  if s.clock.timer ≤ Config.windowTicks then
    ((s.reloadTimer.setRun 0).lockReference).frameEvent order
  else if s.clock.inLateWindow then
    let s := (s.reloadTimer.setRun 0).lockReference
    { s with clock := { s.clock with late := none } }
  else if s.clock.run + 1 < 4 then s.setRun (s.clock.run + 1)
  else ((((s.reloadTimer.setRun 0).raiseAll .referenceStep).lockReference)).frameEvent order

/-- An underflow of the flywheel frame timer (R6): the timer reloads, the late window opens, a frame event is made. -/
def State.underflow (s : State) (order : FrameOrder) : State :=
  let s := s.reloadTimer
  { s with clock := { s.clock with late := some s.clock.tick } }.frameEvent order

/-- The late window expires (R6): LOCKED goes to FLYWHEEL with REFERENCE LOST. -/
def State.expireLate (s : State) : State :=
  let before := s.clock.ref
  let s := { s with clock := { s.clock with late := none } }
  if before = .locked then { s with clock := { s.clock with ref := .flywheel } }.raiseAll .referenceLost else s

/-- A pulse of HREF (R5, R6, R7). One at the 271st tick finds the late window closed, so the window's expiry comes first (log 13). -/
def State.pulse (s : State) (order : FrameOrder) : State :=
  (if s.clock.late.isSome && !s.clock.inLateWindow then s.expireLate else s).judgePulse order

/-! ### Timed events -/

/-- The events that come of themselves: those of a tick, and those that a frame event or a quiet port has made due. -/
inductive TimedEvent where
  | windowEnd (feed : FeedNo) (position : PosNo)
  | forcedSwitch (feed : FeedNo) (position : PosNo)
  | dueMaking (feed : FeedNo) (slot : TableNo)
  | lineSpeed (port : PortNo)
  | lateExpiry
  | slot (feed : FeedNo)
  | byteGap (port : PortNo)
  | underflow
  deriving DecidableEq, Repr

/-- The pieces of a frame event: what it makes due at its own tick, as parts of it (R46, R66, R131). -/
def framePieces : List TimedEvent :=
  allPositions.map (fun fp => .windowEnd fp.1 fp.2) ++ allPositions.map (fun fp => .forcedSwitch fp.1 fp.2) ++
  allFeeds.flatMap fun f => allSources.map fun c => .dueMaking f c

/-- What is taken before any other event of its tick: the pieces of a frame event (log 6), and the speed change of a port at its first
quiet moment (R147, log 35). -/
def allPieces : List TimedEvent := framePieces ++ allPorts.map .lineSpeed

/-- Every timed event, in the order in which an empty queue takes those due at one tick (log 1). -/
def allTimed : List TimedEvent :=
  allPieces ++ [.lateExpiry] ++ allFeeds.map .slot ++ allPorts.map .byteGap ++ [.underflow]

/-- The ticks until an event, or none where it does not stand to come. -/
def State.dueIn (s : State) : TimedEvent → Option Nat
  | .windowEnd f p => if (s.pos f p).upper.any fun e => e.window = some 0 then some 0 else none
  | .forcedSwitch f p =>
    match (s.pos f p).slot with
    | .seeking _ 0 _ => some 0
    | _ => none
  | .dueMaking f c => if (s.feed f).dueMakingDue c then some 0 else none
  | .lineSpeed p => if (s.port p).pendingSpeed.isSome && (s.port p).quiet then some 0 else none
  | .lateExpiry => s.clock.late.map fun u => (u + BitVec.ofNat 40 (Config.windowTicks + 1) - s.clock.tick).toNat
  | .slot f => if (s.feed f).running then some ((s.feed f).departure - s.clock.tick).toNat else none
  | .byteGap p =>
    match (s.port p).rx with
    | .receiving _ t => some (t + BitVec.ofNat 40 (Config.byteGapTicks + 1) - s.clock.tick).toNat
    | .waiting => none
  | .underflow => some s.clock.untilUnderflow

/-- Whether no timed event comes sooner than in `d` ticks. -/
def State.soonest (s : State) (d : Nat) : Bool :=
  allTimed.all fun e => match s.dueIn e with
    | some d' => decide (d ≤ d')
    | none => true

/-- Ticks that pass with nothing happening at them (R1, R4). The timer falls no lower than 1: the tick that would take it to 0 is that
of the underflow, which then stands to be taken (log 12). -/
def State.advance (s : State) (d : Nat) : State :=
  { s with clock := { s.clock with
    tick := s.clock.tick + BitVec.ofNat 40 d
    timer := s.clock.timer - min d (s.clock.timer - 1)
    atUnderflow := s.clock.atUnderflow || decide (0 < d ∧ s.clock.timer ≤ d) } }

/-- A timed event taken at the present tick; a frame event takes the given order. -/
def State.takeTimed (s : State) (order : FrameOrder) : TimedEvent → State
  | .windowEnd f p => s.endWindows f p
  | .forcedSwitch f p => s.forceSwitch f p
  | .dueMaking f c => s.makeDue f c
  | .lineSpeed p => s.changeSpeed p
  | .lateExpiry => s.expireLate
  | .slot f => s.slotEvent f
  | .byteGap p => s.gapExpired p
  | .underflow => s.underflow order

/-- The command of a timed event: where the event stands to come and none comes sooner, time runs on to its tick and it is taken;
else nothing happens (log 2). -/
def State.runTimed (s : State) (e : TimedEvent) (order : FrameOrder) : State :=
  match s.dueIn e with
  | some d => if s.soonest d then (s.advance d).takeTimed order e else s
  | none => s

/-! ### A command's outcome -/

/-- The pieces of the latest frame event that are still due taken in their order (log 6), and then the speed changes of quiet ports
(log 35). -/
def State.settle (s : State) : State := allPieces.foldl (fun s e => s.runTimed e FrameOrder.plain) s

/-- Whether no piece of the latest frame event and no speed change of a quiet port is still due. -/
def State.calm (s : State) : Bool := allPieces.all fun e => (s.dueIn e).isNone

/-- What the command of one piece of a frame event, or of a speed change, does: it is taken if it is due. While RESETN is asserted every block is held, so
nothing happens (R15, log 11). -/
def State.actPiece (s : State) (e : TimedEvent) : Host.Outcome State Fault Refusal :=
  .next (if s.held then s else s.runTimed e FrameOrder.plain)

/-- What any other command does while RESETN is released. It comes before or after a frame event of its tick, so it finds every piece of
that event taken (R130, R131, log 6), and it finds every quiet port at its new speed (R147, log 35). -/
def State.act (s : State) (f : State → State) : Host.Outcome State Fault Refusal :=
  .next (if s.held then s else f s.settle)

/-! ### No command waiting -/

/-- What the part does while no command waits (log 1): the first event due at this tick is taken; if none is, one tick passes. While
RESETN is asserted nothing happens (R1). -/
def State.idle (s : State) : State :=
  if s.held then s
  else match allTimed.find? fun e => s.dueIn e == some 0 with
    | some e => s.takeTimed FrameOrder.plain e
    | none => s.advance 1

end Sys2Proof.Machine
end

