-- ==== Sys2Proof/Machine/ClockCommands.lean ====
section
/-! DEFINITION. The commands of the Station Clock, and those of what a frame event makes due. -/

namespace Sys2Proof.Machine

/-- FLYWHEEL_UNDERFLOW (R6). -/
def execFlywheelUnderflow (order : FrameOrder) (s : State) : Host.Outcome State Fault Refusal :=
  s.act fun s => s.runTimed .underflow order

/-- LATE_WINDOW_EXPIRY (R6). -/
def execLateWindowExpiry (s : State) : Host.Outcome State Fault Refusal :=
  s.act fun s => s.runTimed .lateExpiry FrameOrder.plain

/-- HOUSE_REFERENCE_PULSE (R5 to R7). -/
def execHouseReferencePulse (order : FrameOrder) (s : State) : Host.Outcome State Fault Refusal :=
  s.act fun s => s.pulse order

/-- WINDOW_END (R46). -/
def execWindowEnd (feed : FeedNo) (position : PosNo) (s : State) : Host.Outcome State Fault Refusal :=
  s.actPiece (.windowEnd feed position)

/-- FORCED_SWITCH (R66). -/
def execForcedSwitch (feed : FeedNo) (position : PosNo) (s : State) : Host.Outcome State Fault Refusal :=
  s.actPiece (.forcedSwitch feed position)

/-- CAROUSEL_DUE_MAKING (R131). -/
def execCarouselDueMaking (feed : FeedNo) (slot : TableNo) (s : State) : Host.Outcome State Fault Refusal :=
  s.actPiece (.dueMaking feed slot)

end Sys2Proof.Machine
end

