-- ==== Sys2Proof/Machine/LineCommands.lean ====
section
/-! DEFINITION. The commands of the control port lines. -/

namespace Sys2Proof.Machine

/-- CONTROL_FRAME (R149, R151): the byte is received; where it is the last check byte of a frame, the frame is judged (log 23). -/
def execControlFrame (port : PortNo) (byte : Byte) (s : State) : Host.Outcome State Fault Refusal :=
  s.act fun s => s.receive port byte false

/-- CONTROL_PORT_BYTE (R149). -/
def execControlPortByte (port : PortNo) (byte : Byte) (framing : Bool) (s : State) : Host.Outcome State Fault Refusal :=
  s.act fun s => s.receive port byte framing

/-- BYTE_GAP_EXPIRY (R150). -/
def execByteGapExpiry (port : PortNo) (s : State) : Host.Outcome State Fault Refusal :=
  s.act fun s => s.runTimed (.byteGap port) FrameOrder.plain

/-- REPLY_SENT (R152). -/
def execReplySent (port : PortNo) (s : State) : Host.Outcome State Fault Refusal :=
  s.act fun s => s.replyDone port

end Sys2Proof.Machine
end

