-- ==== Sys2Proof/Machine/PacketCommands.lean ====
section
/-! DEFINITION. The commands of the packet ports. -/

namespace Sys2Proof.Machine

/-- PACKET_ARRIVAL (R81, R83, R88): the byte is taken; where it is the 188th of a packet, the packet arrives (log 23). -/
def execPacketArrival (source : SrcNo) (byte : Byte) (s : State) : Host.Outcome State Fault Refusal :=
  s.act fun s => s.takeByte source byte

/-- SOURCE_PORT_BYTE (R82, R83). -/
def execSourcePortByte (source : SrcNo) (byte : Byte) (s : State) : Host.Outcome State Fault Refusal :=
  s.act fun s => s.takeByte source byte

/-- SLOT_EVENT (R129). -/
def execSlotEvent (feed : FeedNo) (s : State) : Host.Outcome State Fault Refusal :=
  s.act fun s => s.runTimed (.slot feed) FrameOrder.plain

end Sys2Proof.Machine
end

