-- ==== Sys2Proof/Machine/RequestCommands.lean ====
section
/-! DEFINITION. The commands of the requests: a frame with the request's code, a sequence and a body is accepted on the port
(log 8). -/

namespace Sys2Proof.Machine

/-- UNKNOWN_REQUEST (R153): a frame whose code names no request. -/
def execUnknownRequest (port : PortNo) (sequence code : Byte) (body : List Byte) (s : State) :
    Host.Outcome State Fault Refusal :=
  s.act fun s => s.acceptFrame port ⟨sequence, code, body⟩

/-- SET_TIME (R12). -/
def execSetTime (port : PortNo) (sequence : Byte) (body : List Byte) (s : State) : Host.Outcome State Fault Refusal :=
  s.act fun s => s.acceptFrame port ⟨sequence, reqCode .setTime, body⟩

/-- READ_TIME (R13). -/
def execReadTime (port : PortNo) (sequence : Byte) (body : List Byte) (s : State) : Host.Outcome State Fault Refusal :=
  s.act fun s => s.acceptFrame port ⟨sequence, reqCode .readTime, body⟩

/-- POST_ENTRY (R21). -/
def execPostEntry (port : PortNo) (sequence : Byte) (body : List Byte) (s : State) : Host.Outcome State Fault Refusal :=
  s.act fun s => s.acceptFrame port ⟨sequence, reqCode .postEntry, body⟩

/-- CANCEL_ENTRY (R33). -/
def execCancelEntry (port : PortNo) (sequence : Byte) (body : List Byte) (s : State) : Host.Outcome State Fault Refusal :=
  s.act fun s => s.acceptFrame port ⟨sequence, reqCode .cancelEntry, body⟩

/-- CLEAR_ENTRIES (R34). -/
def execClearEntries (port : PortNo) (sequence : Byte) (body : List Byte) (s : State) : Host.Outcome State Fault Refusal :=
  s.act fun s => s.acceptFrame port ⟨sequence, reqCode .clearEntries, body⟩

/-- LIST_ENTRIES (R35). -/
def execListEntries (port : PortNo) (sequence : Byte) (body : List Byte) (s : State) : Host.Outcome State Fault Refusal :=
  s.act fun s => s.acceptFrame port ⟨sequence, reqCode .listEntries, body⟩

/-- SET_POSITION (R39). -/
def execSetPosition (port : PortNo) (sequence : Byte) (body : List Byte) (s : State) : Host.Outcome State Fault Refusal :=
  s.act fun s => s.acceptFrame port ⟨sequence, reqCode .setPosition, body⟩

/-- RELEASE (R48). -/
def execRelease (port : PortNo) (sequence : Byte) (body : List Byte) (s : State) : Host.Outcome State Fault Refusal :=
  s.act fun s => s.acceptFrame port ⟨sequence, reqCode .release, body⟩

/-- EXAMINE_POSITION (R55). -/
def execExaminePosition (port : PortNo) (sequence : Byte) (body : List Byte) (s : State) : Host.Outcome State Fault Refusal :=
  s.act fun s => s.acceptFrame port ⟨sequence, reqCode .examinePosition, body⟩

/-- SET_CUE_LINE (R77). -/
def execSetCueLine (port : PortNo) (sequence : Byte) (body : List Byte) (s : State) : Host.Outcome State Fault Refusal :=
  s.act fun s => s.acceptFrame port ⟨sequence, reqCode .setCueLine, body⟩

/-- SET_SOURCE (R85). -/
def execSetSource (port : PortNo) (sequence : Byte) (body : List Byte) (s : State) : Host.Outcome State Fault Refusal :=
  s.act fun s => s.acceptFrame port ⟨sequence, reqCode .setSource, body⟩

/-- READ_SOURCE (R97). -/
def execReadSource (port : PortNo) (sequence : Byte) (body : List Byte) (s : State) : Host.Outcome State Fault Refusal :=
  s.act fun s => s.acceptFrame port ⟨sequence, reqCode .readSource, body⟩

/-- SET_SCAN (R100). -/
def execSetScan (port : PortNo) (sequence : Byte) (body : List Byte) (s : State) : Host.Outcome State Fault Refusal :=
  s.act fun s => s.acceptFrame port ⟨sequence, reqCode .setScan, body⟩

/-- ACK_FAULTS (R111). -/
def execAckFaults (port : PortNo) (sequence : Byte) (body : List Byte) (s : State) : Host.Outcome State Fault Refusal :=
  s.act fun s => s.acceptFrame port ⟨sequence, reqCode .ackFaults, body⟩

/-- READ_HEALTH (R112). -/
def execReadHealth (port : PortNo) (sequence : Byte) (body : List Byte) (s : State) : Host.Outcome State Fault Refusal :=
  s.act fun s => s.acceptFrame port ⟨sequence, reqCode .readHealth, body⟩

/-- EDIT_PLAN (R117). -/
def execEditPlan (port : PortNo) (sequence : Byte) (body : List Byte) (s : State) : Host.Outcome State Fault Refusal :=
  s.act fun s => s.acceptFrame port ⟨sequence, reqCode .editPlan, body⟩

/-- SWAP_PLAN (R118). -/
def execSwapPlan (port : PortNo) (sequence : Byte) (body : List Byte) (s : State) : Host.Outcome State Fault Refusal :=
  s.act fun s => s.acceptFrame port ⟨sequence, reqCode .swapPlan, body⟩

/-- SET_FEED_RATE (R121). -/
def execSetFeedRate (port : PortNo) (sequence : Byte) (body : List Byte) (s : State) : Host.Outcome State Fault Refusal :=
  s.act fun s => s.acceptFrame port ⟨sequence, reqCode .setFeedRate, body⟩

/-- START_FEED (R122). -/
def execStartFeed (port : PortNo) (sequence : Byte) (body : List Byte) (s : State) : Host.Outcome State Fault Refusal :=
  s.act fun s => s.acceptFrame port ⟨sequence, reqCode .startFeed, body⟩

/-- STOP_FEED (R124). -/
def execStopFeed (port : PortNo) (sequence : Byte) (body : List Byte) (s : State) : Host.Outcome State Fault Refusal :=
  s.act fun s => s.acceptFrame port ⟨sequence, reqCode .stopFeed, body⟩

/-- READ_PLAN (R126). -/
def execReadPlan (port : PortNo) (sequence : Byte) (body : List Byte) (s : State) : Host.Outcome State Fault Refusal :=
  s.act fun s => s.acceptFrame port ⟨sequence, reqCode .readPlan, body⟩

/-- READ_FEED (R126). -/
def execReadFeed (port : PortNo) (sequence : Byte) (body : List Byte) (s : State) : Host.Outcome State Fault Refusal :=
  s.act fun s => s.acceptFrame port ⟨sequence, reqCode .readFeed, body⟩

/-- LOAD_TABLE (R132). -/
def execLoadTable (port : PortNo) (sequence : Byte) (body : List Byte) (s : State) : Host.Outcome State Fault Refusal :=
  s.act fun s => s.acceptFrame port ⟨sequence, reqCode .loadTable, body⟩

/-- DROP_TABLE (R133). -/
def execDropTable (port : PortNo) (sequence : Byte) (body : List Byte) (s : State) : Host.Outcome State Fault Refusal :=
  s.act fun s => s.acceptFrame port ⟨sequence, reqCode .dropTable, body⟩

/-- SET_MASK (R157). -/
def execSetMask (port : PortNo) (sequence : Byte) (body : List Byte) (s : State) : Host.Outcome State Fault Refusal :=
  s.act fun s => s.acceptFrame port ⟨sequence, reqCode .setMask, body⟩

/-- READ_EVENTS (R158). -/
def execReadEvents (port : PortNo) (sequence : Byte) (body : List Byte) (s : State) : Host.Outcome State Fault Refusal :=
  s.act fun s => s.acceptFrame port ⟨sequence, reqCode .readEvents, body⟩

/-- READ_OUTCOMES (R160). -/
def execReadOutcomes (port : PortNo) (sequence : Byte) (body : List Byte) (s : State) : Host.Outcome State Fault Refusal :=
  s.act fun s => s.acceptFrame port ⟨sequence, reqCode .readOutcomes, body⟩

/-- READ_PORT (R161). -/
def execReadPort (port : PortNo) (sequence : Byte) (body : List Byte) (s : State) : Host.Outcome State Fault Refusal :=
  s.act fun s => s.acceptFrame port ⟨sequence, reqCode .readPort, body⟩

end Sys2Proof.Machine
end

