-- ==== Sys2Proof/Machine/Loading.lean ====
section
/-! DEFINITION. The Configuration Loader (11, 12.5): the reading of the image, its judgement, and its application. -/

namespace Sys2Proof.Machine

/-! ### What an image holds (R166) -/

/-- A record of the ports section. -/
structure PortRecord where
  authority : Authority
  quota : Nat
  speed : LineSpeed
  deriving DecidableEq, Repr

/-- A record of the positions section. -/
structure PositionRecord where
  ids : Vector (Option Nat) 4
  base : Option SrcNo
  fallback : Option SrcNo
  policy : Splice
  deriving DecidableEq, Repr

/-- A record of the feeds section. -/
structure FeedRecord where
  rate : Nat
  autostart : Bool
  activeB : Bool
  planA : Plan
  planB : Plan
  deriving DecidableEq, Repr

/-- A record of the carousel section. -/
structure CarouselRecord where
  feed : FeedNo
  slot : TableNo
  id : Nat
  interval : Nat
  payload : List Byte
  deriving DecidableEq, Repr

/-- A record of the cue-lines section. -/
structure LineRecord where
  mode : LineMode
  feed : FeedNo
  position : PosNo
  source : SrcNo
  deriving DecidableEq, Repr

/-- An image whose sections have passed R166: the records in their order (12.5). -/
structure Image where
  ports : List PortRecord
  sources : List SourceEntry
  scan : Scan
  positions : List PositionRecord
  feeds : List FeedRecord
  carousel : List CarouselRecord
  lines : List LineRecord
  deriving DecidableEq, Repr

/-! ### Records (R166, R173) -/

/-- Whether the pad bytes from byte `i` on are $00 (R173). -/
def padded (b : List Byte) (i : Nat) : Bool := (b.drop i).all fun x => x == 0

/-- A ports record; an unset quota counts as 16 (R166). -/
def portRecordOf (b : List Byte) : Option PortRecord :=
  match classOf (byteAt b 0), boolOf (byteAt b 3), boolOf (byteAt b 5) with
  | some cls, some configure, some high =>
    let quota := (byteAt b 4).toNat
    if (byteAt b 1).toNat < 64 ∧ (quota ≤ 128 ∨ quota = 255) ∧ padded b 6 then
      some ⟨⟨cls, (byteAt b 1).setWidth 6, byteAt b 2, configure⟩, if quota = 255 then 16 else quota,
        if high then .high else .low⟩
    else none
  | _, _, _ => none

/-- A sources record: the checks of SET SOURCE, no stray flag or check bit, pad bytes (R166, R173). -/
def sourceRecordOf (b : List Byte) : Option SourceEntry :=
  match sourceEntryAt b 0 with
  | some t =>
    if (byteAt b 0).toNat < 8 ∧ (byteAt b 1).toNat < 16 ∧ (present t.comps).Nodup ∧ padded b 20 then some t else none
  | none => none

/-- The scan-range record. -/
def scanRecordOf (b : List Byte) : Option Scan :=
  match toFin 16 (byteAt b 0).toNat, toFin 16 (byteAt b 1).toNat with
  | some x, some y => if x ≤ y ∧ padded b 2 then some ⟨x, y, x⟩ else none
  | _, _ => none

/-- A positions record. -/
def positionRecordOf (b : List Byte) : Option PositionRecord :=
  match idsAt 1 b 0, sourceOrNone (byteAt b 8), sourceOrNone (byteAt b 9), spliceOf (byteAt b 10) with
  | some ids, some base, some fallback, some policy => if padded b 11 then some ⟨ids, base, fallback, policy⟩ else none
  | _, _, _, _ => none

/-- Whether the shares of a plan are within their ranges (R116). -/
def Plan.inRange (p : Plan) : Bool := p.shares.toList.all (fun n => decide (n ≤ 4095)) && decide (p.carousel ≤ 255)

/-- A feeds record. -/
def feedRecordOf (b : List Byte) : Option FeedRecord :=
  match boolOf (byteAt b 4), boolOf (byteAt b 5) with
  | some autostart, some activeB =>
    let rate := natAt b 0 4
    if Config.lowestRate ≤ rate ∧ rate ≤ Config.highestRate ∧ (planAt b 6).inRange ∧ (planAt b 23).inRange ∧ padded b 40 then
      some ⟨rate, autostart, activeB, planAt b 6, planAt b 23⟩
    else none
  | _, _ => none

/-- A carousel record. -/
def carouselRecordOf (b : List Byte) : Option CarouselRecord :=
  match toFin 6 (byteAt b 0).toNat, toFin 16 (byteAt b 1).toNat with
  | some f, some c =>
    let id := natAt b 2 2
    let interval := (byteAt b 4).toNat
    if 1 ≤ id ∧ id ≤ 8190 ∧ 1 ≤ interval ∧ interval ≤ 250 ∧ padded b 189 then
      some ⟨f, c, id, interval, (b.drop 5).take 184⟩
    else none
  | _, _ => none

/-- A cue-lines record. -/
def lineRecordOf (b : List Byte) : Option LineRecord :=
  match lineModeOf (byteAt b 0), toFin 6 (byteAt b 1).toNat, toFin 8 (byteAt b 2).toNat, toFin 16 (byteAt b 3).toNat with
  | some m, some f, some p, some x => some ⟨m, f, p, x⟩
  | _, _, _, _ => none

/-! ### Sections (12.5, R173) -/

/-- A number of records of a size, each read by a reader; none where one does not pass. -/
def records {α : Type} (read : List Byte → Option α) (size : Nat) : Nat → List Byte → Option (List α)
  | 0, _ => some []
  | n + 1, b =>
    match read (b.take size), records read size n (b.drop size) with
    | some x, some rest => some (x :: rest)
    | _, _ => none

/-- One section: its opening (code, count, record bytes), its records, and the bytes after it. The count is judged by `counts`;
a section cut short fails. -/
def sectionOf {α : Type} (code : Nat) (counts : Nat → Bool) (size : Nat) (read : List Byte → Option α) (b : List Byte) :
    Option (List α × List Byte) :=
  let n := (byteAt b 1).toNat
  if 4 + n * size ≤ b.length ∧ (byteAt b 0).toNat = code ∧ counts n ∧ natAt b 2 2 = n * size then
    match records read size n (b.drop 4) with
    | some l => some (l, b.drop (4 + n * size))
    | none => none
  else none

/-- The sections of an image in their order, with nothing left over (R166, R173). -/
def imageOf (b : List Byte) : Option Image := do
  let (ports, b) ← sectionOf 1 (· == 4) 8 portRecordOf b
  let (sources, b) ← sectionOf 2 (· == 16) 32 sourceRecordOf b
  let (scan, b) ← sectionOf 3 (· == 1) 4 scanRecordOf b
  let (positions, b) ← sectionOf 4 (· == 48) 16 positionRecordOf b
  let (feeds, b) ← sectionOf 5 (· == 6) 64 feedRecordOf b
  let (carousel, b) ← sectionOf 6 (fun n => decide (n ≤ 96)) 192 carouselRecordOf b
  let (lines, b) ← sectionOf 7 (· == 8) 4 lineRecordOf b
  match scan, b with
  | [range], [] => some ⟨ports, sources, range, positions, feeds, carousel, lines⟩
  | _, _ => none

/-! ### The cross checks (R166, R167) -/

/-- The identifiers of a feed in an image (R134, R167). -/
def Image.feedIds (m : Image) (f : FeedNo) : List Nat :=
  ((m.positions.drop (f.val * 8)).take 8).flatMap (fun r => present r.ids) ++
  (m.carousel.filter fun r => r.feed = f).map CarouselRecord.id

/-- Whether the active plan of a feeds record is within budget (R167). -/
def FeedRecord.withinBudget (r : FeedRecord) (rate : FrameRate) : Bool :=
  decide ((if r.activeB then r.planB else r.planA).total ≤ capacityOf r.rate rate)

/-- Whether no two carousel records name the same slot (R166), and the quotas, identifiers and active plans pass (R167). -/
def Image.passes (m : Image) (rate : FrameRate) : Bool :=
  decide (m.carousel.map fun r => (r.feed, r.slot)).Nodup &&
  decide ((m.ports.map PortRecord.quota).sum ≤ Config.listPlaces) &&
  (allFeeds.all fun f => decide (m.feedIds f).Nodup) && m.feeds.all fun r => r.withinBudget rate

/-! ### Applying the image (R168) -/

/-- A port takes its authority, and its speed from its first quiet moment (R147, R162). -/
def State.applyPort (s : State) (p : PortNo) (r : PortRecord) : State :=
  let x := s.port p
  let s := s.setPort p { x with
    authority := r.authority
    pendingSpeed := if r.speed = x.speed then none else some r.speed }
  { s with list := { s.list with quotas := tset s.list.quotas p r.quota } }

/-- A source takes its table entry and, if enabled, becomes HEALTHY on a fresh interval (R98, R113). -/
def Source.configured (x : Source) (t : SourceEntry) : Source := x.withTable t

/-- A position takes its settings, and its base is judged (R56). -/
def State.applyPosition (s : State) (f : FeedNo) (p : PosNo) (r : PositionRecord) : State :=
  s.setPos f p { s.pos f p with
    ids := r.ids
    base := r.base
    fallback := r.fallback
    policy := r.policy
    baseMark := s.markFor r.base r.fallback }

/-- A feed takes its rate, plans and active plan; a start is pending where it is marked autostart (R127). -/
def Feed.configured (x : Feed) (r : FeedRecord) (rate : FrameRate) : Feed :=
  { x with
    rate := r.rate
    capacity := capacityOf r.rate rate
    planA := r.planA
    planB := r.planB
    activeB := r.activeB
    startPending := r.autostart }

/-- A carousel record in its slot, countdown at its interval, due (R146). -/
def State.applyTable (s : State) (r : CarouselRecord) : State :=
  let x := s.feed r.feed
  s.setFeed r.feed { x with carousel := tset x.carousel r.slot (some ⟨r.id, r.interval, r.payload, r.interval, true⟩) }

/-- A cue line takes its mode and target, level low, pulse clear (R80). -/
def CueLine.configured (l : CueLine) (r : LineRecord) : CueLine :=
  { l with mode := r.mode, level := false, pulse := false, feed := r.feed, position := r.position, source := r.source }

/-- The ports' part of an image (R168). -/
def State.applyPorts (s : State) (m : Image) : State := (allPorts.zip m.ports).foldl (fun s r => s.applyPort r.1 r.2) s

/-- The sources' part of an image (R168). -/
def State.applySources (s : State) (m : Image) : State :=
  (allSources.zip m.sources).foldl (fun s r => s.setSrc r.1 ((s.src r.1).configured r.2)) s

/-- The positions' part of an image (R168). -/
def State.applyPositions (s : State) (m : Image) : State :=
  (allPositions.zip m.positions).foldl (fun s r => s.applyPosition r.1.1 r.1.2 r.2) s

/-- The feeds' part of an image (R168). -/
def State.applyFeeds (s : State) (m : Image) : State :=
  (allFeeds.zip m.feeds).foldl (fun s r => s.setFeed r.1 ((s.feed r.1).configured r.2 s.clock.rate)) s

/-- The carousel's part of an image (R168). -/
def State.applyTables (s : State) (m : Image) : State := m.carousel.foldl State.applyTable s

/-- The cue lines' part of an image (R168). -/
def State.applyLines (s : State) (m : Image) : State :=
  (allLines.zip m.lines).foldl (fun s r => s.setLine r.1 ((s.line r.1).configured r.2)) s

/-- Every block takes its settings from an image that has passed (R168). The sources come before the positions, whose bases are judged
against their health (R56). -/
def State.applyImage (s : State) (m : Image) : State :=
  let s := (s.applyPorts m).applySources m
  (((({ s with scan := m.scan }.applyPositions m).applyFeeds m).applyTables m).applyLines m)

/-! ### The read (R164, R165) -/

/-- The end of the load without an image: every block keeps its reset values, and the scan pointer is put at 0 (R113, R169). -/
def State.defaulted (s : State) : State :=
  { s with loader := { s.loader with state := .defaulted, phase := .ended }, scan := ⟨0, 15, 0⟩ }

/-- The verdict on the bytes of the holding store (R165 to R168). -/
def State.verdict (s : State) : State :=
  if ~~~s.loader.crc ≠ s.loader.check then s.defaulted
  else match imageOf s.loader.store with
    | some m =>
      if m.passes s.clock.rate then
        { s with loader := { s.loader with state := .ready, phase := .ended } }.applyImage m
      else s.defaulted
    | none => s.defaulted

/-- A header byte read (R164, 12.5: the format, the length in 2 bytes, the check in 4). A format other than 1 ends the load at the
format byte, and a length out of range at the last length byte; after the 7th byte the read goes on to the sections. A byte after
the end of the header is not clocked in by it. -/
def State.headerByte (s : State) (b : Byte) : State :=
  if s.loader.phase ≠ .header then s
  else
    let h := s.loader.header ++ [b]
    let s := { s with loader := { s.loader with header := h } }
    if h.length = 1 ∧ b ≠ 1 then s.defaulted
    else if h.length = 3 ∧ (natAt h 1 2 < 1078 ∨ 24576 < natAt h 1 2) then s.defaulted
    else if h.length < 7 then s
    else { s with loader := { s.loader with
      phase := .sections, store := [], crc := 0xFFFFFFFF, check := BitVec.ofNat 32 (natAt h 3 4), remaining := natAt h 1 2 } }

/-- The image header read, byte by byte (R164). -/
def State.readHeader (s : State) (bytes : List Byte) : State := bytes.foldl State.headerByte s

/-- Section bytes read into the holding store; no byte beyond the length is clocked in. The last one brings the verdict
(R164, R165). -/
def State.readSections (s : State) (bytes : List Byte) : State :=
  if s.loader.phase ≠ .sections then s
  else
    let b := bytes.take s.loader.remaining
    let l : Loader := { s.loader with
      store := s.loader.store ++ b
      crc := crc32Feed s.loader.crc b
      remaining := s.loader.remaining - b.length }
    let s := { s with loader := l }
    if l.remaining = 0 then s.verdict else s

/-- RESETN released: the frame rate is fixed and the loader begins its read (R15, R163, R164). -/
def State.release (s : State) (frsel : Bool) : State :=
  let r := State.heldAt (.ofFrsel frsel) s.pending
  { r with held := false, loader := { r.loader with phase := .header } }

end Sys2Proof.Machine
end

