-- ==== Sys2Proof/Machine/ResetCommands.lean ====
section
/-! DEFINITION. The commands of reset and start-up. -/

namespace Sys2Proof.Machine

/-- RESET_ASSERT (R15): every block at its reset values, the frame rate following FRSEL. -/
def execResetAssert (frsel : Bool) (s : State) : Host.Outcome State Fault Refusal :=
  .next (State.heldAt (.ofFrsel frsel) s.pending)

/-- RESET_RELEASE (R15, R164): from the held part; RESETN is not released twice. -/
def execResetRelease (frsel : Bool) (s : State) : Host.Outcome State Fault Refusal :=
  .next (if s.held then s.release frsel else s)

/-- IMAGE_HEADER_READ (R164): the 7 bytes of the header, in the order of 12.5. -/
def execImageHeaderRead (format : Byte) (length : Vector Byte 2) (check : Vector Byte 4) (s : State) :
    Host.Outcome State Fault Refusal :=
  s.act fun s => s.readHeader ([format] ++ length.toList ++ check.toList)

/-- IMAGE_READ_COMPLETE (R165 to R169). -/
def execImageReadComplete (bytes : List Byte) (s : State) : Host.Outcome State Fault Refusal :=
  s.act fun s => s.readSections bytes

/-- LINE_SPEED_CHANGE (R147). -/
def execLineSpeedChange (port : PortNo) (s : State) : Host.Outcome State Fault Refusal :=
  s.actPiece (.lineSpeed port)

end Sys2Proof.Machine
end

