-- ==== Sys2Proof/Machine/Dispatch.lean ====
section
/-! DEFINITION. The meaning of every command: one arm for each constructor. -/

namespace Sys2Proof.Machine

def exec (i : Instr) (s : State) : Host.Outcome State Fault Refusal :=
  match i with
  | .resetAssert frsel => Sys2Proof.Machine.execResetAssert frsel s
  | .resetRelease frsel => Sys2Proof.Machine.execResetRelease frsel s
  | .imageHeaderRead format length check => Sys2Proof.Machine.execImageHeaderRead format length check s
  | .imageReadComplete bytes => Sys2Proof.Machine.execImageReadComplete bytes s
  | .lineSpeedChange port => Sys2Proof.Machine.execLineSpeedChange port s
  | .flywheelUnderflow order => Sys2Proof.Machine.execFlywheelUnderflow order s
  | .lateWindowExpiry => Sys2Proof.Machine.execLateWindowExpiry s
  | .houseReferencePulse order => Sys2Proof.Machine.execHouseReferencePulse order s
  | .windowEnd feed position => Sys2Proof.Machine.execWindowEnd feed position s
  | .forcedSwitch feed position => Sys2Proof.Machine.execForcedSwitch feed position s
  | .carouselDueMaking feed slot => Sys2Proof.Machine.execCarouselDueMaking feed slot s
  | .packetArrival source byte => Sys2Proof.Machine.execPacketArrival source byte s
  | .slotEvent feed => Sys2Proof.Machine.execSlotEvent feed s
  | .controlFrame port byte => Sys2Proof.Machine.execControlFrame port byte s
  | .byteGapExpiry port => Sys2Proof.Machine.execByteGapExpiry port s
  | .replySent port => Sys2Proof.Machine.execReplySent port s
  | .unknownRequest port sequence code body => Sys2Proof.Machine.execUnknownRequest port sequence code body s
  | .setTime port sequence body => Sys2Proof.Machine.execSetTime port sequence body s
  | .readTime port sequence body => Sys2Proof.Machine.execReadTime port sequence body s
  | .postEntry port sequence body => Sys2Proof.Machine.execPostEntry port sequence body s
  | .cancelEntry port sequence body => Sys2Proof.Machine.execCancelEntry port sequence body s
  | .clearEntries port sequence body => Sys2Proof.Machine.execClearEntries port sequence body s
  | .listEntries port sequence body => Sys2Proof.Machine.execListEntries port sequence body s
  | .setPosition port sequence body => Sys2Proof.Machine.execSetPosition port sequence body s
  | .release port sequence body => Sys2Proof.Machine.execRelease port sequence body s
  | .examinePosition port sequence body => Sys2Proof.Machine.execExaminePosition port sequence body s
  | .setCueLine port sequence body => Sys2Proof.Machine.execSetCueLine port sequence body s
  | .setSource port sequence body => Sys2Proof.Machine.execSetSource port sequence body s
  | .readSource port sequence body => Sys2Proof.Machine.execReadSource port sequence body s
  | .setScan port sequence body => Sys2Proof.Machine.execSetScan port sequence body s
  | .ackFaults port sequence body => Sys2Proof.Machine.execAckFaults port sequence body s
  | .readHealth port sequence body => Sys2Proof.Machine.execReadHealth port sequence body s
  | .editPlan port sequence body => Sys2Proof.Machine.execEditPlan port sequence body s
  | .swapPlan port sequence body => Sys2Proof.Machine.execSwapPlan port sequence body s
  | .setFeedRate port sequence body => Sys2Proof.Machine.execSetFeedRate port sequence body s
  | .startFeed port sequence body => Sys2Proof.Machine.execStartFeed port sequence body s
  | .stopFeed port sequence body => Sys2Proof.Machine.execStopFeed port sequence body s
  | .readPlan port sequence body => Sys2Proof.Machine.execReadPlan port sequence body s
  | .readFeed port sequence body => Sys2Proof.Machine.execReadFeed port sequence body s
  | .loadTable port sequence body => Sys2Proof.Machine.execLoadTable port sequence body s
  | .dropTable port sequence body => Sys2Proof.Machine.execDropTable port sequence body s
  | .setMask port sequence body => Sys2Proof.Machine.execSetMask port sequence body s
  | .readEvents port sequence body => Sys2Proof.Machine.execReadEvents port sequence body s
  | .readOutcomes port sequence body => Sys2Proof.Machine.execReadOutcomes port sequence body s
  | .readPort port sequence body => Sys2Proof.Machine.execReadPort port sequence body s
  | .sourcePortByte source byte => Sys2Proof.Machine.execSourcePortByte source byte s
  | .controlPortByte port byte framing => Sys2Proof.Machine.execControlPortByte port byte framing s

end Sys2Proof.Machine
end

