-- ==== Sys2Proof/Safety.lean ====
section
/-! DEFINITION. What a sound state is: the bounds and relations that the spec says hold of the part at every moment. -/

namespace Sys2Proof.Machine

/-- The clock (R3, R4, R6, R7, R11, R13): a valid time of day, a valid pending load, the run count 0 to 3, the timer 1 to the ticks per
frame, and at 1 while an underflow stands to be taken. From the frame-start tick to the next underflow there are one frame of ticks
and at most 270 more, and no more than one frame while the late window is open, which is then that of the latest frame event. -/
def Clock.Sound (c : Clock) : Prop :=
  c.tod.valid c.rate = true ∧ (∀ t, c.load = some t → t.valid c.rate = true) ∧ c.run ≤ 3 ∧
    (1 ≤ c.timer ∧ c.timer ≤ c.rate.ticks) ∧ (c.atUnderflow = true → c.timer = 1) ∧
    (c.rate.ticks ≤ (c.tick - c.frameStart).toNat + c.untilUnderflow ∧
      (c.tick - c.frameStart).toNat + c.untilUnderflow ≤ c.rate.ticks + 270) ∧
    ∀ u, c.late = some u → u = c.frameStart ∧ (c.tick - u).toNat ≤ 271 ∧
      (c.tick - u).toNat + c.untilUnderflow = c.rate.ticks

/-- The switch list (R16, R20): quotas that sum to at most 128, a pool use within the pool, and at most 128 entries. -/
def SwitchList.Sound (l : SwitchList) : Prop :=
  (allPorts.map fun p => tget l.quotas p).sum ≤ Config.listPlaces ∧ l.poolUse ≤ l.pool ∧
    l.entries.length ≤ Config.listPlaces

/-- The order of the switch list (R16): the late entries at its head, and then the scheduled ones by their distance, nearest first, each
1 to D/2 frames ahead. -/
def State.ListOrdered (s : State) : Prop :=
  ∃ late rest, s.list.entries = late ++ rest ∧ (∀ e, e ∈ late → e.late = true) ∧
    (∀ e, e ∈ rest → e.late = false ∧ e.due < s.day ∧ 1 ≤ distance e.due s.now s.day ∧
      distance e.due s.now s.day ≤ s.day / 2) ∧
    (rest.map fun e => distance e.due s.now s.day).Pairwise (· ≤ ·)

/-- A selection stack (R41): with its base at most 4 entries, classes never decreasing from bottom to top. -/
def Position.StackSound (x : Position) : Prop :=
  x.upper.length ≤ Config.stackUpper ∧ (x.upper.map fun e => e.cls.rank).Pairwise (· ≤ ·)

/-- A transition slot (R57), for a position of a feed that runs or not: a search seeks the effective source and not the one on air; a
steady slot of a running feed reads the effective source; a stopped feed's slot is STEADY with both cursors detached. -/
def Position.SlotSound (x : Position) (running : Bool) : Prop :=
  match running, x.slot with
  | true, .steady => x.onAirSource = x.effective
  | true, .seeking t _ _ => x.effective = some t ∧ x.onAirSource ≠ some t
  | false, .steady => x.onAir = none
  | false, .seeking _ _ _ => False

/-- A source (R91, R96, R101, R102): at most 512 packets held, and every saturating count within its range. -/
def Source.Sound (x : Source) : Prop :=
  x.ring.length ≤ Config.ringPlaces ∧ x.overrunTotal ≤ 65535 ∧ x.staleTotal ≤ 65535 ∧ x.contTotal ≤ 65535 ∧ x.n ≤ 65535 ∧
    x.e ≤ 65535 ∧ x.k ≤ 255 ∧ x.badCount ≤ 7 ∧ x.goodCount ≤ 7

/-- The rings (R91 to R93): while a cursor is attached to a ring, on-air or preview, it holds as many packets as its backlog, the largest
lag among its cursors. So no lag is larger than what the ring holds. -/
def State.RingsSound (s : State) : Prop := ∀ i, s.lags i ≠ [] → (s.src i).ring.length = s.backlog i

/-- When an entry carries a substitution mark (R50): its source is FAULTED or DISABLED and permits the fallback, and the position's fallback
is neither. -/
def State.markDue (s : State) (source fallback : Option SrcNo) : Prop :=
  ∃ i j, source = some i ∧ fallback = some j ∧ ((s.src i).health = .faulted ∨ (s.src i).health = .disabled) ∧
    (s.src i).table.fallbackPermit = true ∧ (s.src j).health ≠ .faulted ∧ (s.src j).health ≠ .disabled

/-- Every substitution mark, of a base and of a stack entry, is the one that R50 gives (R50, R51). -/
def State.MarksSound (s : State) : Prop :=
  ∀ f p, ((s.pos f p).baseMark = true ↔ s.markDue (s.pos f p).base (s.pos f p).fallback) ∧
    ∀ e, e ∈ (s.pos f p).upper → (e.mark = true ↔ s.markDue (some e.source) (s.pos f p).fallback)

/-- The frame capacity of every feed is that of its rate at the station's frame rate (R115). -/
def State.CapacitySound (s : State) : Prop := ∀ f, (s.feed f).capacity = (s.feed f).rate / (1504 * s.clock.rate.fps)

/-- The identifiers of each feed's positions and carousel slots are pairwise distinct (R38, R134). -/
def State.IdsSound (s : State) : Prop := ∀ f, (s.feedIds f none none).Nodup

/-- The scan range and its pointer (R99, R100): the first source is not above the last, and the pointer stands between them. -/
def Scan.Sound (c : Scan) : Prop := c.first ≤ c.pointer ∧ c.pointer ≤ c.last

/-- A feed (R115, R116, R118, R125): the active plan within budget, so too the shadow while its swap is pending; the rate within its
range; the remainder below the rate while RUNNING; the counters in their canonical form. -/
def Feed.Sound (x : Feed) : Prop :=
  x.active.total ≤ x.capacity ∧ (x.swapPending = true → x.shadow.total ≤ x.capacity) ∧
    (Config.lowestRate ≤ x.rate ∧ x.rate ≤ Config.highestRate) ∧ (x.running = true → x.remainder < x.rate) ∧
    countersWf x.counters = true

/-- An item that is the reply being sent (R151). -/
def Item.isAnswering : Item → Bool
  | .answering _ => true
  | _ => false

/-- A control port (R149, R151, R152, R159): a log of at most 16 records; at most 4 waiting requests and 4 BUSY owed; no waiting
request at the head, and no reply being sent behind it. -/
def ControlPort.Sound (x : ControlPort) : Prop :=
  x.log.length ≤ Config.logPlaces ∧ (x.replies.filter Item.isWaiting).length ≤ Config.replyPlaces ∧
    (x.replies.filter Item.isBusy).length ≤ Config.replyPlaces ∧ x.badFrames ≤ 65535 ∧
    (x.replies.head?.all fun i => !i.isWaiting) = true ∧ (x.replies.tail.all fun i => !i.isAnswering) = true

/-- While the loader reads, it is LOADING, and the other blocks stand as reset left them in what a request or an entry would have to
change first (R153, R163): no entry in the list, no selection above a base, no feed started, starting or swapping, and no table in a
carousel. -/
def State.LoadSound (s : State) : Prop :=
  s.loader.phase = .header ∨ s.loader.phase = .sections →
    s.loader.state = .loading ∧ s.list.entries = [] ∧ (∀ f p, (s.pos f p).upper = []) ∧
      ∀ f, (s.feed f).running = false ∧ (s.feed f).startPending = false ∧ (s.feed f).swapPending = false ∧
        ∀ c, tget (s.feed f).carousel c = none

/-- The tags of a port's live items: those of its list entries and of its stack entries at every position (R18). -/
def State.liveTags (s : State) (p : PortNo) : List Tag :=
  (s.list.entries.filter fun e => e.owner = p).map Entry.tag ++
    allPositions.flatMap fun fp => ((s.pos fp.1 fp.2).upper.filter fun e => e.owner = p).map StackEntry.tag

/-! ### What the statements speak of -/

/-- RESETN is released, no piece of a frame event is still due (log 6), and no quiet port has a speed to take (R147, log 35). Any other
command than those of such pieces acts on the state in which they are taken, which this one is. -/
def State.awake (s : State) : Prop := s.held = false ∧ s.calm = true

/-- A port that carries a request out as soon as its frame is accepted, and whose part has left LOADING: RESETN released, the reply list
empty (R151, R152, R153 check 2). -/
def State.serves (s : State) (p : PortNo) : Prop :=
  s.awake ∧ s.loader.state ≠ .loading ∧ (s.port p).replies = []

/-- The state in which a port is sending the reply to a request (R152): the sequence echoed, the code with $80 added, this body. -/
def State.answered (s : State) (p : PortNo) (r : Request) (sequence : Byte) (body : List Byte) : State :=
  s.setPort p { s.port p with replies := [.answering (frameBytes sequence (reqCode r + 0x80) body)] }

/-- A position with its stack and settings replaced by an event, and the one change of its effective on-air source, if there is one on a
RUNNING feed, handed to the Transition Unit with this policy and this outcome owner (R53, R54). -/
def State.handedOver (s : State) (f : FeedNo) (p : PosNo) (y : Position) (policy : Splice) (owner : Option Owner) : State :=
  if (s.feed f).running = true ∧ y.effective ≠ (s.pos f p).effective then
    (s.setPos f p y).takeChange f p y.effective policy owner
  else s.setPos f p y

/-- The policy of a change that marks bring (R53): IMMEDIATE where the top entry is marked after it, else the return policy. -/
def Position.policyOfMarks (y : Position) (policy : Splice) : Splice := if y.topMark then .immediate else policy

/-- The bytes from a candidate's first sync byte on: $47 there and, as far as they go, 188 and 376 bytes later (R82). -/
def holdsSync (r : List Byte) : Prop :=
  r[0]? = some 0x47 ∧ (188 < r.length → r[188]? = some 0x47) ∧ (376 < r.length → r[376]? = some 0x47)

/-- A packet that the stale discards of a slot event pass at a position's cursor: one that the position does not carry, or one whose
residence is above its source's stale limit (R92, R135). -/
def State.passes (s : State) (f : FeedNo) (q : PosNo) (c : Cursor) (x : Packet) : Bool :=
  !(s.pos f q).carries x.comp ||
    decide ((s.src c.source).table.staleLimit * s.clock.rate.ticks < (s.clock.tick - x.arrival).toNat)

/-- The packets from a cursor's next one on (R92). -/
def State.unreadAt (s : State) (c : Cursor) : List Packet := (s.src c.source).ring.drop ((s.src c.source).ring.length - c.lag)

/-- The packets that the stale discards of a slot event leave at a position's cursor, its fresh packet first (R135). -/
def State.leftAt (s : State) (f : FeedNo) (q : PosNo) : List Packet :=
  match (s.pos f q).onAir with
  | some c => (s.unreadAt c).dropWhile (s.passes f q c)
  | none => []

/-- The number of packets that a slot event discards as stale at a position (R135). -/
def State.staleAt (s : State) (f : FeedNo) (q : PosNo) : Nat :=
  match (s.pos f q).onAir with
  | some c => (((s.unreadAt c).takeWhile (s.passes f q c)).filter fun x => (s.pos f q).carries x.comp).length
  | none => 0

/-- The stale discards of a slot event counted (R96, R135, R143, log 31): in the feed's stale count, and in the stale-drop total of each
source that an on-air cursor of the feed reads. -/
def StaleCounted (s t : State) (f : FeedNo) : Prop :=
  (t.feed f).counts.stale = min ((s.feed f).counts.stale + (allPlaces.map (s.staleAt f)).sum) 65535 ∧
  ∀ i q, (s.pos f q).onAirSource = some i → (t.src i).staleTotal = min ((s.src i).staleTotal +
    ((allPlaces.filter fun q => (s.pos f q).onAirSource = some i).map (s.staleAt f)).sum) 65535

/-- A position that has no cursor on the ring of a source. -/
def Position.clearOf (x : Position) (i : SrcNo) : Prop := x.onAirSource ≠ some i ∧ x.slot.target ≠ some i

/-- Two sources alike but for their rings, of which the second may have lost its oldest packets (R91). -/
def Source.trimmedTo (x y : Source) : Prop := y = { x with ring := y.ring } ∧ y.ring <:+ x.ring

/-- A source after a packet has been matched, checked and stored in its ring, the oldest of 512 going first, and before any packet that
every cursor has passed is freed (R81, R89, R90, R91, R94). -/
def Source.received (x : Source) (k : Packet) : Source :=
  let error := match tget x.cont k.comp with
    | some last => !k.disc && decide (k.count ≠ last + 1)
    | none => false
  { x with
    bytes := []
    cont := tset x.cont k.comp (some k.count)
    e := if error then min (x.e + 1) 65535 else x.e
    contTotal := if error then min (x.contTotal + 1) 65535 else x.contTotal
    ring := x.ring.drop (x.ring.length - 511) ++ [k]
    n := min (x.n + 1) 65535
    clockSeen := x.clockSeen || (decide (x.table.clockComp = some k.comp) && k.clock.isSome) }

/-- The positions whose search a packet stored in the ring of a source ends (R63): they seek the source and carry component 0, and the
packet is of component 0 and has the entry flag. -/
def State.foundAt (s : State) (i : SrcNo) (k : Packet) : List (FeedNo × PosNo) :=
  allPositions.filter fun fp => decide (k.comp = 0 ∧ k.entry = true ∧ (s.pos fp.1 fp.2).slot.target = some i ∧
    (tget (s.pos fp.1 fp.2).ids 0).isSome = true)

/-- The positions whose on-air cursor the next store pushes: those that stand at the oldest packet of a full ring (R94). -/
def State.pushedAt (s : State) (i : SrcNo) : List (FeedNo × PosNo) :=
  if (s.src i).ring.length < 512 then []
  else allPositions.filter fun fp =>
    (s.pos fp.1 fp.2).onAir.any fun x => decide (x.source = i ∧ (s.src i).ring.length ≤ x.lag)

/-- What the store of a packet has made of the sources, the ports and the positions without a cursor on the ring (R89 to R91, R94, R96,
R68): `t` is the state after it, `s` the one before. While cursors are attached the ring holds the last packets up to the backlog. The
owners of the searches that end have their records, in ascending order of feed and position (log 7); a push raises OVERRUN. -/
def StoreFrame (s t : State) (i : SrcNo) (k : Packet) : Prop :=
  let x := (s.src i).received k
  let u := (s.foundAt i k).foldl (fun u fp => u.ownerDone fp.1 fp.2 (s.pos fp.1 fp.2).slot.owner ⟨false, false, false, false, false⟩) s
  t.src i = { x with
    ring := if t.lags i = [] then x.ring else x.ring.drop (x.ring.length - t.backlog i)
    overrunTotal := if s.pushedAt i = [] then x.overrunTotal else min (x.overrunTotal + (s.pushedAt i).length) 65535 } ∧
  (∀ j, j ≠ i → (s.src j).trimmedTo (t.src j)) ∧ (∀ f p, (s.pos f p).clearOf i → t.pos f p = s.pos f p) ∧
  (∀ q, t.port q = { u.port q with notices := (u.port q).notices |||
    if ((s.pushedAt i).any fun fp => (s.port q).authority.feedMap.getLsbD fp.1) = true then 0x200 else 0 }) ∧
  t = { s with sources := t.sources, positions := t.positions, ports := t.ports }

/-- The records of the searches that the changes of effective source of one event overtake: the event gives every position the stack and
settings `judged`, in ascending order of feed and position (R54, R60, R68, log 7). -/
def State.overtaken (s : State) (judged : FeedNo → PosNo → Position) : State :=
  (allPositions.filter fun fp => decide ((s.feed fp.1).running = true ∧
    (judged fp.1 fp.2).effective ≠ (s.pos fp.1 fp.2).effective)).foldl
      (fun u fp => u.ownerDone fp.1 fp.2 (s.pos fp.1 fp.2).slot.owner ⟨false, false, false, false, true⟩) s

/-- An entry, at the distance `d` (R19) from the new time of day, fires at a frame event; `loaded` says that the event takes a time load
(R24, R31). -/
def Entry.firesAt (e : Entry) (loaded : Bool) (now day : Nat) : Bool :=
  let d := (e.due + day - now % day) % day
  e.late || if loaded then decide (d = 0 ∨ day - 50 < d) else decide (e.due = now)

/-- The entry stays in the list (R24, R31). -/
def Entry.staysAt (e : Entry) (loaded : Bool) (now day : Nat) : Bool :=
  let d := (e.due + day - now % day) % day
  !e.late && if loaded then decide (1 ≤ d ∧ d ≤ day / 2) else decide (e.due ≠ now)

/-- The cue of an entry comes about at a frame event, on a line (R23): it was not applied before, and the entry fires or has come as
near as its lead. -/
def Entry.cuesAt (e : Entry) (l : LineNo) (k : CueKind) (loaded : Bool) (now day : Nat) : Prop :=
  e.cued = false ∧ ∃ c, e.cue = some c ∧ c.line = l ∧ c.kind = k ∧
    (e.firesAt loaded now day = true ∨ e.staysAt loaded now day = true ∧ (e.due + day - now % day) % day ≤ c.lead)

/-- What the pass or the re-evaluation of one frame event does for an entry (R23, R24, R31): it fires, its cue applied first and its late
mark set where a time load made it late; or it stays, its cue applied if it comes about; or its DISCARDED record is made. -/
def State.entryWork (loaded : Bool) (s : State) (e : Entry) : State :=
  if e.firesAt loaded s.now s.day then
    let c := s.applyCue { e with late := e.late || (loaded && decide (s.day - 50 < (e.due + s.day - s.now % s.day) % s.day)) } true
    c.1.fire c.2
  else if e.staysAt loaded s.now s.day then (s.applyCue e false).1
  else s.addOutcome e.owner ⟨e.tag, .discarded, ⟨false, false, false, false, false⟩, e.feed, e.position, s.clock.tod⟩

/-- The body of POST ENTRY (R172): bytes 1 to 17 of the entry record of 12.4. -/
def Entry.posted (e : Entry) : List Byte :=
  natBytes 2 e.tag.toNat ++ [classByte e.cls] ++ natBytes 3 e.due ++
  [nat8 e.feed.val, nat8 e.position.val, actionByte e.action, nat8 e.source.val] ++ natBytes 3 e.window ++ [spliceByte e.splice] ++
  (match e.cue with
   | some c => [nat8 c.line.val, cueKindByte c.kind, nat8 c.lead]
   | none => [0xFF, 0, 0])

/-- An entry that a POST ENTRY body can spell: every field within its bytes, and a field that does not apply at its value of R17. -/
def Entry.spelled (e : Entry) : Prop :=
  e.due < 16777216 ∧ e.window < 16777216 ∧ (∀ w, e.splice = .entry w → 1 ≤ w ∧ w ≤ 255) ∧
    (∀ c, e.cue = some c → c.lead ≤ 255) ∧ (e.action.stacked = false → e.position = 0 ∧ e.splice = .immediate) ∧
    (e.action.sourced = false → e.source = 0) ∧ (e.action ≠ .take → e.window = 0)

/-- A source table entry within the ranges of R84. -/
def SourceEntry.inRange (t : SourceEntry) : Prop :=
  (∀ c n, tget t.comps c = some n → n ≤ 8190) ∧ (∀ c, t.clockComp = some c → (tget t.comps c).isSome) ∧
    (1 ≤ t.staleLimit ∧ t.staleLimit ≤ 50) ∧ t.low ≤ 4095 ∧ t.high ≤ 4095 ∧ (t.rateMode = .band → t.low ≤ t.high) ∧
    t.tolerance ≤ 15 ∧ (1 ≤ t.faultThreshold ∧ t.faultThreshold ≤ 7) ∧ (1 ≤ t.recoveryThreshold ∧ t.recoveryThreshold ≤ 7)

/-- The bytes that lay an image out (R166, R173, 12.5): the openings of the seven sections, every record in its place with its fields
within their ranges, and $00 in every pad byte and stray bit. A quota byte of $FF counts as 16. -/
def Image.laidOut (m : Image) (b : List Byte) : Prop :=
  let n := m.carousel.length
  let record := fun start size k => (b.drop (start + 4 + size * k)).take size
  (b.length = 1760 + 192 * n ∧ n ≤ 96 ∧ m.ports.length = 4 ∧ m.sources.length = 16 ∧ m.positions.length = 48 ∧
    m.feeds.length = 6 ∧ m.lines.length = 8) ∧
  (b.take 4 = [1, 4, 0, 32] ∧ (b.drop 36).take 4 = [2, 16, 2, 0] ∧ (b.drop 552).take 4 = [3, 1, 0, 4] ∧
    (b.drop 560).take 4 = [4, 48, 3, 0] ∧ (b.drop 1332).take 4 = [5, 6, 1, 128] ∧
    (b.drop 1720).take 4 = [6, BitVec.ofNat 8 n] ++ natBytes 2 (192 * n) ∧
    (b.drop (1724 + 192 * n)).take 4 = [7, 8, 0, 32]) ∧
  (∀ k r, m.ports[k]? = some r → ∃ quota : Byte,
    record 0 8 k = [classByte r.authority.classMax, r.authority.feedMap.setWidth 8, r.authority.cueMap,
      boolByte r.authority.configure, quota, speedByte r.speed, 0, 0] ∧
    r.quota = (if quota = 255 then 16 else quota.toNat) ∧ r.quota ≤ 128) ∧
  (∀ k x, m.sources[k]? = some x →
    record 36 32 k = sourceEntryBytes x ++ List.replicate 12 0 ∧ x.inRange ∧ (present x.comps).Nodup) ∧
  (record 552 4 0 = [BitVec.ofNat 8 m.scan.first.val, BitVec.ofNat 8 m.scan.last.val, 0, 0] ∧
    m.scan.first ≤ m.scan.last ∧ m.scan.pointer = m.scan.first) ∧
  (∀ k r, m.positions[k]? = some r →
    record 560 16 k = idsBytes r.ids ++ [sourceByte r.base, sourceByte r.fallback, spliceByte r.policy] ++
      List.replicate 5 0 ∧
    (∀ c i, tget r.ids c = some i → 1 ≤ i ∧ i ≤ 8190) ∧ ∀ w, r.policy = .entry w → 1 ≤ w ∧ w ≤ 50) ∧
  (∀ k r, m.feeds[k]? = some r →
    record 1332 64 k = natBytes 4 r.rate ++ [boolByte r.autostart, boolByte r.activeB] ++ planBytes r.planA ++
      planBytes r.planB ++ List.replicate 24 0 ∧
    (1504000 ≤ r.rate ∧ r.rate ≤ 90240000) ∧ r.planA.inRange = true ∧ r.planB.inRange = true) ∧
  (∀ k r, m.carousel[k]? = some r →
    record 1720 192 k = [BitVec.ofNat 8 r.feed.val, BitVec.ofNat 8 r.slot.val] ++ natBytes 2 r.id ++
      [BitVec.ofNat 8 r.interval] ++ r.payload ++ [0, 0, 0] ∧
    (1 ≤ r.id ∧ r.id ≤ 8190) ∧ (1 ≤ r.interval ∧ r.interval ≤ 250) ∧ r.payload.length = 184) ∧
  ∀ k r, m.lines[k]? = some r →
    record (1724 + 192 * n) 4 k =
      [lineModeByte r.mode, BitVec.ofNat 8 r.feed.val, BitVec.ofNat 8 r.position.val, BitVec.ofNat 8 r.source.val]

/-- What one frame event has made of the switch list, the cue lines and the ports (R16, R23, R24, R31, R74, R75): `t` is the state
after it, `s` the one before. Entries fire, stay or are discarded; a pulse stands for this frame alone. -/
def ListFrame (s t : State) : Prop :=
  let loaded := s.clock.load.isSome
  let now := t.clock.tod.frameOfDay t.clock.rate
  let day := s.day
  t.list = { s.list with entries := (s.list.entries.filter fun e => e.staysAt loaded now day).map fun e => { e with
      cued := e.cued || e.cue.any fun c => decide ((e.due + day - now % day) % day ≤ c.lead) } } ∧
  (∀ e, e ∈ s.list.entries → e.firesAt loaded now day = false → e.staysAt loaded now day = false →
    (t.port e.owner).notices.getLsbD 0 = true) ∧
  (∀ l, t.line l = { s.line l with level := (t.line l).level, pulse := (t.line l).pulse, last := (t.line l).last } ∧
    ((t.line l).pulse = true ↔
      (s.line l).mode = .cue ∧ ∃ e, e ∈ s.list.entries ∧ e.cuesAt l .pulse loaded now day) ∧
    ((∀ e k, e ∈ s.list.entries → ¬e.cuesAt l k loaded now day) → t.line l = { s.line l with pulse := false })) ∧
  ∀ q, t.port q = { s.port q with log := (t.port q).log, notices := (t.port q).notices } ∧
    ∀ k, (s.port q).notices.getLsbD k = true → (t.port q).notices.getLsbD k = true

/-- A position as the start of its feed leaves it (R71): the slot STEADY, and the on-air cursor at the effective source's write point with
all switch marks, or detached with none at a dark position. -/
def Position.attached (x : Position) : Position :=
  { x with slot := .steady, onAir := x.effective.map (⟨·, 0⟩), marks := if x.effective = none then 0 else 0xF }

/-- What one frame event has made of the positions and the sources (R25, R45, R65, R99, R101): a window and a wait count down, an entry
and a search of this event do not; a source's interval is one frame longer; the scan moves on. The positions of a feed that starts attach
(R71). -/
def StackFrame (s t : State) : Prop :=
  let loaded := s.clock.load.isSome
  let now := t.clock.tod.frameOfDay t.clock.rate
  let day := s.day
  (∀ f p x, x ∈ (t.pos f p).upper →
    (∃ y, y ∈ (s.pos f p).upper ∧ x = { y with window := y.window.map (· - 1), mark := x.mark }) ∨
    ∃ e, e ∈ s.list.entries ∧ e.firesAt loaded now day = true ∧ e.action = .take ∧ e.feed = f ∧ e.position = p ∧
      x = ⟨e.cls, e.source, e.owner, e.tag, if e.window = 0 then none else some e.window, x.mark⟩) ∧
  (∀ f p, (∀ e, e ∈ s.list.entries → e.firesAt loaded now day = false) → (s.src s.scan.pointer).table.enabled = false →
    (s.feed f).startPending = false → (∀ y, y ∈ (s.pos f p).upper → y.window ≠ some 0 ∧ y.window ≠ some 1) →
    (∀ i w o, (s.pos f p).slot = .seeking i w o → 2 ≤ w) →
    t.pos f p = { s.pos f p with
      upper := (s.pos f p).upper.map fun y => { y with window := y.window.map (· - 1) }
      slot := match (s.pos f p).slot with
        | .seeking i w o => .seeking i (w - 1) o
        | .steady => .steady }) ∧
  (∀ f p, (∀ e, e ∈ s.list.entries → e.firesAt loaded now day = false) → (s.src s.scan.pointer).table.enabled = false →
    (s.feed f).startPending = true → (∀ y, y ∈ (s.pos f p).upper → y.window ≠ some 0 ∧ y.window ≠ some 1) →
    t.pos f p =
      Position.attached { s.pos f p with upper := (s.pos f p).upper.map fun y => { y with window := y.window.map (· - 1) } }) ∧
  (∀ i, i ≠ s.scan.pointer → (t.src i).ring <:+ (s.src i).ring ∧
    t.src i = { s.src i with k := min ((s.src i).k + 1) 255, ring := (t.src i).ring }) ∧
  t.scan = { s.scan with pointer := if s.scan.pointer = s.scan.last then s.scan.first else s.scan.pointer + 1 }

/-- What one frame event has made of the feeds (R119, R123, R130, R131, R144): no start stays pending, a pending swap is taken, the
shares of a RUNNING feed are those of its active plan, and its carousel counts down, a slot whose countdown runs out being made due now
or as a piece still due (log 6). -/
def FeedFrame (s t : State) : Prop :=
  let loaded := s.clock.load.isSome
  let now := t.clock.tod.frameOfDay t.clock.rate
  ∀ f,
    let x := s.feed f
    let y := t.feed f
    y.startPending = false ∧
    (y.running = true → y.shares = y.active.shares ∧ y.carouselShare = y.active.carousel) ∧
    (x.lastSwap.map Prod.fst ≠ some t.clock.frameStart → x.swapPending = true →
      y.swapPending = false ∧ y.activeB = !x.activeB ∧ y.lastSwap = some (t.clock.frameStart, t.clock.tod)) ∧
    (x.swapPending = false → (∀ e, e ∈ s.list.entries → e.firesAt loaded now s.day = true → e.action ≠ .plan ∨ e.feed ≠ f) →
      y.activeB = x.activeB ∧ y.lastSwap = x.lastSwap) ∧
    (x.lastSwap.map Prod.fst = some t.clock.frameStart →
      y.swapPending = x.swapPending ∧ y.activeB = x.activeB ∧ y.lastSwap = x.lastSwap) ∧
    (x.startPending = false →
      y = { x with
        activeB := y.activeB, swapPending := y.swapPending, lastSwap := y.lastSwap, shares := y.shares,
        carouselShare := y.carouselShare, carousel := y.carousel, counts := { x.counts with late := y.counts.late } } ∧
      (x.running = false → y.carousel = x.carousel ∧ y.counts = x.counts ∧ y.shares = x.shares ∧
        y.carouselShare = x.carouselShare) ∧
      (x.running = true → ∀ c, (tget x.carousel c = none → tget y.carousel c = none) ∧
        ∀ k, tget x.carousel c = some k →
          (2 ≤ k.countdown → tget y.carousel c = some { k with countdown := k.countdown - 1 }) ∧
          (k.countdown ≤ 1 → tget y.carousel c = some { k with countdown := 0 } ∨
            tget y.carousel c = some { k with countdown := k.interval, due := true }))) ∧
    (x.startPending = true → (∀ c k, tget x.carousel c = some k → 1 ≤ k.interval) →
      (y = { x with
        running := true, startPending := false, departure := t.clock.frameStart, remainder := 0, sharePtr := 7, sparePtr := 7,
        counters := [], counts := ⟨0, 0, 0, 0, 0, 0⟩, activeB := y.activeB, swapPending := y.swapPending,
        lastSwap := y.lastSwap, shares := y.shares, carouselShare := y.carouselShare, carousel := y.carousel }) ∧
      ∀ c, tget y.carousel c = (tget x.carousel c).map fun k => { k with countdown := k.interval, due := true })

/-- The notices of one frame event (R7, R8, R11, R106, R107, R119, R155, R159): those of the clock are `n` and no others, and no OVERRUN;
SOURCE FAULT and SOURCE RECOVERED for the source examined, with its permit; PLAN SWAPPED for the ports whose feed map holds a feed that
has swapped at this event; OUTCOME and OUTCOME LOST only with a record in the log, and with a full one. -/
def NoticeFrame (n : NoticeSet) (s t : State) : Prop :=
  let x := s.src s.scan.pointer
  let y := t.src s.scan.pointer
  ∀ q,
    let a := (s.port q).notices
    let b := (t.port q).notices
    b &&& 0x2F0 = (a ||| n) &&& 0x2F0 ∧
    b.getLsbD 2 = (a.getLsbD 2 || (x.table.noticePermit && decide (y.health = .faulted ∧ x.health ≠ .faulted))) ∧
    b.getLsbD 3 = (a.getLsbD 3 || (x.table.noticePermit && decide (x.health = .faulted ∧ y.health ≠ .faulted))) ∧
    (b.getLsbD 8 = true ↔ a.getLsbD 8 = true ∨ ∃ f : FeedNo, (s.port q).authority.feedMap.getLsbD f = true ∧
      (s.feed f).lastSwap.map Prod.fst ≠ some t.clock.frameStart ∧ (t.feed f).lastSwap.map Prod.fst = some t.clock.frameStart) ∧
    (b.getLsbD 0 = true → a.getLsbD 0 = true ∨ (t.port q).log ≠ []) ∧
    (b.getLsbD 1 = true → a.getLsbD 1 = true ∨ (t.port q).log.length = 16)

/-- What one frame event without tasks of its own order does of the firings and the examination (R24, R31, R99): on the state after the
clock's part, with its notices `n`, and the counts, every entry is taken in list order and the source at the scan pointer is examined,
in the order given. Then pending swaps are taken, with PLAN SWAPPED, and pending starts, whose positions attach (R71), and shares
reload (R119, R123, R130, R144). -/
def FiringFrame (examineFirst : Bool) (n : NoticeSet) (s t : State) : Prop :=
  let loaded := s.clock.load.isSome
  let u := { s with
    clock := t.clock, ports := tmap (fun x : ControlPort => { x with notices := x.notices ||| n }) s.ports }.counts
  let w := if examineFirst then s.list.entries.foldl (State.entryWork loaded) u.examine
    else (s.list.entries.foldl (State.entryWork loaded) u).examine
  t.lines = w.lines ∧ t.scan = w.scan ∧
  let swaps := fun f => (w.feed f).swapPending && decide ((w.feed f).lastSwap.map Prod.fst ≠ some t.clock.frameStart)
  (∀ f p, t.pos f p = if (s.feed f).startPending then (w.pos f p).attached else w.pos f p) ∧
  (∀ i, (w.src i).trimmedTo (t.src i)) ∧ ((∀ f, (s.feed f).startPending = false) → t.sources = w.sources) ∧
  (∀ q, t.port q = { w.port q with notices := (w.port q).notices |||
    if (allFeeds.any fun f => swaps f && (w.port q).authority.feedMap.getLsbD f) = true then 0x100 else 0 }) ∧
  ∀ f,
    let x := w.feed f
    let y := if swaps f then
        { x with activeB := !x.activeB, swapPending := false, lastSwap := some (t.clock.frameStart, t.clock.tod) }
      else x
    let z := if y.startPending then
        { y with
          running := true, startPending := false, departure := t.clock.frameStart, remainder := 0, sharePtr := 7, sparePtr := 7,
          counters := [], counts := ⟨0, 0, 0, 0, 0, 0⟩,
          carousel := tmap (Option.map fun k => { k with countdown := k.interval, due := true }) y.carousel }
      else y
    t.feed f = if z.running then { z with shares := z.active.shares, carouselShare := z.active.carousel } else z

/-- Commands carried out one after another. -/
def execAll : List Instr → State → Host.Outcome State Fault Refusal
  | [], s => .next s
  | c :: rest, s =>
    match exec c s with
    | .next t => execAll rest t
    | .fault r => .fault r
    | .refused r => .refused r

end Sys2Proof.Machine

namespace Sys2Proof

/-- The command of a request: its frame accepted on a port, with a sequence and a body. -/
def Instr.ofRequest (r : Request) (p : PortNo) (sequence : Byte) (body : List Byte) : Instr :=
  match r with
  | .readPort => .readPort p sequence body
  | .readEvents => .readEvents p sequence body
  | .setMask => .setMask p sequence body
  | .readOutcomes => .readOutcomes p sequence body
  | .setTime => .setTime p sequence body
  | .readTime => .readTime p sequence body
  | .postEntry => .postEntry p sequence body
  | .cancelEntry => .cancelEntry p sequence body
  | .clearEntries => .clearEntries p sequence body
  | .listEntries => .listEntries p sequence body
  | .setPosition => .setPosition p sequence body
  | .release => .release p sequence body
  | .examinePosition => .examinePosition p sequence body
  | .setCueLine => .setCueLine p sequence body
  | .setSource => .setSource p sequence body
  | .readSource => .readSource p sequence body
  | .setScan => .setScan p sequence body
  | .ackFaults => .ackFaults p sequence body
  | .readHealth => .readHealth p sequence body
  | .editPlan => .editPlan p sequence body
  | .swapPlan => .swapPlan p sequence body
  | .setFeedRate => .setFeedRate p sequence body
  | .startFeed => .startFeed p sequence body
  | .stopFeed => .stopFeed p sequence body
  | .readPlan => .readPlan p sequence body
  | .readFeed => .readFeed p sequence body
  | .loadTable => .loadTable p sequence body
  | .dropTable => .dropTable p sequence body

end Sys2Proof
end

