-- ==== Sys2Proof/Certificates/Slice0/Obligations.lean ====
section
/-! DEFINITION. The statements for the provers. -/

open Sys2Proof Sys2Proof.Machine

/-! ### Reset and the configuration load -/

/-- R15, R36, R56, R72, R80, R98, R113, R127, R146, R162, R163: RESET_ASSERT puts every block at the reset value its chapter gives, the
frame rate following FRSEL, and touches no waiting command (log 28). -/
def Obligations.ResetAssertHoldsEveryBlock : Prop :=
  ∀ (s : State) (frsel : Bool), ∃ t, exec (.resetAssert frsel) s = .next t ∧ t.pending = s.pending ∧ t.held = true ∧
    t.clock = ⟨0, if frsel then .fps30 else .fps25, ⟨0, 0, 0, 0⟩, 0, if frsel then 900000 else 1080000, false, none,
      .unreferenced, 0, none⟩ ∧
    t.list.entries = [] ∧ t.list.nextSeq = 0 ∧ (∀ p, tget t.list.quotas p = if p = 0 then 32 else 16) ∧
    (∀ f p, t.pos f p = ⟨#v[none, none, none, none], none, .entry 25, none, false, [], .steady, none, 0, 0⟩) ∧
    (∀ l, t.line l = ⟨.cue, false, false, 0, 0, 0, none⟩) ∧
    (∀ i, ∃ x : Source, t.src i = { x with
      sync := .hunting, goodRun := 0, badRun := 0, cont := #v[none, none, none, none],
      ring := [], overrunTotal := 0, staleTotal := 0, contTotal := 0, n := 0, e := 0, k := 0, syncBad := true,
      clockSeen := false, health := .disabled, badCount := 0, goodCount := 0, verdict := none,
      latched := ⟨⟨false, false, false, false⟩, none, 0, false⟩,
      table := ⟨false, #v[none, none, none, none], none, 25, ⟨false, false, false, false⟩, .band, 0, 4095, 0, 3, 3,
        false, false⟩ }) ∧
    t.scan = ⟨0, 15, 0⟩ ∧
    (∀ f, ∃ x : Feed, t.feed f = { x with
      running := false, startPending := false, rate := 24128000,
      capacity := if frsel then 534 else 641, planA := ⟨#v[0, 0, 0, 0, 0, 0, 0, 0], 0⟩,
      planB := ⟨#v[0, 0, 0, 0, 0, 0, 0, 0], 0⟩, activeB := false, swapPending := false, lastSwap := none, departure := 0,
      remainder := 0, shares := #v[0, 0, 0, 0, 0, 0, 0, 0], carouselShare := 0, sharePtr := 7, sparePtr := 7,
      carousel := Vector.replicate 16 none, counters := [], counts := ⟨0, 0, 0, 0, 0, 0⟩ }) ∧
    (∀ p, t.port p = ⟨.low, none, .waiting, [],
      if p = 0 then ⟨.alert, 0x3F, 0xFF, true⟩ else ⟨.regional, 0, 0, false⟩, 0, 0, [], 0⟩) ∧
    t.loader.state = .loading

/-- R2, R15, R164: from the held part, RESET_RELEASE fixes the frame rate at FRSEL's level and sets the loader reading, with CFG_CS low
and the command $03 and the address sent; every block stands as RESET_ASSERT with that level leaves it. That the loader then holds no
header bytes, an empty store, the check 0 and 0 bytes to read is the model's choice (log 30). -/
def Obligations.ResetReleaseStartsLoading : Prop :=
  ∀ (s : State) (frsel : Bool), s.held = true →
    ∃ r, exec (.resetAssert frsel) s = .next r ∧
      exec (.resetRelease frsel) s =
        .next { r with held := false, loader := ⟨.loading, .header, [], [], 0xFFFFFFFF, 0, 0⟩ } ∧
      ∀ t, exec (.resetRelease frsel) s = .next t → t.loader.csLow = true ∧ t.loader.sent = [0x03, 0x00, 0x00, 0x00]

/-- The model's choice (log 11, R15): while RESETN is asserted, a command other than the two of RESETN does nothing, and an empty queue
lets no tick pass (R1). -/
def Obligations.HeldPartIgnoresCommands : Prop :=
  ∀ (s : State), s.held = true →
    (∀ c : Instr, (∀ b, c ≠ .resetAssert b) → (∀ b, c ≠ .resetRelease b) → exec c s = .next s) ∧
      (s.pending = [] → step s = .next s)

/-- R164: the 7 bytes of the image header. A format other than 1 ends the read at the format byte, and a length out of range at the last
length byte, with the state DEFAULTED and every other block as it stood, the scan range and pointer at their defaults (R169), CFG_CS
high and CFG_MOSI low. Else the loader goes on, CFG_CS low, to read that many section bytes. -/
def Obligations.ImageHeaderJudged : Prop :=
  ∀ (s : State) (format : Byte) (length : Vector Byte 2) (check : Vector Byte 4),
    s.awake → s.loader.phase = .header → s.loader.header = [] →
    let header := Instr.imageHeaderRead format length check
    let n := (tget length 0).toNat * 256 + (tget length 1).toNat
    (format = 1 → 1078 ≤ n → n ≤ 24576 →
      exec header s =
        .next { s with loader := ⟨s.loader.state, .sections, [format] ++ length.toList ++ check.toList, [], 0xFFFFFFFF,
          tget check 0 ++ tget check 1 ++ tget check 2 ++ tget check 3, n⟩ }) ∧
    (format ≠ 1 →
      exec header s =
        .next { s with
          loader := { s.loader with state := .defaulted, phase := .ended, header := [format] }
          scan := ⟨0, 15, 0⟩ }) ∧
    (format = 1 → (n < 1078 ∨ 24576 < n) →
      exec header s =
        .next { s with
          loader := { s.loader with state := .defaulted, phase := .ended, header := [format] ++ length.toList }
          scan := ⟨0, 15, 0⟩ }) ∧
    ∀ t, exec header s = .next t →
      t.loader.csLow = decide (format = 1 ∧ 1078 ≤ n ∧ n ≤ 24576) ∧ (t.loader.csLow = false → t.loader.mosiLow = true)

/-- R165, R166, R167, R173: when the last section byte has been read, the load ends DEFAULTED where the CRC-32 differs from the check, the
bytes lay no image out, or the image does not pass; else the state is READY. The CRC of the nine bytes $31 to $39 is $FC891918. Bytes
are read as an image exactly where the seven sections, their codes, counts and record bytes, every field, pad byte and stray bit are
as 12.5 has them, where the configure and autostart bytes are 1 for set and 0 for clear, the model's choice (log 32), and any other
value of them fails, the model's reading (log 22); an image passes exactly where no two records name one carousel slot, the quotas sum
to at most 128, the identifiers of each feed differ, and each active plan is within its capacity. -/
def Obligations.SectionsJudged : Prop :=
  (~~~crc32Feed 0xFFFFFFFF [0x31, 0x32, 0x33, 0x34, 0x35, 0x36, 0x37, 0x38, 0x39] = 0xFC891918) ∧
  (∀ (b : List Byte) (m : Image), imageOf b = some m ↔ m.laidOut b) ∧
  (∀ (m : Image) (rate : FrameRate), m.passes rate = true ↔
    (m.carousel.map fun r => (r.feed, r.slot)).Nodup ∧ (m.ports.map PortRecord.quota).sum ≤ 128 ∧
    (∀ f : FeedNo, (((m.positions.drop (8 * f.val)).take 8).flatMap (fun r => present r.ids) ++
      (m.carousel.filter fun r => r.feed = f).map CarouselRecord.id).Nodup) ∧
    ∀ r, r ∈ m.feeds → (if r.activeB then r.planB else r.planA).total ≤ r.rate / (1504 * rate.fps)) ∧
  ∀ (s : State) (bytes : List Byte), s.awake → s.loader.phase = .sections → s.loader.store = [] →
    s.loader.crc = 0xFFFFFFFF → s.loader.remaining = bytes.length →
    (¬(~~~crc32Feed 0xFFFFFFFF bytes = s.loader.check ∧ ∃ m, imageOf bytes = some m ∧ m.passes s.clock.rate = true) →
      exec (.imageReadComplete bytes) s =
        .next { s with
          loader := { s.loader with
            state := .defaulted, phase := .ended, store := bytes,
            crc := crc32Feed 0xFFFFFFFF bytes, remaining := 0 }
          scan := ⟨0, 15, 0⟩ }) ∧
    ((~~~crc32Feed 0xFFFFFFFF bytes = s.loader.check ∧ ∃ m, imageOf bytes = some m ∧ m.passes s.clock.rate = true) →
      ∃ t, exec (.imageReadComplete bytes) s = .next t ∧
        t.loader = { s.loader with
          state := .ready, phase := .ended, store := bytes, crc := crc32Feed 0xFFFFFFFF bytes,
          remaining := 0 })

/-- R168: an image that passes puts each block's settings in place: authority, quota and line speed of each port, source table, scan range
with the pointer at first, position settings with the base judged (R56), rate, plans and start of each feed, carousel, cue lines. An
enabled source is HEALTHY with its counts 0, its interval fresh and every component unseeded (R113); every other source stays
DISABLED, with its interval counters as they stood, the model's reading (log 20). No notice is raised, and each port's pending set,
mask, log, receive state and reply list, the list's entries, the carousel slots that no record names and the rest of each feed stay as
they were (R162, R168). -/
def Obligations.PassedImageApplied : Prop :=
  ∀ (s : State) (bytes : List Byte) (m : Image), s.awake → s.loader.phase = .sections → s.loader.store = [] →
    s.loader.crc = 0xFFFFFFFF → s.loader.remaining = bytes.length → ~~~crc32Feed 0xFFFFFFFF bytes = s.loader.check →
    imageOf bytes = some m → m.passes s.clock.rate = true →
    (∀ i, (s.src i).table.enabled = false ∧ (s.src i).health = .disabled) →
    ∃ t, exec (.imageReadComplete bytes) s = .next t ∧ t.loader.state = .ready ∧ t.scan = m.scan ∧ t.clock = s.clock ∧
      (∀ p, t.port p = { s.port p with authority := (t.port p).authority, pendingSpeed := (t.port p).pendingSpeed }) ∧
      (∀ (p : PortNo) r, m.ports[p.val]? = some r → (t.port p).authority = r.authority ∧ tget t.list.quotas p = r.quota ∧
        (t.port p).pendingSpeed = if r.speed = (s.port p).speed then none else some r.speed) ∧
      t.list = { s.list with quotas := t.list.quotas } ∧
      (∀ (i : SrcNo) r, m.sources[i.val]? = some r →
        (t.src i = if r.enabled then
            { s.src i with
              table := r, cont := (t.src i).cont, health := .healthy, badCount := 0, goodCount := 0, n := 0, e := 0, k := 0,
              syncBad := decide ((s.src i).sync = .hunting), clockSeen := false }
          else { s.src i with table := r, cont := (t.src i).cont }) ∧
        ∀ c, tget (t.src i).cont c = if r.enabled = true ∨ tget r.comps c ≠ tget (s.src i).table.comps c then none
          else tget (s.src i).cont c) ∧
      (∀ (f : FeedNo) (p : PosNo) r, m.positions[f.val * 8 + p.val]? = some r →
        t.pos f p = { s.pos f p with
          ids := r.ids, base := r.base, fallback := r.fallback, policy := r.policy,
          baseMark := t.markFor r.base r.fallback }) ∧
      (∀ f, t.feed f = { s.feed f with
        rate := (t.feed f).rate, capacity := (t.feed f).capacity, planA := (t.feed f).planA, planB := (t.feed f).planB,
        activeB := (t.feed f).activeB, startPending := (t.feed f).startPending, carousel := (t.feed f).carousel }) ∧
      (∀ (f : FeedNo) r, m.feeds[f.val]? = some r → (t.feed f).rate = r.rate ∧ (t.feed f).planA = r.planA ∧
        (t.feed f).planB = r.planB ∧ (t.feed f).activeB = r.activeB ∧ (t.feed f).startPending = r.autostart ∧
        (t.feed f).capacity = capacityOf r.rate s.clock.rate) ∧
      (∀ r, r ∈ m.carousel → tget (t.feed r.feed).carousel r.slot = some ⟨r.id, r.interval, r.payload, r.interval, true⟩) ∧
      (∀ f c, (∀ r, r ∈ m.carousel → ¬(r.feed = f ∧ r.slot = c)) →
        tget (t.feed f).carousel c = tget (s.feed f).carousel c ∧ (s.LoadSound → tget (t.feed f).carousel c = none)) ∧
      (∀ (l : LineNo) r, m.lines[l.val]? = some r →
        t.line l = { s.line l with
          mode := r.mode, level := false, pulse := false, feed := r.feed, position := r.position,
          source := r.source }) ∧
      t.held = false ∧ t.pending = s.pending

/-! ### The station clock -/

/-- R4, R6, R10, R11: at an underflow the timer reloads, the late window opens at its tick, and a frame event at that tick advances the
time of day or takes the pending load; the reference state and the run count stay (R7, R8). The blocks take the frame event in
whatever order: the list passes or is re-evaluated and cues are applied (R16, R23, R24, R31, R74), windows, waits and intervals count
(R25, R45, R65, R99, R101), swaps and starts are taken and the shares reload (R119, R123, R130, R131, R144). TIME LOADED is raised
where a load is taken and no other notice of the clock is, PLAN SWAPPED where a feed swaps, and the positions of a feed that starts
attach to their effective sources (R71, R155). Where the order names no task, the entries of the list are taken in list order, each
that fires having its cue applied and its action carried out and each that is past its DISCARDED record made, and the source at the
scan pointer is examined before or after them. After such an order a window, a wait and a countdown that have run out stand at 0 until
their piece of the frame event is taken (log 6). The command lets time run on to the underflow's tick (log 2). -/
def Obligations.UnderflowMakesFrameEvent : Prop :=
  ∀ (s : State) (order : FrameOrder), s.awake → s.soonest s.clock.untilUnderflow = true →
    let tick := s.clock.tick + BitVec.ofNat 40 s.clock.untilUnderflow
    ∃ t, exec (.flywheelUnderflow order) s = .next t ∧
      t.clock =
        { s.clock with
          tick := tick
          frameStart := tick
          timer := s.clock.rate.ticks
          atUnderflow := false
          late := some tick
          tod := s.clock.load.getD (s.clock.tod.advance s.clock.rate)
          load := none } ∧
      ListFrame s t ∧ StackFrame s t ∧ FeedFrame s t ∧ t.pending = s.pending ∧ t.held = false ∧ t.loader = s.loader ∧
      let n : NoticeSet := if s.clock.load = none then 0 else 0x080
      NoticeFrame n s t ∧ ∀ examineFirst, order = ⟨[], examineFirst, [], []⟩ → FiringFrame examineFirst n s t

/-- R5, R7, R8, R10: a pulse is judged by the timer and the late window. With the timer at 270 or less it makes a frame event, reloads the
timer and locks the reference; outside both windows it counts in the run and does nothing more, but the fourth of a run is a reference
step and makes a frame event. REFERENCE STEP, REFERENCE REGAINED and TIME LOADED go to all ports where R7, R8 and R11 name them, and
only there. The blocks take the frame event in whatever order, as they do an underflow's; where the order names no task, entries fire
and the scanned source is examined as there. After such an order a window, a wait and a countdown that have run out stand at 0 until
their piece of the frame event is taken (log 6). A pulse at the 271st tick finds the late window closed: its expiry comes first (log
13). -/
def Obligations.PulseMakesFrameEvent : Prop :=
  ∀ (s : State) (order : FrameOrder), s.awake →
    let pulse := Instr.houseReferencePulse order
    (s.clock.timer ≤ 270 ∧ (∀ u, s.clock.late = some u → (s.clock.tick - u).toNat ≤ 270) ∨
        270 < s.clock.timer ∧ s.clock.run = 3 ∧ s.clock.late = none →
      ∃ t, exec pulse s = .next t ∧
        t.clock =
          { s.clock with
            frameStart := s.clock.tick
            timer := s.clock.rate.ticks
            atUnderflow := false
            run := 0
            ref := .locked
            tod := s.clock.load.getD (s.clock.tod.advance s.clock.rate)
            load := none } ∧
        ListFrame s t ∧ StackFrame s t ∧ FeedFrame s t ∧ t.pending = s.pending ∧ t.held = false ∧ t.loader = s.loader ∧
        let n : NoticeSet := (if 270 < s.clock.timer then 0x040 else 0) ||| (if s.clock.ref = .flywheel then 0x020 else 0) |||
          if s.clock.load = none then 0 else 0x080
        NoticeFrame n s t ∧ ∀ examineFirst, order = ⟨[], examineFirst, [], []⟩ → FiringFrame examineFirst n s t) ∧
    (270 < s.clock.timer → s.clock.run < 3 → s.clock.late = none →
      exec pulse s = .next { s with clock := { s.clock with run := s.clock.run + 1 } }) ∧
    (s.clock.late = some (s.clock.tick - 271) →
      ∃ u, exec .lateWindowExpiry s = .next u ∧ u.clock.late = none ∧ exec pulse s = exec pulse u)

/-- R6, R8: a pulse in the late window, 0 to 270 ticks after the underflow, reloads the timer, locks the reference and closes the window,
and makes no frame event; the 271st tick closes the window with the loss of a locked reference. The command of the expiry lets time
run on to its tick (log 2). -/
def Obligations.LateWindowCloses : Prop :=
  ∀ (s : State) (u : Tick), s.awake → s.clock.late = some u →
    (∀ order, 270 < s.clock.timer → (s.clock.tick - u).toNat ≤ 270 →
      ∃ ports, exec (.houseReferencePulse order) s =
          .next { s with
            clock :=
              { s.clock with timer := s.clock.rate.ticks, atUnderflow := false, run := 0, ref := .locked, late := none }
            ports := ports } ∧
        ∀ p, tget ports p =
          { s.port p with notices := (s.port p).notices ||| if s.clock.ref = .flywheel then 0x020 else 0 }) ∧
    (s.soonest (u + 271 - s.clock.tick).toNat = true →
      ∃ ports, exec .lateWindowExpiry s =
          .next { s with
            clock := { s.clock with
              tick := u + 271
              timer := (s.advance (u + 271 - s.clock.tick).toNat).clock.timer
              atUnderflow := (s.advance (u + 271 - s.clock.tick).toNat).clock.atUnderflow
              late := none
              ref := if s.clock.ref = .locked then .flywheel else s.clock.ref }
            ports := ports } ∧
        ∀ p, tget ports p =
          { s.port p with notices := (s.port p).notices ||| if s.clock.ref = .locked then 0x010 else 0 })

/-! ### Steps -/

/-- A step takes the command at the front of the queue: it is exec of that command on the state with the queue's rest. The queue of
waiting commands is the model's choice (log 28). -/
def Obligations.StepRunsFrontCommand : Prop :=
  ∀ (s : State) (c : Instr) (rest : List Instr), step { s with pending := c :: rest } = exec c { s with pending := rest }

/-- No command stops the part. That none touches the commands that wait, RESET_ASSERT among them, is the model's choice (log 28). So is
the place of a frame event's pieces (log 6): the commands of window ends, forced switches and due-makings take them, and every other
command but the two of RESETN finds them taken, in the order of those commands for every position and slot; so too, after them, the
speed changes of quiet ports (R147, log 35). Then none is due. -/
def Obligations.CommandsAnswerNextAndKeepQueue : Prop :=
  (∀ (c : Instr) (s : State), ∃ t, exec c s = .next t ∧ t.pending = s.pending) ∧
  ∀ (s : State), s.held = false → (∀ f c k, tget (s.feed f).carousel c = some k → 1 ≤ k.interval) →
    ∃ t : State, t.awake ∧ t.pending = s.pending ∧
      execAll (allPositions.map (fun fp => Instr.windowEnd fp.1 fp.2) ++ allPositions.map (fun fp => Instr.forcedSwitch fp.1 fp.2) ++
        (allFeeds.flatMap fun f => allSources.map fun c => Instr.carouselDueMaking f c) ++
        allPorts.map Instr.lineSpeedChange) s = .next t ∧
      ∀ c : Instr, (∀ b, c ≠ .resetAssert b) → (∀ b, c ≠ .resetRelease b) → (∀ f p, c ≠ .windowEnd f p) →
        (∀ f p, c ≠ .forcedSwitch f p) → (∀ f k, c ≠ .carouselDueMaking f k) → (∀ p, c ≠ .lineSpeedChange p) →
        exec c s = exec c t

/-- The model's choice (log 1): with no command waiting and no timed event due, a step lets one tick pass, which raises the tick count
(R1) and lowers the timer (R4), and nothing else. The tick that would take the timer from 1 to 0 is an underflow's, which then stands
to be taken (log 12). -/
def Obligations.IdleStepPassesOneTick : Prop :=
  ∀ (s : State), s.held = false → s.pending = [] → s.soonest 1 = true →
    step s =
      .next { s with clock := { s.clock with
        tick := s.clock.tick + 1
        timer := if s.clock.timer = 1 then 1 else s.clock.timer - 1
        atUnderflow := decide (s.clock.timer = 1) } }

/-! ### What a frame event makes due, and outcomes -/

/-- R46, R54, R159: at a WINDOW END the entry whose window has ended leaves its stack and its owner's WINDOW END record is made, HIDDEN
where an entry lies above it. A change of effective source on a RUNNING feed is handed over before the record is made, with the return
policy and no owner. Where no change is handed over, the entry not being the top or the feed STOPPED, nothing else changes. Several
entries of one stack that end together leave it bottom first, with one comparison of the effective source, at most one change handed
over, and then their records in that order, each HIDDEN where an entry lay above it. The record of an entry whose own TAKE still
searches is made at once also where no change is handed over and that search goes on, so before the TAKE's outcome: the model's choice
(log 34). A window that has ended stands at 0 until then (log 6). -/
def Obligations.WindowEndRemovesEntry : Prop :=
  (∀ (s : State) (f : FeedNo) (p : PosNo) (low high : List StackEntry) (e : StackEntry), s.held = false →
    (s.pos f p).upper = low ++ e :: high → e.window = some 0 → (∀ x, x ∈ low ∨ x ∈ high → x.window ≠ some 0) →
    let record : Outcome := ⟨e.tag, .windowEnd, ⟨false, false, decide (high ≠ []), false, false⟩, f, p, s.clock.tod⟩
    ∃ t, exec (.windowEnd f p) s = .next t ∧
      t.pos f p = { s.pos f p with
        upper := low ++ high, slot := (t.pos f p).slot, onAir := (t.pos f p).onAir, marks := (t.pos f p).marks } ∧
      t = (s.handedOver f p { s.pos f p with upper := low ++ high } (s.pos f p).policy none).addOutcome e.owner record ∧
      (t.port e.owner).log.getLast? = some record ∧ (t.port e.owner).notices.getLsbD 0 = true ∧
      ((s.feed f).running = false ∨ high ≠ [] →
        t = (s.setPos f p { s.pos f p with upper := low ++ high }).addOutcome e.owner record)) ∧
  ∀ (s : State) (f : FeedNo) (p : PosNo), s.held = false →
    let x := s.pos f p
    let kept := { x with upper := x.upper.filter fun e => e.window ≠ some 0 }
    let records : List (PortNo × Outcome) := x.upper.tails.filterMap fun
      | [] => none
      | e :: above =>
        if e.window = some 0 then
          some (e.owner, ⟨e.tag, .windowEnd, ⟨false, false, decide (above ≠ []), false, false⟩, f, p, s.clock.tod⟩)
        else none
    exec (.windowEnd f p) s =
      .next (records.foldl (fun u r => u.addOutcome r.1 r.2) (s.handedOver f p kept x.policy none))

/-- R66, R68: at a FORCED SWITCH the on-air cursor stands at the write point of the source sought, all switch marks are set, the slot is
STEADY, and the pending owner's record is DONE with FORCED; rings free packets, and nothing else changes. A wait that has run out
stands at 0 until then (log 6). -/
def Obligations.ForcedSwitchMovesCursor : Prop :=
  ∀ (s : State) (f : FeedNo) (p : PosNo) (i : SrcNo) (o : Option Owner), s.held = false →
    (s.pos f p).slot = .seeking i 0 o →
    ∃ sources, exec (.forcedSwitch f p) s =
        .next { s.setPos f p { s.pos f p with slot := .steady, onAir := some ⟨i, 0⟩, marks := 0xF } with
          sources := sources
          ports := match o with
            | some w => (s.addOutcome w.port ⟨w.tag, .done, ⟨w.late, true, false, false, false⟩, f, p, s.clock.tod⟩).ports
            | none => s.ports } ∧
      ∀ j, (s.src j).trimmedTo (tget sources j)

/-- R131: at a due-making the slot is due, its countdown is its interval again, and carousel late counts one, up to 65,535, where the slot
was still due. A countdown that has run out stands at 0 until then (log 6). -/
def Obligations.DueMakingReloadsCountdown : Prop :=
  ∀ (s : State) (f : FeedNo) (c : TableNo) (t : Table), s.held = false → (s.feed f).running = true →
    tget (s.feed f).carousel c = some t → t.countdown = 0 →
    exec (.carouselDueMaking f c) s =
      .next (s.setFeed f { s.feed f with
        carousel := tset (s.feed f).carousel c (some { t with countdown := t.interval, due := true })
        counts := { (s.feed f).counts with
          late := if t.due then min ((s.feed f).counts.late + 1) 65535 else (s.feed f).counts.late } })

/-- R159, R155: a record joins the end of its port's log and OUTCOME is pending; a log of 16 drops its oldest record first, and OUTCOME
LOST is pending too. No other port is touched. -/
def Obligations.OutcomeLogKeepsNewestSixteen : Prop :=
  ∀ (s : State) (p : PortNo) (r : Outcome), (s.port p).log.length ≤ 16 →
    s.addOutcome p r = s.setPort p { s.port p with
      log := (if (s.port p).log.length = 16 then (s.port p).log.tail else (s.port p).log) ++ [r]
      notices := (s.port p).notices ||| if (s.port p).log.length = 16 then 0x003 else 0x001 }

/-- R18, R23, R25 to R29, R42 to R44, R50, R74, R75, R120: what an entry's action and cue do. A TAKE puts its entry above every entry of
its class or lower and below every higher one, carrying its window unless it is 0 and its substitution mark; a full stack takes
nothing, and its record is FAILED with STACK FULL. A RETURN takes the topmost entry of its owner and class out; with none it is FAILED
with NOTHING TO RETURN. A BASE sets the base and its mark. Where one of these changes the effective source of a RUNNING feed's
position, the Transition Unit takes the change with the entry's splice and its owner; else its record is DONE at once, HIDDEN below a
higher entry. A PLAN swaps the plans, unless the feed has swapped at this frame event or is to swap at it, and is FAILED with
OVERBOOKED where the shadow is above the capacity. A CUE is DONE. A cue that comes about is applied to its line once: a pulse, or the
level inverted, and the line's last cue, but nothing to a line in TALLY mode. -/
def Obligations.EntriesFire : Prop :=
  ∀ (s : State) (e : Entry),
    let x := s.pos e.feed e.position
    let record := fun (kind : OutcomeKind) (hidden : Bool) =>
      (⟨e.tag, kind, ⟨e.late, false, hidden, false, false⟩, e.feed, e.position, s.clock.tod⟩ : Outcome)
    let stacked := fun (y : Position) (hidden : Bool) =>
      if (s.feed e.feed).running = true ∧ y.effective ≠ x.effective then
        (s.setPos e.feed e.position y).takeChange e.feed e.position y.effective e.splice (some ⟨e.owner, e.tag, e.late⟩)
      else (s.setPos e.feed e.position y).addOutcome e.owner (record .done hidden)
    (e.action = .take →
      (3 ≤ x.upper.length → s.fire e = s.addOutcome e.owner (record (.failed .stackFull) false)) ∧
      (∀ low high, x.upper = low ++ high → low.length + high.length < 3 → (∀ y, y ∈ low → y.cls.rank ≤ e.cls.rank) →
        (∀ y, y ∈ high → e.cls.rank < y.cls.rank) →
        s.fire e = stacked
          { x with upper := low ++ [⟨e.cls, e.source, e.owner, e.tag, if e.window = 0 then none else some e.window,
            s.markFor (some e.source) x.fallback⟩] ++ high } (decide (high ≠ [])))) ∧
    (e.action = .giveBack →
      ((∀ y, y ∈ x.upper → ¬(y.owner = e.owner ∧ y.cls = e.cls)) →
        s.fire e = s.addOutcome e.owner (record (.failed .nothingToReturn) false)) ∧
      (∀ low y high, x.upper = low ++ y :: high → y.owner = e.owner → y.cls = e.cls →
        (∀ z, z ∈ high → ¬(z.owner = e.owner ∧ z.cls = e.cls)) →
        s.fire e = stacked { x with upper := low ++ high } (decide (high ≠ [])))) ∧
    (e.action = .base →
      s.fire e = stacked { x with base := some e.source, baseMark := s.markFor (some e.source) x.fallback }
        (decide (x.upper ≠ []))) ∧
    (e.action = .plan →
      let y := s.feed e.feed
      let shadow := if y.activeB then y.planA else y.planB
      let swaps := y.swapPending = false ∧ y.lastSwap.map Prod.fst ≠ some s.clock.frameStart
      (¬swaps → s.fire e = s.addOutcome e.owner (record .done false)) ∧
      (swaps → y.capacity < shadow.total → s.fire e = s.addOutcome e.owner (record (.failed .overbooked) false)) ∧
      (swaps → shadow.total ≤ y.capacity →
        ∃ ports, (∀ q, tget ports q = { s.port q with
            notices := (s.port q).notices ||| if (s.port q).authority.feedMap.getLsbD e.feed then 0x100 else 0 }) ∧
          s.fire e = ({ s.setFeed e.feed { y with
            activeB := !y.activeB
            lastSwap := some (s.clock.frameStart, s.clock.tod)
            shares := if y.running then shadow.shares else y.shares
            carouselShare := if y.running then shadow.carousel else y.carouselShare } with ports := ports } : State).addOutcome e.owner
              (record .done false))) ∧
    (e.action = .cue → s.fire e = s.addOutcome e.owner (record .done false)) ∧
    ∀ fires : Bool,
      (∀ c, e.cue = some c → e.cued = false →
        (fires = true ∨ (e.due + s.day - s.now % s.day) % s.day ≤ c.lead) →
        let l := s.line c.line
        s.applyCue e fires =
          (s.setLine c.line (if l.mode = .tally then l else { l with
              level := if c.kind = .toggle then !l.level else l.level
              pulse := if c.kind = .pulse then true else l.pulse
              last := some ⟨e.owner, c.kind, s.clock.tod⟩ }),
            { e with cued := true })) ∧
      ((∀ c, e.cue = some c → e.cued = true ∨ fires = false ∧ c.lead < (e.due + s.day - s.now % s.day) % s.day) →
        s.applyCue e fires = (s, e))

/-- R59, R60, R61, R62, R68: what becomes of a change of effective source. A change to dark, or with policy IMMEDIATE, or with an ENTRY
that degrades for want of a key component, is made at once; one to the source on air moves nothing but ends a search; else an ENTRY
begins a search from a STEADY slot, with that wait and owner, and retargets one under way on the wait it has. The owner of an
overtaken search gets DONE with SUPERSEDED; the new owner gets DONE, or waits on the search. Rings free packets; nothing else changes. -/
def Obligations.ChangeTaken : Prop :=
  ∀ (s : State) (f : FeedNo) (p : PosNo) (t : Option SrcNo) (policy : Splice) (o : Option Owner),
    ∃ sources, (∀ j, (s.src j).trimmedTo (tget sources j)) ∧
    (∀ i, t = some i → (tget (s.src i).table.comps 0).isSome → (tget (s.pos f p).ids 0).isSome → ∀ w, policy = .entry w →
      t ≠ (s.pos f p).onAirSource →
      ((s.pos f p).slot = .steady →
        s.takeChange f p t policy o =
          { s.setPos f p { s.pos f p with slot := .seeking i w o } with sources := sources }) ∧
      (∀ j v old, (s.pos f p).slot = .seeking j v old →
        s.takeChange f p t policy o =
          { s.setPos f p { s.pos f p with slot := .seeking i v o } with
            sources := sources
            ports := (s.ownerDone f p old ⟨false, false, false, false, true⟩).ports })) ∧
    ((t = none ∨ policy = .immediate ∨
        ∃ i, t = some i ∧ (tget (s.src i).table.comps 0 = none ∨ tget (s.pos f p).ids 0 = none)) →
      t ≠ (s.pos f p).onAirSource →
      ((s.pos f p).slot = .steady →
        s.takeChange f p t policy o =
          { s.setPos f p { s.pos f p with
              onAir := t.map (⟨·, 0⟩), marks := if t = none then (s.pos f p).marks else 0xF } with
            sources := sources
            ports := (s.ownerDone f p o OutcomeFlags.none).ports }) ∧
      (∀ j v old, (s.pos f p).slot = .seeking j v old →
        s.takeChange f p t policy o =
          { s.setPos f p { s.pos f p with
              slot := .steady, onAir := t.map (⟨·, 0⟩), marks := if t = none then (s.pos f p).marks else 0xF } with
            sources := sources
            ports := ((s.ownerDone f p old ⟨false, false, false, false, true⟩).ownerDone f p o OutcomeFlags.none).ports })) ∧
    (t = (s.pos f p).onAirSource →
      ((s.pos f p).slot = .steady → s.takeChange f p t policy o = s.ownerDone f p o OutcomeFlags.none) ∧
      (∀ j v old, (s.pos f p).slot = .seeking j v old →
        s.takeChange f p t policy o =
          { s.setPos f p { s.pos f p with slot := .steady } with
            sources := sources
            ports := ((s.ownerDone f p old ⟨false, false, false, false, true⟩).ownerDone f p o OutcomeFlags.none).ports }))

/-- R50, R51, R99, R101 to R107, R110: the examination of the source at the scan pointer. A disabled source is visited: its interval
counters are reset and nothing is judged. An enabled one is judged by its enabled checks: sync-bad, more continuity errors than the
tolerance, a packet count out of the rate mode's bounds for the interval's frames, no clock sample where a clock component is named.
The verdict gives counts, health state by the thresholds, the latched record at an entry to FAULTED; its interval is reset. With the
notice permit, SOURCE FAULT and SOURCE RECOVERED go to all ports as FAULTED is entered and left. A change of health judges the marks
anew of the entries that name the source and of the positions that fall back on it, and each change of effective source on a RUNNING
feed is handed over with no owner, IMMEDIATE where the top entry is marked after it, else with the return policy. The pointer then
advances, from last to first. The owners of the searches that these changes overtake get their records, in ascending order of feed and
position (log 7). Nothing else changes. -/
def Obligations.SourceExamined : Prop :=
  ∀ (s : State),
    let i := s.scan.pointer
    let x := s.src i
    let t := s.examine
    let y := t.src i
    t.scan = { s.scan with pointer := if i = s.scan.last then s.scan.first else i + 1 } ∧
    (y = { x with
      ring := y.ring, n := y.n, e := y.e, k := y.k, syncBad := y.syncBad, clockSeen := y.clockSeen, health := y.health,
      badCount := y.badCount, goodCount := y.goodCount, verdict := y.verdict, latched := y.latched }) ∧ y.ring <:+ x.ring ∧
    t = { s with scan := t.scan, sources := t.sources, positions := t.positions, ports := t.ports } ∧
    (y.n = 0 ∧ y.e = 0 ∧ y.k = 0 ∧ y.syncBad = decide (x.sync = .hunting) ∧ y.clockSeen = false ∧ y.table = x.table) ∧
    (x.table.enabled = false → y.health = x.health ∧ y.badCount = x.badCount ∧ y.goodCount = x.goodCount ∧
      y.verdict = x.verdict ∧ y.latched = x.latched ∧ t.positions = s.positions ∧ t.ports = s.ports) ∧
    (x.table.enabled = true → ∀ (causes : Checks) (bad : Bool),
      (causes.sync = true ↔ x.table.checks.sync = true ∧ x.syncBad = true) →
      (causes.continuity = true ↔ x.table.checks.continuity = true ∧ x.table.tolerance < x.e) →
      (causes.rate = true ↔ x.table.checks.rate = true ∧
        ((x.table.rateMode ≠ .ceiling ∧ x.n < x.table.low * x.k) ∨ (x.table.rateMode ≠ .floor ∧ x.table.high * x.k < x.n))) →
      (causes.clock = true ↔ x.table.checks.clock = true ∧ x.table.clockComp ≠ none ∧ x.clockSeen = false) →
      bad = (causes.sync || causes.continuity || causes.rate || causes.clock) →
      y.badCount = (if bad then min (x.badCount + 1) 7 else 0) ∧ y.goodCount = (if bad then 0 else min (x.goodCount + 1) 7) ∧
      y.verdict = some ⟨s.clock.tod, bad, causes⟩ ∧
      (x.health = .healthy ∨ x.health = .suspect →
        y.health = if bad then (if x.table.faultThreshold ≤ y.badCount then .faulted else .suspect) else .healthy) ∧
      (x.health = .faulted →
        y.health = if bad = false ∧ x.table.recoveryThreshold ≤ y.goodCount then .healthy else .faulted) ∧
      y.latched = (if y.health = .faulted ∧ x.health ≠ .faulted then
        ⟨causes, some s.clock.tod, min (x.latched.count + 1) 255, true⟩ else x.latched) ∧
      (y.health = x.health → t.positions = s.positions ∧ t.ports = s.ports) ∧
      (y.health ≠ x.health →
        let judged := fun f k =>
          let p := s.pos f k
          { p with
            baseMark := if p.base = some i ∨ p.fallback = some i then t.markFor p.base p.fallback else p.baseMark
            upper := p.upper.map fun e => if e.source = i ∨ p.fallback = some i then
                { e with mark := t.markFor (some e.source) p.fallback }
              else e }
        (∀ f k, t.pos f k = (s.handedOver f k (judged f k) ((judged f k).policyOfMarks (s.pos f k).policy) none).pos f k) ∧
        ∀ q, let z := (s.overtaken judged).port q
          t.port q = { z with notices := z.notices ||| (if x.table.noticePermit = false then 0 else if y.health = .faulted then 0x004
            else if x.health = .faulted then 0x008 else 0) })) ∧
    ∀ j, j ≠ i → (s.src j).trimmedTo (t.src j)

/-! ### Source ports and rings -/

/-- R81, R82: a HUNTING port finds its packet boundaries at the third $47 at 188-byte spacing. From a byte $47 on, 377 bytes with $47 at
both places make it SYNCED, with that third $47 the first byte of a packet. At any byte the candidate that stands is the longest run
of the bytes taken that begins with $47 and holds $47 at each place 188 bytes on: so a byte that is no $47 where one is due abandons
the candidate, and the hunt goes on from the next $47 after its first byte, its run counted from there. -/
def Obligations.HuntFindsSync : Prop :=
  (∀ (s : State) (i : SrcNo) (bytes : List Byte), s.awake → (s.src i).sync = .hunting → (s.src i).bytes = [] →
    bytes.length = 377 → bytes[0]? = some 0x47 → bytes[188]? = some 0x47 → bytes[376]? = some 0x47 →
    execAll (bytes.map (Instr.sourcePortByte i ·)) s =
      .next (s.setSrc i { s.src i with sync := .synced, bytes := [0x47], goodRun := 0, badRun := 0 })) ∧
  ∀ (s : State) (i : SrcNo) (b : Byte) (rest : List Byte), s.awake → (s.src i).sync = .hunting → (s.src i).bytes.length ≤ 376 →
    rest <:+ (s.src i).bytes ++ [b] → (rest = [] ∨ holdsSync rest) →
    (∀ r, r <:+ (s.src i).bytes ++ [b] → holdsSync r → r.length ≤ rest.length) →
    exec (.sourcePortByte i b) s =
      .next (s.setSrc i (if rest.length = 377 then { s.src i with sync := .synced, bytes := [b], goodRun := 0, badRun := 0 }
        else { s.src i with bytes := rest, goodRun := (rest.length + 187) / 188 }))

/-- R83, R88, R89: a SYNCED port takes a byte before the 188th of a packet. At a boundary, $47 returns the bad-sync run to 0 and another
byte raises it; the third bad one in a run makes the port HUNTING, unseeds every component and sets the sync-bad flag. The 188th byte
of a packet that began with a bad sync byte discards the packet. The 188th byte of a packet of a disabled source, or with an
identifier that no component holds (R88), as that of a null packet, discards it: nothing but the bytes received changes.
PACKET_ARRIVAL takes its byte as SOURCE_PORT_BYTE does (log 23). -/
def Obligations.SyncedPortTakesByte : Prop :=
  (∀ (s : State) (i : SrcNo) (b : Byte), exec (.packetArrival i b) s = exec (.sourcePortByte i b) s) ∧
  ∀ (s : State) (i : SrcNo) (b : Byte), s.awake → (s.src i).sync = .synced →
    ((s.src i).bytes = [] → b = 0x47 →
      exec (.sourcePortByte i b) s = .next (s.setSrc i { s.src i with bytes := [b], badRun := 0 })) ∧
    ((s.src i).bytes = [] → b ≠ 0x47 → (s.src i).badRun < 2 →
      exec (.sourcePortByte i b) s = .next (s.setSrc i { s.src i with bytes := [b], badRun := (s.src i).badRun + 1 })) ∧
    ((s.src i).bytes = [] → b ≠ 0x47 → (s.src i).badRun = 2 →
      exec (.sourcePortByte i b) s =
        .next (s.setSrc i { s.src i with
          sync := .hunting, bytes := [], goodRun := 0, badRun := 0, cont := #v[none, none, none, none],
          syncBad := true })) ∧
    (1 ≤ (s.src i).bytes.length → (s.src i).bytes.length ≤ 186 →
      exec (.sourcePortByte i b) s = .next (s.setSrc i { s.src i with bytes := (s.src i).bytes ++ [b] })) ∧
    ((s.src i).bytes.length = 187 → (s.src i).bytes[0]? ≠ some 0x47 →
      exec (.sourcePortByte i b) s = .next (s.setSrc i { s.src i with bytes := [] })) ∧
    ((s.src i).bytes.length = 187 → (s.src i).bytes[0]? = some 0x47 →
      ((s.src i).table.enabled = false ∨ ∀ c, tget (s.src i).table.comps c ≠
        some ((byteAt (s.src i).bytes 1).toNat % 32 * 256 + (byteAt (s.src i).bytes 2).toNat)) →
      exec (.sourcePortByte i b) s = .next (s.setSrc i { s.src i with bytes := [] }))

/-- R140, R142, R170, R171: the bytes of a packet, read as a source port reads them, give back its flags, identifier, count, clock sample
and payload. The null packet is $47, $1F, $FF, $00 and 184 bytes of $FF. Bits 7 to 4 of byte 3 are ignored on input. -/
def Obligations.PacketBytesReadBack : Prop :=
  (∀ (id : Nat) (entry disc : Bool) (count : BitVec 4) (clock : Option Tick) (payload : List Byte) (c : CompNo) (tick : Tick),
    id < 8192 →
    packetOf (packetBytes id entry disc count clock payload) c tick = ⟨c, tick, entry, disc, id, count, clock, payload⟩ ∧
      headerId (packetBytes id entry disc count clock payload) = id ∧
      (packetBytes id entry disc count clock payload).head? = some 0x47) ∧
  nullPacket = [0x47, 0x1F, 0xFF, 0x00] ++ List.replicate 184 0xFF ∧
  ∀ (b0 b1 b2 b3 b3' : Byte) (rest : List Byte) (c : CompNo) (tick : Tick), b3.toNat % 16 = b3'.toNat % 16 →
    packetOf (b0 :: b1 :: b2 :: b3' :: rest) c tick = packetOf (b0 :: b1 :: b2 :: b3 :: rest) c tick ∧
      headerId (b0 :: b1 :: b2 :: b3' :: rest) = headerId (b0 :: b1 :: b2 :: b3 :: rest)

/-- R81, R88 to R91: the 188th byte of a packet of a present component of an enabled source, on whose ring no position has a cursor: the
packet is checked for continuity, counted and stored with its arrival tick, the oldest of 512 going first, and nothing else changes. A
packet of a disabled source, one with an identifier that no component holds, and a null packet where the components are within their
range are discarded (R88): nothing but the bytes received changes. Whatever cursors stand on the ring, bits 7 to 4 of byte 3 of the
packet change nothing of what its arrival does (R171). -/
def Obligations.ArrivedPacketStored : Prop :=
  (∀ (s : State) (i : SrcNo) (bytes : List Byte) (b : Byte) (id : Nat) (entry disc : Bool) (count : BitVec 4) (clock : Option Tick)
    (payload : List Byte) (c : CompNo),
    s.awake → (s.src i).sync = .synced → (s.src i).bytes = bytes → bytes.length = 187 →
    bytes ++ [b] = packetBytes id entry disc count clock payload → id < 8192 → (s.src i).table.enabled = true →
    tget (s.src i).table.comps c = some id → (∀ d, d < c → tget (s.src i).table.comps d ≠ some id) →
    (∀ f p, (s.pos f p).clearOf i) →
    exec (.packetArrival i b) s =
      .next (s.setSrc i ((s.src i).received ⟨c, s.clock.tick, entry, disc, id, count, clock, payload⟩))) ∧
  (∀ (s : State) (i : SrcNo) (b : Byte), s.awake → (s.src i).sync = .synced → (s.src i).bytes.length = 187 →
    ((∃ (id : Nat) (entry disc : Bool) (count : BitVec 4) (clock : Option Tick) (payload : List Byte),
        (s.src i).bytes ++ [b] = packetBytes id entry disc count clock payload ∧ id < 8192 ∧
          ((s.src i).table.enabled = false ∨ ∀ c, tget (s.src i).table.comps c ≠ some id)) ∨
      (s.src i).bytes ++ [b] = nullPacket ∧ ∀ c n, tget (s.src i).table.comps c = some n → n ≤ 8190) →
    exec (.packetArrival i b) s = .next (s.setSrc i { s.src i with bytes := [] })) ∧
  ∀ (s : State) (i : SrcNo) (b b0 b1 b2 b3 b3' : Byte) (rest : List Byte), s.awake → (s.src i).sync = .synced →
    (s.src i).bytes = b0 :: b1 :: b2 :: b3 :: rest → rest.length = 183 → b3.toNat % 16 = b3'.toNat % 16 →
    exec (.packetArrival i b) (s.setSrc i { s.src i with bytes := b0 :: b1 :: b2 :: b3' :: rest }) = exec (.packetArrival i b) s

/-- R63, R64, R68: a packet of the key component with the entry flag, stored in the ring of the source that a position seeks, ends the
search: the on-air cursor stands at that packet, all switch marks are set, the slot is STEADY, and the pending owner's record is DONE.
Every position that seeks the source and carries the key component switches so, whatever other positions read or seek the same ring,
and their owners' records are made in ascending order of feed and position (log 7). A packet stored there that is no entry point,
being without the entry flag or of another component, or one of a component that the position does not carry, is passed over, and the
search goes on as it was. Where no on-air cursor reads that ring, the packet is checked and counted, the ring then holds no packet
back, and nothing else changes. Bits 7 to 4 of byte 3 make no difference (R171), as ArrivedPacketStored says. -/
def Obligations.EntryPointEndsSearch : Prop :=
  (∀ (s : State) (i : SrcNo) (b : Byte) (id : Nat) (disc : Bool) (count : BitVec 4) (clock : Option Tick) (payload : List Byte)
    (f : FeedNo) (p : PosNo) (w : Nat) (o : Option Owner),
    s.awake → (s.src i).sync = .synced → (s.src i).bytes.length = 187 →
    (s.src i).bytes ++ [b] = packetBytes id true disc count clock payload → id < 8192 → (s.src i).table.enabled = true →
    tget (s.src i).table.comps 0 = some id → (s.pos f p).slot = .seeking i w o → (s.pos f p).onAirSource ≠ some i →
    (tget (s.pos f p).ids 0).isSome → (∀ g q, (g, q) ≠ (f, p) → (s.pos g q).clearOf i) →
    ∃ sources, exec (.packetArrival i b) s =
        .next { s.setPos f p { s.pos f p with slot := .steady, onAir := some ⟨i, 1⟩, marks := 0xF } with
          sources := sources
          ports := (s.ownerDone f p o OutcomeFlags.none).ports } ∧
      tget sources i = { (s.src i).received ⟨0, s.clock.tick, true, disc, id, count, clock, payload⟩ with
        ring := [⟨0, s.clock.tick, true, disc, id, count, clock, payload⟩] } ∧
      ∀ j, j ≠ i → (s.src j).trimmedTo (tget sources j)) ∧
  ∀ (s : State) (i : SrcNo) (b : Byte) (id : Nat) (entry disc : Bool) (count : BitVec 4) (clock : Option Tick) (payload : List Byte)
    (c : CompNo), s.awake → (s.src i).sync = .synced → (s.src i).bytes.length = 187 →
    (s.src i).bytes ++ [b] = packetBytes id entry disc count clock payload → id < 8192 → (s.src i).table.enabled = true →
    tget (s.src i).table.comps c = some id → (∀ d, d < c → tget (s.src i).table.comps d ≠ some id) →
    let passes := fun x : Position => entry = false ∨ c ≠ 0 ∨ tget x.ids 0 = none
    (∃ t, exec (.packetArrival i b) s = .next t ∧
      ∀ f p, (s.pos f p).slot.target = some i → (s.pos f p).onAirSource ≠ some i → passes (s.pos f p) →
        t.pos f p = s.pos f p) ∧
    ((∀ f p, (s.pos f p).onAirSource ≠ some i ∧ ((s.pos f p).slot.target = some i → passes (s.pos f p))) →
      (∃ f p, (s.pos f p).slot.target = some i) →
      exec (.packetArrival i b) s =
        .next (s.setSrc i
          { (s.src i).received ⟨c, s.clock.tick, entry, disc, id, count, clock, payload⟩ with ring := [] })) ∧
    ∃ t, exec (.packetArrival i b) s = .next t ∧
      StoreFrame s t i ⟨c, s.clock.tick, entry, disc, id, count, clock, payload⟩ ∧
      ∀ f p, (s.pos f p).slot.target = some i → (s.pos f p).onAirSource ≠ some i → ¬passes (s.pos f p) →
        t.pos f p = { s.pos f p with slot := .steady, onAir := some ⟨i, 1⟩, marks := 0xF }

/-- R81, R89 to R92, R94, R96: what the on-air cursors of a ring do at a store. Into a ring with room, a cursor at the write point takes
the packet as its next if its position carries it, and one behind lags by one more. Into a full ring, a cursor at the oldest packet is
pushed to the next packet that its position carries, or to the write point: its position's overrun count rises, up to 65,535, and
OVERRUN is pending for the ports whose feed map holds its feed; of a position that carries every component the lag is 512 again. A
cursor elsewhere is not pushed. The source's overrun total rises by the number of cursors pushed, up to 65,535. It is the same whether
the position is STEADY or SEEKING another source. Whatever cursors stand on the ring, the packet is checked and counted, and is the
last in the ring with all that it carries; the ring keeps the others in order, but for the oldest of 512 and what every attached
cursor has passed; a position without a cursor on the ring stays as it was, and nothing else changes but the records of the searches
that end and the rings those leave. Records of several positions are made in ascending order (log 7). Bits 7 to 4 of byte 3 make no
difference (R171), as ArrivedPacketStored says. -/
def Obligations.CursorsMeetArrival : Prop :=
  (∀ (s : State) (i : SrcNo) (b : Byte) (id : Nat) (entry disc : Bool) (count : BitVec 4) (clock : Option Tick)
    (payload : List Byte) (c : CompNo) (f : FeedNo) (p : PosNo) (lag : Nat),
    s.awake → (s.src i).sync = .synced → (s.src i).bytes.length = 187 →
    (s.src i).bytes ++ [b] = packetBytes id entry disc count clock payload → id < 8192 → (s.src i).table.enabled = true →
    tget (s.src i).table.comps c = some id → (∀ d, d < c → tget (s.src i).table.comps d ≠ some id) →
    (s.pos f p).onAir = some ⟨i, lag⟩ → (s.pos f p).slot.target ≠ some i →
    ∃ t, exec (.packetArrival i b) s = .next t ∧
      ((s.src i).ring.length < 512 →
        t.pos f p = { s.pos f p with
          onAir := some ⟨i, if lag = 0 ∧ (s.pos f p).carries c = false then 0 else lag + 1⟩ }) ∧
      ((s.src i).ring.length = 512 → lag = 512 → (∀ d, (s.pos f p).carries d = true) →
        t.pos f p = { s.pos f p with overruns := min ((s.pos f p).overruns + 1) 65535 } ∧
          ∀ q, (s.port q).authority.feedMap.getLsbD f = true → (t.port q).notices &&& 0x200 ≠ 0) ∧
      ((s.src i).ring.length = 512 → lag = 512 →
        let next := (((s.src i).ring.drop 1).dropWhile fun x => !(s.pos f p).carries x.comp).length
        t.pos f p = { s.pos f p with
            onAir := some ⟨i, if next = 0 ∧ (s.pos f p).carries c = false then 0 else next + 1⟩
            overruns := min ((s.pos f p).overruns + 1) 65535 } ∧
          ∀ q, (s.port q).authority.feedMap.getLsbD f = true → (t.port q).notices &&& 0x200 ≠ 0) ∧
      ((s.src i).ring.length = 512 → lag < 512 →
        t.pos f p = { s.pos f p with
          onAir := some ⟨i, if lag = 0 ∧ (s.pos f p).carries c = false then 0 else lag + 1⟩ }) ∧
      (t.src i).overrunTotal = if s.pushedAt i = [] then (s.src i).overrunTotal
        else min ((s.src i).overrunTotal + (s.pushedAt i).length) 65535) ∧
  ∀ (s : State) (i : SrcNo) (b : Byte) (id : Nat) (entry disc : Bool) (count : BitVec 4) (clock : Option Tick)
    (payload : List Byte) (c : CompNo),
    s.awake → (s.src i).sync = .synced → (s.src i).bytes.length = 187 →
    (s.src i).bytes ++ [b] = packetBytes id entry disc count clock payload → id < 8192 → (s.src i).table.enabled = true →
    tget (s.src i).table.comps c = some id → (∀ d, d < c → tget (s.src i).table.comps d ≠ some id) →
    ∃ t, exec (.packetArrival i b) s = .next t ∧
      StoreFrame s t i ⟨c, s.clock.tick, entry, disc, id, count, clock, payload⟩

/-! ### Slot events -/

/-- R125, R129: a slot event comes where the tick count equals the departure tick. It moves the slot clock on by the quotient of q +
40,608,000,000 by the rate and keeps the remainder; it touches no clock, list, line, port, scan, loader or other feed, and of its own
feed not the rate, plans, swap, capacity or contents of the tables. A source changes only in its ring, which may lose its oldest
packets, and in its stale-drop total (R92, R96, R135), and not at all where no on-air cursor of the feed reads it. The stale discards
are counted at every slot event, also in the total of a disabled source, the model's choice (log 31). -/
def Obligations.SlotEventMovesSlotClock : Prop :=
  ∀ (s : State) (f : FeedNo), s.awake → (s.feed f).running = true → (s.feed f).departure = s.clock.tick →
    ∃ t, exec (.slotEvent f) s = .next t ∧
      (t.feed f).departure =
        s.clock.tick + BitVec.ofNat 40 (((s.feed f).remainder + 40608000000) / (s.feed f).rate) ∧
      (t.feed f).remainder = ((s.feed f).remainder + 40608000000) % (s.feed f).rate ∧
      (t.feed f = { s.feed f with
        departure := (t.feed f).departure, remainder := (t.feed f).remainder, shares := (t.feed f).shares,
        carouselShare := (t.feed f).carouselShare, sharePtr := (t.feed f).sharePtr, sparePtr := (t.feed f).sparePtr,
        carousel := (t.feed f).carousel, counters := (t.feed f).counters, output := (t.feed f).output,
        counts := { (t.feed f).counts with late := (s.feed f).counts.late } }) ∧
      (∀ c, (tget (s.feed f).carousel c = none → tget (t.feed f).carousel c = none) ∧
        ∀ k, tget (s.feed f).carousel c = some k →
          tget (t.feed f).carousel c = some k ∨ tget (t.feed f).carousel c = some { k with due := false }) ∧
      (∀ g, g ≠ f → t.feed g = s.feed g ∧ ∀ p, t.pos g p = s.pos g p) ∧
      (∀ p, t.pos f p = { s.pos f p with onAir := (t.pos f p).onAir, marks := (t.pos f p).marks } ∧
        (t.pos f p).onAirSource = (s.pos f p).onAirSource) ∧
      (∀ i, (t.src i).ring <:+ (s.src i).ring ∧
        t.src i = { s.src i with ring := (t.src i).ring, staleTotal := (t.src i).staleTotal } ∧
        ((∀ p, (s.pos f p).onAirSource ≠ some i) → t.src i = s.src i)) ∧
      ((∃ p, (s.pos f p).onAir ≠ none) → StaleCounted s t f) ∧
      ((∀ p, (s.pos f p).onAir = none) → (t.feed f).counts.stale = (s.feed f).counts.stale) ∧
      t = { s with feeds := t.feeds, positions := t.positions, sources := t.sources }

/-- R131, R136, R139, R142: a slot with a carousel share left and a due table sends the lowest-numbered due table, with its identifier,
clear flags and the identifier's continuity count, which then rises; each on-air cursor of the feed then stands at its position's
first fresh packet, or at the write point, the stale packets before it passed, discarded and counted (R135); one with neither a due
table nor a share, and no position with a fresh packet after the stale discards, sends the null packet and serves no position; where
no on-air cursor is attached in the feed nothing is discarded. The discards count in the stale-drop totals of the sources read, also
in that of a disabled source, the model's choice (log 31). -/
def Obligations.TableOrNullSent : Prop :=
  ∀ (s : State) (f : FeedNo), s.awake → (s.feed f).running = true → (s.feed f).departure = s.clock.tick →
    (∀ c table, 1 ≤ (s.feed f).carouselShare → tget (s.feed f).carousel c = some table → table.due = true → table.id < 8192 →
      (∀ d x, d < c → tget (s.feed f).carousel d = some x → x.due = false) →
      ∃ t, exec (.slotEvent f) s = .next t ∧
        (t.feed f).output =
          [0x47, BitVec.ofNat 8 (table.id / 256), BitVec.ofNat 8 table.id,
            (counterGet (s.feed f).counters table.id).setWidth 8] ++ table.payload ∧
        (t.feed f).carouselShare = (s.feed f).carouselShare - 1 ∧
        (t.feed f).carousel = tset (s.feed f).carousel c (some { table with due := false }) ∧
        (t.feed f).counters =
          counterSet (s.feed f).counters table.id (counterGet (s.feed f).counters table.id + 1) ∧
        (t.feed f).counts.carousel = (s.feed f).counts.carousel + 1 ∧ (t.feed f).counts.share = (s.feed f).counts.share ∧
        (t.feed f).counts.spare = (s.feed f).counts.spare ∧ (t.feed f).counts.null = (s.feed f).counts.null ∧
        (t.feed f).shares = (s.feed f).shares ∧ (t.feed f).sharePtr = (s.feed f).sharePtr ∧
        (t.feed f).sparePtr = (s.feed f).sparePtr ∧
        (∀ p, t.pos f p = { s.pos f p with onAir := (s.pos f p).onAir.map fun x => ⟨x.source, (s.leftAt f p).length⟩ }) ∧
        ((∃ p, (s.pos f p).onAir ≠ none) → StaleCounted s t f)) ∧
    (((s.feed f).carouselShare = 0 ∨ ∀ c x, tget (s.feed f).carousel c = some x → x.due = false) →
      (∀ p, (s.pos f p).onAir = none) →
      ∃ departure remainder, exec (.slotEvent f) s =
        .next (s.setFeed f { s.feed f with
          output := [0x47, 0x1F, 0xFF, 0x00] ++ List.replicate 184 0xFF
          counts := { (s.feed f).counts with null := (s.feed f).counts.null + 1 }
          departure := departure
          remainder := remainder })) ∧
    (((s.feed f).carouselShare = 0 ∨ ∀ c x, tget (s.feed f).carousel c = some x → x.due = false) →
      (∀ p, s.leftAt f p = []) → (∃ p, (s.pos f p).onAir ≠ none) →
      ∃ t, exec (.slotEvent f) s = .next t ∧ StaleCounted s t f ∧
        t.feed f = { s.feed f with
          output := [0x47, 0x1F, 0xFF, 0x00] ++ List.replicate 184 0xFF
          counts := { (s.feed f).counts with null := (s.feed f).counts.null + 1, stale := (t.feed f).counts.stale }
          departure := (t.feed f).departure
          remainder := (t.feed f).remainder } ∧
        ∀ p, t.pos f p = { s.pos f p with onAir := (s.pos f p).onAir.map fun c => ⟨c.source, 0⟩ })

/-- R69, R92, R96, R135 to R137, R139 to R141, R143: a slot with no carousel packet to send. At each position of the feed the stale
packets before the first fresh one that it carries are passed, discarded and counted, in the source's stale-drop total (log 31 for a
disabled source) and in the feed's stale count. Then the first position in round-robin order after the share pointer with a fresh
packet and a share left is served; where no position has both, the first one after the spare pointer with a fresh packet. It sends
that packet with the position's identifier, its continuity count, the discontinuity flag where the packet or the switch mark of its
component carries it, and the clock sample raised by the packet's residence. The mark is cleared, and the cursor stands at the next
packet that the position carries. -/
def Obligations.FreshPacketSent : Prop :=
  ∀ (s : State) (f : FeedNo) (p : PosNo) (i : SrcNo) (lag id : Nat) (k : Packet) (rest : List Packet),
    s.awake → (s.feed f).running = true → (s.feed f).departure = s.clock.tick →
    ((s.feed f).carouselShare = 0 ∨ ∀ c x, tget (s.feed f).carousel c = some x → x.due = false) →
    (s.pos f p).onAir = some ⟨i, lag⟩ → s.leftAt f p = k :: rest → tget (s.pos f p).ids k.comp = some id →
    ((1 ≤ tget (s.feed f).shares p ∧ ∃ n : PosNo, p = (s.feed f).sharePtr + 1 + n ∧
        ∀ m, m < n → tget (s.feed f).shares ((s.feed f).sharePtr + 1 + m) = 0 ∨ s.leftAt f ((s.feed f).sharePtr + 1 + m) = []) ∨
      ((∀ q, tget (s.feed f).shares q = 0 ∨ s.leftAt f q = []) ∧ ∃ n : PosNo, p = (s.feed f).sparePtr + 1 + n ∧
        ∀ m, m < n → s.leftAt f ((s.feed f).sparePtr + 1 + m) = [])) →
    ∃ t, exec (.slotEvent f) s = .next t ∧
      (t.feed f).output =
        packetBytes id k.entry (k.disc || (s.pos f p).marks.getLsbD k.comp.val) (counterGet (s.feed f).counters id)
          (k.clock.map fun c => c + (s.clock.tick - k.arrival)) k.payload ∧
      (t.feed f).counters = counterSet (s.feed f).counters id (counterGet (s.feed f).counters id + 1) ∧
      t.pos f p = { s.pos f p with
        onAir := some ⟨i, (rest.dropWhile fun x => !(s.pos f p).carries x.comp).length⟩
        marks := (s.pos f p).marks &&& ~~~(1#4 <<< k.comp.val) } ∧
      (∀ q, q ≠ p → t.pos f q = { s.pos f q with onAir := (s.pos f q).onAir.map fun c => ⟨c.source, (s.leftAt f q).length⟩ }) ∧
      StaleCounted s t f ∧ (t.feed f).carousel = (s.feed f).carousel ∧ (t.feed f).carouselShare = (s.feed f).carouselShare ∧
      (t.feed f).counts.carousel = (s.feed f).counts.carousel ∧ (t.feed f).counts.null = (s.feed f).counts.null ∧
      (if tget (s.feed f).shares p = 0 then
        (t.feed f).shares = (s.feed f).shares ∧ (t.feed f).sparePtr = p ∧ (t.feed f).sharePtr = (s.feed f).sharePtr ∧
          (t.feed f).counts.spare = (s.feed f).counts.spare + 1 ∧ (t.feed f).counts.share = (s.feed f).counts.share
      else
        (t.feed f).shares = tset (s.feed f).shares p (tget (s.feed f).shares p - 1) ∧ (t.feed f).sharePtr = p ∧
          (t.feed f).sparePtr = (s.feed f).sparePtr ∧ (t.feed f).counts.share = (s.feed f).counts.share + 1 ∧
          (t.feed f).counts.spare = (s.feed f).counts.spare)

/-! ### Control ports -/

/-- R151, R152: an accepted frame joins a list that is not empty as a waiting request while fewer than 4 wait, else as BUSY owed while
fewer than 4 are owed, else it is a receive error. When a reply has left, its item leaves the list; a waiting frame that comes to the
head is carried out as on an empty list, one whose code names no request too, with the rest of the list behind its answer; on an empty
list its command does that same, but first a quiet port takes the speed that waits for it (R147, log 35). What is sent is the answer
at the head, or for a BUSY owed the result BUSY, its code with $80 added; for a code of $80 or above that code is a free value (log
15). With an empty list nothing is sent. A frame accepted by the command of its request leaves the port's receive state as it stands,
RECEIVING too, but for that receive error: the model's choice (log 8). -/
def Obligations.ReplyListServedInOrder : Prop :=
  ∀ (s : State) (p : PortNo) (list : List Item), s.awake → (s.port p).replies = list →
    (∀ (c : Instr) (sequence code : Byte) (body : List Byte),
      (c = .unknownRequest p sequence code body ∨ ∃ r, c = .ofRequest r p sequence body ∧ code = reqCode r) → list ≠ [] →
      exec c s =
        .next (s.setPort p
          (if (list.filter Item.isWaiting).length < 4 then
            { s.port p with replies := list ++ [.waiting ⟨sequence, code, body⟩] }
          else if (list.filter Item.isBusy).length < 4 then
            { s.port p with replies := list ++ [.busyOwed sequence code] }
          else { s.port p with rx := .waiting, badFrames := min ((s.port p).badFrames + 1) 65535 }))) ∧
    (list = [] → (s.port p).sending = none ∧ exec (.replySent p) s = .next s) ∧
    (∀ reply rest, list = .answering reply :: rest → (s.port p).sending = some reply) ∧
    (∀ sequence code rest, list = .busyOwed sequence code :: rest →
      ∃ sent, (s.port p).sending = some (frameBytes sequence sent [0x01]) ∧ (code.toNat < 128 → sent = code + 0x80)) ∧
    (∀ first rest, list = first :: rest → (∀ q, rest.head? ≠ some (.waiting q)) →
      exec (.replySent p) s = .next (s.setPort p { s.port p with replies := rest })) ∧
    (∀ first sequence code body rest, list = first :: .waiting ⟨sequence, code, body⟩ :: rest →
      let alone := s.setPort p { s.port p with replies := [] }
      let u := alone.acceptFrame p ⟨sequence, code, body⟩
      exec (.replySent p) s = .next (u.setPort p { u.port p with replies := (u.port p).replies ++ rest }) ∧
        ∀ c, (c = .unknownRequest p sequence code body ∨ ∃ r, c = .ofRequest r p sequence body ∧ code = reqCode r) →
          alone.awake → exec c alone = .next u)

/-- R148, R149, R151: the bytes of a frame, its start byte, length, sequence, code, body and CRC-16, taken one by one by a WAITING port
without a framing error, do exactly what the accepted frame does: the command of its request, or UNKNOWN_REQUEST for a code that names
none. The last byte may come as CONTROL_FRAME. The CRC of the nine bytes $31 to $39 is $29B1. -/
def Obligations.FrameBytesAreTheRequest : Prop :=
  crc16 [0x31, 0x32, 0x33, 0x34, 0x35, 0x36, 0x37, 0x38, 0x39] = 0x29B1 ∧
  ∀ (s : State) (p : PortNo) (sequence code : Byte) (body bytes : List Byte) (last : Byte), s.awake →
    (s.port p).rx = .waiting → body.length ≤ 240 → frameBytes sequence code body = bytes ++ [last] →
    let given := bytes.map (Instr.controlPortByte p · false)
    execAll (given ++ [.controlPortByte p last false]) s = exec (.unknownRequest p sequence code body) s ∧
      execAll (given ++ [.controlFrame p last]) s = exec (.unknownRequest p sequence code body) s ∧
      ∀ r, code = reqCode r →
        execAll (given ++ [.controlPortByte p last false]) s = exec (.ofRequest r p sequence body) s

/-- R149 to R151: what ends a frame as a receive error, with the port WAITING and the bad-frame count one higher, up to 65,535: a framing
error, a length below 2 or above 242, a wrong check. A right check accepts the frame, which joins a list that is not empty as a
waiting request, as BUSY owed, or not at all. Every other byte of a frame is collected, and the byte gap runs anew from its tick. A
WAITING port takes the start byte and ignores every other. CONTROL_FRAME takes its byte as CONTROL_PORT_BYTE does (log 23). -/
def Obligations.ReceiverJudgesBytes : Prop :=
  (∀ (s : State) (p : PortNo) (b : Byte), exec (.controlFrame p b) s = exec (.controlPortByte p b false) s) ∧
  ∀ (s : State) (p : PortNo) (b : Byte), s.awake →
    ((s.port p).rx = .waiting → ∀ framing,
      exec (.controlPortByte p b framing) s =
        .next (if b = 0xC3 ∧ framing = false then s.setPort p { s.port p with rx := .receiving [] s.clock.tick } else s)) ∧
    (∀ bytes since, (s.port p).rx = .receiving bytes since →
      exec (.controlPortByte p b true) s =
        .next (s.setPort p { s.port p with rx := .waiting, badFrames := min ((s.port p).badFrames + 1) 65535 }) ∧
      (bytes = [] ∨ (∃ high, bytes = [high] ∧ 2 ≤ high.toNat * 256 + b.toNat ∧ high.toNat * 256 + b.toNat ≤ 242) ∨
          2 ≤ bytes.length ∧ 2 ≤ natAt bytes 0 2 ∧ natAt bytes 0 2 ≤ 242 ∧ bytes.length < natAt bytes 0 2 + 3 →
        exec (.controlPortByte p b false) s =
          .next (s.setPort p { s.port p with rx := .receiving (bytes ++ [b]) s.clock.tick })) ∧
      (∀ high, bytes = [high] → (high.toNat * 256 + b.toNat < 2 ∨ 242 < high.toNat * 256 + b.toNat) →
        exec (.controlPortByte p b false) s =
          .next (s.setPort p { s.port p with rx := .waiting, badFrames := min ((s.port p).badFrames + 1) 65535 })) ∧
      (∀ fed : List Byte, ∀ high : Byte, bytes = fed ++ [high] → 4 ≤ fed.length → fed.length ≤ 244 → natAt fed 0 2 + 2 = fed.length →
        (crc16 fed).toNat ≠ high.toNat * 256 + b.toNat →
        exec (.controlFrame p b) s =
          .next (s.setPort p { s.port p with rx := .waiting, badFrames := min ((s.port p).badFrames + 1) 65535 })) ∧
      (∀ fed : List Byte, ∀ high : Byte, bytes = fed ++ [high] → 4 ≤ fed.length → fed.length ≤ 244 → natAt fed 0 2 + 2 = fed.length →
        (crc16 fed).toNat = high.toNat * 256 + b.toNat → (s.port p).replies ≠ [] →
        let free := fun (is : Item → Bool) => decide (((s.port p).replies.filter is).length < 4)
        exec (.controlFrame p b) s =
          .next (s.setPort p { s.port p with
            rx := .waiting
            replies := (s.port p).replies ++
              if free Item.isWaiting then [.waiting ⟨byteAt fed 2, byteAt fed 3, fed.drop 4⟩]
              else if free Item.isBusy then [.busyOwed (byteAt fed 2) (byteAt fed 3)] else []
            badFrames := if free Item.isWaiting || free Item.isBusy then (s.port p).badFrames
              else min ((s.port p).badFrames + 1) 65535 })))

/-- R147, R150: the byte gap expires at the 1,350,001st tick after the latest byte and ends the frame as a receive error; a quiet port
takes the speed that waits for it. The command of the byte gap lets time run on to its tick (log 2). -/
def Obligations.PortTimersExpire : Prop :=
  ∀ (s : State) (p : PortNo), s.held = false →
    (s.calm = true → ∀ bytes since, (s.port p).rx = .receiving bytes since → s.soonest (since + 1350001 - s.clock.tick).toNat = true →
      exec (.byteGapExpiry p) s =
        .next { s.setPort p { s.port p with rx := .waiting, badFrames := min ((s.port p).badFrames + 1) 65535 } with
          clock := { s.clock with
            tick := since + 1350001
            timer := (s.advance (since + 1350001 - s.clock.tick).toNat).clock.timer
            atUnderflow := (s.advance (since + 1350001 - s.clock.tick).toNat).clock.atUnderflow } }) ∧
    (∀ speed, (s.port p).pendingSpeed = some speed → (s.port p).rx = .waiting → (s.port p).replies = [] →
      exec (.lineSpeedChange p) s = .next (s.setPort p { s.port p with speed := speed, pendingSpeed := none }))

/-- R152, R153: the three checks before a request, in their order, and their replies, with nothing else changed: UNKNOWN REQUEST, its code
echoed from $80 on; NOT READY during LOADING, but for READ PORT; MALFORMED. The command of a request leaves the port's receive state
as it stands, also RECEIVING, the model's choice (log 8); so too that of SET MASK, READ EVENTS and CLEAR ENTRIES where it is carried
out. -/
def Obligations.ChecksBeforeRequest : Prop :=
  ∀ (s : State) (p : PortNo) (sequence : Byte) (body : List Byte), s.awake → (s.port p).replies = [] →
    (∀ code, (∀ r, code ≠ reqCode r) →
      exec (.unknownRequest p sequence code body) s =
        .next (s.setPort p { s.port p with
          replies := [.answering (frameBytes sequence (if code.toNat < 128 then code + 0x80 else code) [0x02])] })) ∧
    (∀ r, s.loader.state = .loading → r ≠ .readPort →
      exec (.ofRequest r p sequence body) s = .next (s.answered p r sequence [0x06])) ∧
    (∀ r, (s.loader.state ≠ .loading ∨ r = .readPort) → body.length ≠ reqLength r →
      exec (.ofRequest r p sequence body) s = .next (s.answered p r sequence [0x03])) ∧
    ∀ r t, r = .setMask ∨ r = .readEvents ∨ r = .clearEntries → exec (.ofRequest r p sequence body) s = .next t →
      (t.port p).rx = (s.port p).rx

/-! ### Requests: time, notices, outcomes -/

/-- R11 to R13: SET TIME with a valid time makes it the pending load, and with any other is refused RANGE and changes nothing; READ TIME
answers the time of day, frame-start tick, reference state, frame rate, tick count and whether a load is pending, yes as 0 and no as 1
(R170). The tick count is less than one frame plus 270 ticks beyond the frame-start tick: taken at an underflow's tick before the
underflow, the request reads the tick before (log 12). The command leaves the port's receive state as it stands, also RECEIVING, the
model's choice (log 8). -/
def Obligations.TimeRequestsAnswered : Prop :=
  ∀ (s : State) (p : PortNo) (sequence h m sec f : Byte), s.serves p →
    exec (.setTime p sequence [h, m, sec, f]) s =
      .next (if h.toNat ≤ 23 ∧ m.toNat ≤ 59 ∧ sec.toNat ≤ 59 ∧ f.toNat < s.clock.rate.fps then
        { s with clock := { s.clock with load := some ⟨h.toNat, m.toNat, sec.toNat, f.toNat⟩ } }.answered p .setTime sequence
          [0x00]
      else s.answered p .setTime sequence [0x04]) ∧
    exec (.readTime p sequence []) s =
      .next (s.answered p .readTime sequence
        ([0x00, BitVec.ofNat 8 s.clock.tod.hours, BitVec.ofNat 8 s.clock.tod.minutes, BitVec.ofNat 8 s.clock.tod.seconds,
          BitVec.ofNat 8 s.clock.tod.frames] ++ natBytes 5 s.clock.frameStart.toNat ++
          [match s.clock.ref with
            | .unreferenced => 0
            | .locked => 1
            | .flywheel => 2,
           BitVec.ofNat 8 s.clock.rate.fps] ++ natBytes 5 (if s.clock.atUnderflow then s.clock.tick - 1 else s.clock.tick).toNat ++
          [if s.clock.load = none then 1 else 0])) ∧
    (s.clock.Sound →
      ((if s.clock.atUnderflow then s.clock.tick - 1 else s.clock.tick) - s.clock.frameStart).toNat < s.clock.rate.ticks + 270)

/-- R156, R157: SET MASK takes the disable set out of the mask and then puts the enable set in; the reply holds the new mask and the
pending set, which does not change, and the attention line follows the two. A set that names no kind of R155 is refused RANGE, and
nothing changes. Of the port's receive state it says only that WAITING stays WAITING. -/
def Obligations.SetMaskDisablesThenEnables : Prop :=
  ∀ (s : State) (p : PortNo) (sequence : Byte) (off on : BitVec 16), s.serves p →
    let body := [off.extractLsb' 8 8, off.extractLsb' 0 8, on.extractLsb' 8 8, on.extractLsb' 0 8]
    ∃ rx, ((s.port p).rx = .waiting → rx = .waiting) ∧
    let u := s.setPort p { s.port p with rx := rx }
    ((1024 ≤ off.toNat ∨ 1024 ≤ on.toNat) → exec (.setMask p sequence body) s = .next (u.answered p .setMask sequence [0x04])) ∧
    (off.toNat < 1024 → on.toNat < 1024 →
      ∃ mask : NoticeSet, (∀ k, k < 10 → mask.getLsbD k = (on.getLsbD k || ((s.port p).mask.getLsbD k && !off.getLsbD k))) ∧
        exec (.setMask p sequence body) s =
          .next ((u.setPort p { u.port p with mask := mask }).answered p .setMask sequence
            ([0x00] ++ natBytes 2 mask.toNat ++ natBytes 2 (s.port p).notices.toNat)) ∧
        ({ s.port p with mask := mask }.attention = true ↔
          ∃ k, mask.getLsbD k = true ∧ (s.port p).notices.getLsbD k = true))

/-- R156, R158: READ EVENTS answers the pending set and the mask, and empties the pending set, and nothing else changes; the attention
line drops. Of the port's receive state it says only that WAITING stays WAITING. -/
def Obligations.ReadEventsEmptiesPendingSet : Prop :=
  ∀ (s : State) (p : PortNo) (sequence : Byte), s.serves p →
    ∃ rx, ((s.port p).rx = .waiting → rx = .waiting) ∧
    let u := s.setPort p { s.port p with rx := rx }
    exec (.readEvents p sequence []) s =
      .next ((u.setPort p { u.port p with notices := 0 }).answered p .readEvents sequence
        ([0x00] ++ natBytes 2 (s.port p).notices.toNat ++ natBytes 2 (s.port p).mask.toNat)) ∧
    { s.port p with notices := 0 }.attention = false

/-- R160, R161, R172: READ OUTCOMES answers the number of records and the records, oldest first, and removes them; READ PORT answers the
port as it stands, in every load state, and changes nothing. What fills the pending speed where there is none is the model's reading
(log 18). The configure flag is 1 for set and 0 for clear, the model's choice (log 32). The command leaves the port's receive state as
it stands, also RECEIVING, the model's choice (log 8). -/
def Obligations.OutcomesAndPortRead : Prop :=
  ∀ (s : State) (p : PortNo) (sequence : Byte), s.awake → (s.port p).replies = [] →
    (s.loader.state ≠ .loading →
      exec (.readOutcomes p sequence []) s =
        .next ((s.setPort p { s.port p with log := [] }).answered p .readOutcomes sequence
          ([0x00, BitVec.ofNat 8 (s.port p).log.length] ++ (s.port p).log.flatMap outcomeRecord))) ∧
    exec (.readPort p sequence []) s =
      .next (s.answered p .readPort sequence
        ([0x00, BitVec.ofNat 8 p.val,
          match s.loader.state with
            | .loading => 0
            | .ready => 1
            | .defaulted => 2,
          match (s.port p).speed with
            | .low => 0
            | .high => 1,
          match (s.port p).pendingSpeed with
            | some .low => 0
            | some .high => 1
            | none => 0xFF,
          classByte (s.port p).authority.classMax, (s.port p).authority.feedMap.setWidth 8, (s.port p).authority.cueMap,
          if (s.port p).authority.configure then 1 else 0, BitVec.ofNat 8 (tget s.list.quotas p),
          BitVec.ofNat 8 (s.list.entries.filter fun e => e.owner = p).length] ++
          natBytes 2 (s.port p).badFrames ++ natBytes 2 (s.port p).mask.toNat))

/-! ### Requests: the switch list -/

/-- R16, R19 to R22: POST ENTRY, for every entry that a body can spell, and for every other body of 17 bytes. The checks in their order:
authority, ranges, tag, class rules and cue line mode, a place in the list, the distance. An accepted entry is placed after every late
entry if it is late, else after every late entry and every entry of no greater distance; its posting sequence is the counter's, which
rises; the reply tells its timing, posting sequence and index. A feed, class or cue line that no map or class max holds is refused NOT
PERMITTED. A due frame, action, or value of a field that applies out of its range is refused RANGE. The bytes of a field that does not
apply change nothing of what a body does. The command leaves the port's receive state as it stands, also RECEIVING, the model's choice
(log 8). -/
def Obligations.PostEntryAnswered : Prop :=
  (∀ (s : State) (p : PortNo) (sequence : Byte) (e : Entry), s.serves p → e.owner = p → e.spelled →
    let d := (e.due + s.day - s.now % s.day) % s.day
    let x := s.port p
    ∃ t, exec (.postEntry p sequence e.posted) s = .next t ∧
      (if x.authority.feedMap.getLsbD e.feed = false ∨ x.authority.classMax.rank < e.cls.rank ∨
          (e.cue.any fun c => !x.authority.cueMap.getLsbD c.line) = true then
        t = s.answered p .postEntry sequence [0x05]
      else if s.day ≤ e.due ∨ 1048575 < e.window ∨ 50 < (spliceByte e.splice).toNat ∨
          (e.cue.any fun c => decide (250 < c.lead)) = true then
        t = s.answered p .postEntry sequence [0x04]
      else if e.tag ∈ s.liveTags p then t = s.answered p .postEntry sequence [0x08]
      else if (e.action = .base ∧ e.cls ≠ .network) ∨ (e.action = .cue ∧ e.cue = none) ∨
          (e.cue.any fun c => decide ((s.line c.line).mode = .tally)) = true then
        t = s.answered p .postEntry sequence [0x04]
      else if tget s.list.quotas p ≤ s.list.count p ∧ s.list.pool ≤ s.list.poolUse then
        t = s.answered p .postEntry sequence [0x07]
      else if s.day / 2 < d ∧ d ≤ s.day - 50 then t = s.answered p .postEntry sequence [0x09]
      else ∃ before after late, s.list.entries = before ++ after ∧ (late = true ↔ d = 0 ∨ s.day - 50 < d) ∧
        (∀ y, y ∈ before → y.late = true ∨ late = false ∧ (y.due + s.day - s.now % s.day) % s.day ≤ d) ∧
        (∀ y, after.head? = some y → y.late = false ∧ (late = true ∨ d < (y.due + s.day - s.now % s.day) % s.day)) ∧
        t = { s with list := { s.list with
            entries := before ++ [{ e with seq := s.list.nextSeq, cued := false, late := late }] ++ after
            nextSeq := s.list.nextSeq + 1 } }.answered p .postEntry sequence
          ([0x00, if late then 1 else 0] ++ natBytes 2 s.list.nextSeq.toNat ++ [BitVec.ofNat 8 before.length]))) ∧
  ∀ (s : State) (p : PortNo) (sequence : Byte) (body : List Byte), s.serves p → body.length = 17 →
    let a := (s.port p).authority
    let at' := fun k => (byteAt body k).toNat
    let post := exec (.postEntry p sequence body) s
    (a.feedMap.getLsbD (at' 6) = false ∨ a.classMax.rank < at' 2 ∨ at' 14 ≠ 255 ∧ a.cueMap.getLsbD (at' 14) = false →
      post = .next (s.answered p .postEntry sequence [0x05])) ∧
    (a.feedMap.getLsbD (at' 6) = true → at' 2 ≤ a.classMax.rank → (at' 14 = 255 ∨ a.cueMap.getLsbD (at' 14) = true) →
      s.day ≤ natAt body 3 3 ∨ 4 < at' 8 ∨ at' 8 ≤ 2 ∧ (7 < at' 7 ∨ 50 < at' 13) ∨ (at' 8 = 0 ∨ at' 8 = 2) ∧ 15 < at' 9 ∨
        at' 8 = 0 ∧ 1048575 < natAt body 10 3 ∨ at' 14 ≠ 255 ∧ (1 < at' 15 ∨ 250 < at' 16) →
      post = .next (s.answered p .postEntry sequence [0x04])) ∧
    ∀ e : Entry, e.owner = p → e.spelled →
      (∀ k, k < 17 → (k = 7 ∨ k = 13 → e.action.stacked = true) → (k = 9 → e.action.sourced = true) →
        (10 ≤ k → k ≤ 12 → e.action = .take) → (15 ≤ k → e.cue ≠ none) → byteAt body k = byteAt e.posted k) →
      post = exec (.postEntry p sequence e.posted) s

/-- R33, R35: CANCEL ENTRY removes the port's entry with the tag, or answers NOT FOUND; LIST ENTRIES answers the time of day, the length,
the pool, its use and at most 8 entries from the index on, or RANGE for an index above 127, and changes nothing. What fills an absent
field is the model's reading (log 18). The command leaves the port's receive state as it stands, also RECEIVING, the model's choice
(log 8). -/
def Obligations.EntriesCancelledAndListed : Prop :=
  ∀ (s : State) (p : PortNo) (sequence : Byte), s.serves p →
    (∀ (tag : Tag) (before after : List Entry) (e : Entry), s.list.entries = before ++ e :: after → e.owner = p → e.tag = tag →
      (∀ x, x ∈ before → ¬(x.owner = p ∧ x.tag = tag)) →
      exec (.cancelEntry p sequence (natBytes 2 tag.toNat)) s =
        .next ({ s with list := { s.list with entries := before ++ after } }.answered p .cancelEntry sequence [0x00])) ∧
    (∀ (tag : Tag), (∀ x, x ∈ s.list.entries → ¬(x.owner = p ∧ x.tag = tag)) →
      exec (.cancelEntry p sequence (natBytes 2 tag.toNat)) s = .next (s.answered p .cancelEntry sequence [0x0A])) ∧
    (∀ start : Byte, exec (.listEntries p sequence [start]) s =
      .next (s.answered p .listEntries sequence
        (if 127 < start.toNat then [0x04]
        else [0x00, BitVec.ofNat 8 s.clock.tod.hours, BitVec.ofNat 8 s.clock.tod.minutes, BitVec.ofNat 8 s.clock.tod.seconds,
          BitVec.ofNat 8 s.clock.tod.frames, BitVec.ofNat 8 s.list.entries.length, BitVec.ofNat 8 s.list.pool,
          BitVec.ofNat 8 s.list.poolUse, BitVec.ofNat 8 (min 8 (s.list.entries.length - start.toNat))] ++
          ((s.list.entries.drop start.toNat).take 8).flatMap entryRecord)))

/-- R34: CLEAR ENTRIES removes every entry of the port and no other, the others keeping their order, makes no outcome record, and answers
the number removed; nothing else changes. Of the port's receive state it says only that WAITING stays WAITING. -/
def Obligations.ClearEntriesRemovesOwn : Prop :=
  ∀ (s : State) (p : PortNo) (sequence : Byte), s.serves p →
    ∃ rx, ((s.port p).rx = .waiting → rx = .waiting) ∧
    let u := s.setPort p { s.port p with rx := rx }
    ∃ t : State, exec (.clearEntries p sequence []) s =
        .next (t.answered p .clearEntries sequence
          [0x00, BitVec.ofNat 8 (s.list.entries.length - t.list.entries.length)]) ∧
      t = { u with list := { s.list with entries := t.list.entries } } ∧ t.list.entries.Sublist s.list.entries ∧
      (∀ e, e ∈ t.list.entries ↔ e ∈ s.list.entries ∧ e.owner ≠ p) ∧
      (∀ q, q ≠ p → t.list.count q = s.list.count q) ∧ t.list.count p = 0

/-! ### Requests: positions and cue lines -/

/-- R38 to R40, R50, R51, R53, R172: SET POSITION with any of its four groups flagged. Its checks in their order: the configure flag and
the feed, the position's range, FEED STATE for a base of a RUNNING feed, an identifier twice or held elsewhere in the feed. An
accepted one replaces the flagged groups, judges every mark anew where the fallback is flagged and the base's where the base is, and
its on-air cursor passes over what the position no longer carries; rings may free packets. A change of effective source on a RUNNING
feed is handed over with no owner, IMMEDIATE where the top entry is marked after it, else with the return policy, the old one unless
the request changes both fallback and policy (log 17). A flagged value out of its range, or a flag that names no group, is refused
RANGE, and the values of groups that are not flagged are not read. On a STOPPED feed, whose position has no on-air cursor, nothing
else changes. The command leaves the port's receive state as it stands, also RECEIVING, the model's choice (log 8). -/
def Obligations.SetPositionApplied : Prop :=
  (∀ (s : State) (p : PortNo) (sequence : Byte) (f : FeedNo) (place : Byte) (flags : BitVec 4) (ids : Vector (Option Nat) 4)
    (base fallback : Option SrcNo) (policy : Splice), s.serves p →
    (∀ c n, tget ids c = some n → 1 ≤ n ∧ n ≤ 8190) → (∀ w, policy = .entry w → 1 ≤ w ∧ w ≤ 50) →
    let a := (s.port p).authority
    let set := Instr.setPosition p sequence ([BitVec.ofNat 8 f.val, place, flags.setWidth 8] ++ idsBytes ids ++
      [sourceByte base, sourceByte fallback, spliceByte policy])
    (a.configure = false ∨ a.feedMap.getLsbD f = false → exec set s = .next (s.answered p .setPosition sequence [0x05])) ∧
    (a.configure = true → a.feedMap.getLsbD f = true →
      (7 < place.toNat → exec set s = .next (s.answered p .setPosition sequence [0x04])) ∧
      ∀ k : PosNo, k.val = place.toNat →
        let x := s.pos f k
        let clash := flags.getLsbD 0 = true ∧ (¬(present ids).Nodup ∨ ∃ n, n ∈ present ids ∧ n ∈ s.feedIds f (some k) none)
        let base' := if flags.getLsbD 1 then base else x.base
        let fallback' := if flags.getLsbD 2 then fallback else x.fallback
        let y : Position := { x with
          ids := if flags.getLsbD 0 then ids else x.ids
          base := base'
          fallback := fallback'
          policy := if flags.getLsbD 3 then policy else x.policy
          baseMark := if flags.getLsbD 1 || flags.getLsbD 2 then s.markFor base' fallback' else x.baseMark
          upper := if flags.getLsbD 2 then x.upper.map fun e => { e with mark := s.markFor (some e.source) fallback' }
            else x.upper }
        (flags.getLsbD 1 = true → (s.feed f).running = true →
          exec set s = .next (s.answered p .setPosition sequence [0x0D])) ∧
        (flags.getLsbD 1 = false ∨ (s.feed f).running = false →
          (clash → exec set s = .next (s.answered p .setPosition sequence [0x0E])) ∧
          (¬clash → ∃ t : State, exec set s = .next (t.answered p .setPosition sequence [0x00]) ∧
            t.pos f k = { y with slot := (t.pos f k).slot, onAir := (t.pos f k).onAir, marks := (t.pos f k).marks } ∧
            (∃ (sources : Vector Source 16) (policy' : Splice), (∀ j, (s.src j).trimmedTo (tget sources j)) ∧
              (policy' = x.policy ∨ flags.getLsbD 2 = true ∧ flags.getLsbD 3 = true ∧ policy' = policy) ∧
              t = ({ s with sources := sources } : State).handedOver f k { y with onAir := x.onAir.map fun c => ⟨c.source,
                if flags.getLsbD 0 then ((s.unreadAt c).dropWhile fun x => !y.carries x.comp).length else c.lag⟩ }
                (y.policyOfMarks policy') none) ∧
            ((s.feed f).running = false → x.onAir = none → t = s.setPos f k y))))) ∧
  ∀ (s : State) (p : PortNo) (sequence : Byte) (body : List Byte), s.serves p → body.length = 14 →
    let a := (s.port p).authority
    let at' := fun k => (byteAt body k).toNat
    let flag := fun k => (byteAt body 2).getLsbD k = true
    let set := exec (.setPosition p sequence body) s
    (a.configure = false ∨ a.feedMap.getLsbD (at' 0) = false → set = .next (s.answered p .setPosition sequence [0x05])) ∧
    (a.configure = true → a.feedMap.getLsbD (at' 0) = true →
      7 < at' 1 ∨ 15 < at' 2 ∨
        flag 0 ∧ (∃ k ∈ [3, 5, 7, 9], natAt body k 2 = 0 ∨ 8190 < natAt body k 2 ∧ natAt body k 2 ≠ 65535) ∨
        flag 1 ∧ 15 < at' 11 ∧ at' 11 ≠ 255 ∨ flag 2 ∧ 15 < at' 12 ∧ at' 12 ≠ 255 ∨ flag 3 ∧ 50 < at' 13 →
      set = .next (s.answered p .setPosition sequence [0x04])) ∧
    ∀ other : List Byte, other.length = 14 →
      (∀ k, k < 14 → (3 ≤ k → k ≤ 10 → flag 0) → (k = 11 → flag 1) → (k = 12 → flag 2) → (k = 13 → flag 3) →
        byteAt other k = byteAt body k) →
      exec (.setPosition p sequence other) s = set

/-- R43, R48: RELEASE removes the port's stack entry with the tag, wherever it stands, and answers its feed, its position and whether the
effective on-air source changed; with no such entry it answers NOT FOUND. A change of effective source on a RUNNING feed is handed
over with the return policy and no owner. Where no change is handed over, the entry not being the top or the feed STOPPED, nothing
else changes. The command leaves the port's receive state as it stands, also RECEIVING, the model's choice (log 8). -/
def Obligations.ReleaseRemovesEntry : Prop :=
  ∀ (s : State) (p : PortNo) (sequence : Byte) (tag : Tag), s.serves p →
    ((∀ f k e, e ∈ (s.pos f k).upper → ¬(e.owner = p ∧ e.tag = tag)) →
      exec (.release p sequence (natBytes 2 tag.toNat)) s = .next (s.answered p .release sequence [0x0A])) ∧
    (∀ f k low high e, (s.pos f k).upper = low ++ e :: high → e.owner = p → e.tag = tag →
      (∀ y, y ∈ low → ¬(y.owner = p ∧ y.tag = tag)) →
      (∀ g q y, (g, q) ≠ (f, k) → y ∈ (s.pos g q).upper → ¬(y.owner = p ∧ y.tag = tag)) →
      let y : Position := { s.pos f k with upper := low ++ high }
      ∃ t : State, exec (.release p sequence (natBytes 2 tag.toNat)) s =
          .next (t.answered p .release sequence
            [0x00, BitVec.ofNat 8 f.val, BitVec.ofNat 8 k.val, if y.effective = (s.pos f k).effective then 0 else 1]) ∧
        t.pos f k = { y with slot := (t.pos f k).slot, onAir := (t.pos f k).onAir, marks := (t.pos f k).marks } ∧
        t = s.handedOver f k y (s.pos f k).policy none ∧
        ((s.feed f).running = false ∨ high ≠ [] → t = s.setPos f k y))

/-- R41, R50, R52, R55, R172: EXAMINE POSITION answers the feed state, settings, stack, effective source, classification, slot, on-air
source and overrun count of a position, and changes nothing; it needs the feed in the feed map. The effective source is the top
entry's, or the fallback where that entry is marked. The classification is DARK, 0, with no effective source; else BASE, 1, where the
base is the top entry, and NETWORK OVERRIDE, 2, REGIONAL OVERRIDE, 3, or ALERT, 4, by the class of the top entry. What fills an absent
field is the model's reading (log 18). A substitution mark is 1 for set and 0 for clear, the model's choice (log 32). The command
leaves the port's receive state as it stands, also RECEIVING, the model's choice (log 8). -/
def Obligations.PositionExamined : Prop :=
  ∀ (s : State) (p : PortNo) (sequence : Byte) (f : FeedNo) (place : Byte), s.serves p →
    let examine := Instr.examinePosition p sequence [BitVec.ofNat 8 f.val, place]
    (∀ number : Byte, (s.port p).authority.feedMap.getLsbD number.toNat = false →
      exec (.examinePosition p sequence [number, place]) s = .next (s.answered p .examinePosition sequence [0x05])) ∧
    ((s.port p).authority.feedMap.getLsbD f = true → 7 < place.toNat →
      exec examine s = .next (s.answered p .examinePosition sequence [0x04])) ∧
    ((s.port p).authority.feedMap.getLsbD f = true → ∀ k : PosNo, k.val = place.toNat →
      let x := s.pos f k
      exec examine s =
        .next (s.answered p .examinePosition sequence
          ([0x00, if (s.feed f).running then 1 else 0] ++ idsBytes x.ids ++
            [sourceByte x.base, sourceByte x.fallback, spliceByte x.policy, BitVec.ofNat 8 (x.upper.length + 1)] ++
            baseRecord x ++ x.upper.flatMap stackRecord ++ List.replicate (27 - 9 * x.upper.length) 0 ++
            [sourceByte x.effective, BitVec.ofNat 8 x.classification,
              (if x.topMark then 1 else 0) ||| (if x.slot = .steady then 0 else 2), if x.slot = .steady then 0 else 1,
              sourceByte x.slot.target, BitVec.ofNat 8 x.slot.wait] ++
            (match x.slot with
              | .seeking _ _ (some o) => [BitVec.ofNat 8 o.port.val] ++ natBytes 2 o.tag.toNat
              | _ => [0xFF, 0, 0]) ++
            [sourceByte (x.onAir.map Cursor.source)] ++ natBytes 2 x.overruns)) ∧
      x.effective = (match x.upper.getLast? with
        | some e => if e.mark then x.fallback else some e.source
        | none => if x.baseMark then x.fallback else x.base) ∧
      x.classification = (if x.effective = none then 0 else match x.upper.getLast? with
        | none => 1
        | some e => match e.cls with
          | .network => 2
          | .regional => 3
          | .alert => 4))

/-- R73, R76 to R78, R172: SET CUE LINE applies its flagged groups: the mode, with the level low and the pulse flag clear, then the tally
target, then the level; the last cue stays. The reply holds the line and its output: in CUE mode the level, inverted while the pulse
flag is set, in TALLY mode whether the target's feed runs with the target position's on-air cursor on the target source. It needs the
line in the cue map. What fills an absent field is the model's reading (log 18). The pulse flag is 1 for set and 0 for clear, the
model's choice (log 32). A flagged value out of its range, or a flag that names no group, is refused RANGE, and nothing changes; the
values of groups that are not flagged are not read. The command leaves the port's receive state as it stands, also RECEIVING, the
model's choice (log 8). -/
def Obligations.CueLineSet : Prop :=
  (∀ (s : State) (p : PortNo) (sequence line : Byte) (flags : BitVec 3) (tally level : Bool) (f : FeedNo) (k : PosNo) (i : SrcNo),
    s.serves p →
    let set := Instr.setCueLine p sequence [line, flags.setWidth 8, boolByte tally, boolByte level, BitVec.ofNat 8 f.val,
      BitVec.ofNat 8 k.val, BitVec.ofNat 8 i.val]
    ((s.port p).authority.cueMap.getLsbD line.toNat = false →
      exec set s = .next (s.answered p .setCueLine sequence [0x05])) ∧
    (∀ l : LineNo, l.val = line.toNat → (s.port p).authority.cueMap.getLsbD l = true →
      let old := s.line l
      let mode : LineMode := if flags.getLsbD 0 then (if tally then .tally else .cue) else old.mode
      let new : CueLine :=
        { mode := mode
          level := if flags.getLsbD 1 then level else if flags.getLsbD 0 then false else old.level
          pulse := if flags.getLsbD 0 then false else old.pulse
          feed := if flags.getLsbD 2 then f else old.feed
          position := if flags.getLsbD 2 then k else old.position
          source := if flags.getLsbD 2 then i else old.source
          last := old.last }
      let output := if mode = .tally then
          (s.feed new.feed).running && decide ((s.pos new.feed new.position).onAirSource = some new.source)
        else xor new.level new.pulse
      exec set s =
        .next ((s.setLine l new).answered p .setCueLine sequence
          ([0x00, if mode = .tally then 1 else 0, boolByte new.level, boolByte new.pulse, BitVec.ofNat 8 new.feed.val,
            BitVec.ofNat 8 new.position.val, BitVec.ofNat 8 new.source.val, boolByte output] ++
            (match old.last with
              | some c => [BitVec.ofNat 8 c.owner.val, cueKindByte c.kind] ++ todBytes (some c.tod)
              | none => [0xFF, 0, 0xFF, 0xFF, 0xFF, 0xFF])))) ∧
    ∀ groups mode level feed place source : Byte, line.toNat ≤ 7 → (s.port p).authority.cueMap.getLsbD line.toNat = true →
      8 ≤ groups.toNat ∨ groups.getLsbD 0 = true ∧ 1 < mode.toNat ∨ groups.getLsbD 1 = true ∧ 1 < level.toNat ∨
        groups.getLsbD 2 = true ∧ (5 < feed.toNat ∨ 7 < place.toNat ∨ 15 < source.toNat) →
      exec (.setCueLine p sequence [line, groups, mode, level, feed, place, source]) s =
        .next (s.answered p .setCueLine sequence [0x04])) ∧
  ∀ (s : State) (p : PortNo) (sequence : Byte) (body other : List Byte), s.serves p → body.length = 7 → other.length = 7 →
    let flag := fun k => (byteAt body 1).getLsbD k = true
    (∀ k, k < 7 → (k = 2 → flag 0) → (k = 3 → flag 1) → (4 ≤ k → flag 2) → byteAt other k = byteAt body k) →
    exec (.setCueLine p sequence other) s = exec (.setCueLine p sequence body) s

/-! ### Requests: sources -/

/-- R50, R51, R84 to R87, R108, R113: SET SOURCE with an entry in its ranges needs the configure flag, a source up to 15, and four
identifiers that differ. A body with a source or a field out of its range is refused RANGE, before the identifiers are compared; the
bits that no field uses are ignored. An accepted one replaces the table entry; a component whose identifier changes is unseeded. A
source disabled by it is DISABLED with its counts 0; one enabled by it is HEALTHY, its counts 0, its interval fresh and every
component unseeded. Nothing else changes where no position names the source; a source enabled or disabled while every feed is STOPPED
has the marks judged anew of the entries that name it and of the positions that fall back on it. A source enabled or disabled, or one
whose fallback permit alone changes, has the marks judged anew, in the second case of the entries that name it only; each change of
effective source on a RUNNING feed is handed over with no owner, IMMEDIATE where the top entry is marked after it, else with the
return policy. The owners of the searches that these changes overtake get their records, in ascending order of feed and position (log
7), rings may free packets, and nothing else changes. The command leaves the port's receive state as it stands, also RECEIVING, the
model's choice (log 8). -/
def Obligations.SourceSet : Prop :=
  (∀ (s : State) (p : PortNo) (sequence number : Byte) (table : SourceEntry), s.serves p → table.inRange →
    let set := Instr.setSource p sequence ([number] ++ sourceEntryBytes table)
    ((s.port p).authority.configure = false → exec set s = .next (s.answered p .setSource sequence [0x05])) ∧
    ((s.port p).authority.configure = true →
      (15 < number.toNat → exec set s = .next (s.answered p .setSource sequence [0x04])) ∧
      ∀ i : SrcNo, i.val = number.toNat →
        (¬(present table.comps).Nodup → exec set s = .next (s.answered p .setSource sequence [0x0E])) ∧
        ((present table.comps).Nodup →
          let x := s.src i
          ∃ (y : Source) (t : State), exec set s = .next (t.answered p .setSource sequence [0x00]) ∧
            y.table = table ∧
            (∀ c, tget y.cont c = if tget table.comps c ≠ tget x.table.comps c ∨ (table.enabled = true ∧ x.table.enabled = false)
              then none else tget x.cont c) ∧
            (table.enabled = x.table.enabled → y = { x with table := table, cont := y.cont }) ∧
            (table.enabled = false → x.table.enabled = true →
              y = { x with table := table, cont := y.cont, health := .disabled, badCount := 0, goodCount := 0 }) ∧
            (table.enabled = true → x.table.enabled = false →
              y = { x with
                table := table, cont := y.cont, health := .healthy, badCount := 0, goodCount := 0, n := 0, e := 0, k := 0,
                syncBad := decide (x.sync = .hunting), clockSeen := false }) ∧
            y.trimmedTo (t.src i) ∧ (∀ j, j ≠ i → (s.src j).trimmedTo (t.src j)) ∧
            (let u := s.setSrc i y
            let judged := fun f k =>
              let x' := s.pos f k
              let switched := decide (table.enabled ≠ x.table.enabled)
              let named := fun a : Option SrcNo => decide (x'.fallback = some i) && switched ||
                decide (a = some i) && (switched || decide (table.fallbackPermit ≠ x.table.fallbackPermit))
              { x' with
                baseMark := if named x'.base then u.markFor x'.base x'.fallback else x'.baseMark
                upper := x'.upper.map fun e =>
                  if named (some e.source) then { e with mark := u.markFor (some e.source) x'.fallback } else e }
            (∀ f k, t.pos f k = (u.handedOver f k (judged f k) ((judged f k).policyOfMarks (s.pos f k).policy) none).pos f k) ∧
              t.ports = (s.overtaken judged).ports) ∧
            t = { s with sources := t.sources, positions := t.positions, ports := t.ports } ∧
            ((∀ f k, (s.pos f k).base ≠ some i ∧ (s.pos f k).fallback ≠ some i ∧ ∀ e, e ∈ (s.pos f k).upper → e.source ≠ i) →
              t = s.setSrc i y) ∧
            (table.enabled ≠ x.table.enabled → (∀ f, (s.feed f).running = false) →
              ∀ f k, t.pos f k = { s.pos f k with
                baseMark := if (s.pos f k).base = some i ∨ (s.pos f k).fallback = some i then
                    (s.setSrc i y).markFor (s.pos f k).base (s.pos f k).fallback
                  else (s.pos f k).baseMark
                upper := (s.pos f k).upper.map fun e => if e.source = i ∨ (s.pos f k).fallback = some i then
                    { e with mark := (s.setSrc i y).markFor (some e.source) (s.pos f k).fallback }
                  else e })))) ∧
  ∀ (s : State) (p : PortNo) (sequence : Byte) (body : List Byte), s.serves p → body.length = 21 →
    let at' := fun k => (byteAt body k).toNat
    let id := fun c => natAt body (3 + 2 * c) 2
    let set := exec (.setSource p sequence body) s
    ((s.port p).authority.configure = false → set = .next (s.answered p .setSource sequence [0x05])) ∧
    ((s.port p).authority.configure = true →
      15 < at' 0 ∨ (∃ c ∈ [0, 1, 2, 3], 8190 < id c ∧ id c ≠ 65535) ∨ at' 11 ≠ 255 ∧ (3 < at' 11 ∨ id (at' 11) = 65535) ∨
        at' 12 = 0 ∨ 50 < at' 12 ∨ 2 < at' 13 ∨ 4095 < natAt body 14 2 ∨ 4095 < natAt body 16 2 ∨
        at' 13 = 0 ∧ natAt body 16 2 < natAt body 14 2 ∨ 15 < at' 18 ∨ at' 19 = 0 ∨ 7 < at' 19 ∨ at' 20 = 0 ∨ 7 < at' 20 →
      set = .next (s.answered p .setSource sequence [0x04])) ∧
    ∀ other : List Byte, other.length = 21 → (byteAt other 1).toNat % 8 = at' 1 % 8 → (byteAt other 2).toNat % 16 = at' 2 % 16 →
      (∀ k, k < 21 → k ≠ 1 → k ≠ 2 → byteAt other k = byteAt body k) → exec (.setSource p sequence other) s = set

/-- R93, R97, R112, R126, R143, R172: READ SOURCE, READ HEALTH, READ PLAN and READ FEED answer what they name and change nothing; a source
above 15 is refused RANGE, a feed that the feed map does not hold NOT PERMITTED. The tick count that READ FEED shows of a STOPPED feed
may be 0 or the tick count (log 16); that of a RUNNING feed is the tick count of the same moment as T and q. What fills an absent
field is the model's reading (log 18). Start pending, swap pending and faulted since acknowledged are 1 for set and 0 for clear, the
model's choice (log 32). The command leaves the port's receive state as it stands, also RECEIVING, the model's choice (log 8). -/
def Obligations.ReadsAnswered : Prop :=
  ∀ (s : State) (p : PortNo) (sequence number : Byte), s.serves p →
    (15 < number.toNat → exec (.readSource p sequence [number]) s = .next (s.answered p .readSource sequence [0x04]) ∧
      exec (.readHealth p sequence [number]) s = .next (s.answered p .readHealth sequence [0x04])) ∧
    ((s.port p).authority.feedMap.getLsbD number.toNat = false →
      exec (.readPlan p sequence [number]) s = .next (s.answered p .readPlan sequence [0x05]) ∧
      exec (.readFeed p sequence [number]) s = .next (s.answered p .readFeed sequence [0x05])) ∧
    (∀ i : SrcNo, i.val = number.toNat →
      let x := s.src i
      let health := [healthByte x.health, BitVec.ofNat 8 x.badCount, BitVec.ofNat 8 x.goodCount] ++ natBytes 2 x.n ++
        natBytes 2 x.e ++ [BitVec.ofNat 8 x.k, (if x.syncBad then 1 else 0) ||| (if x.clockSeen then 2 else 0)]
      exec (.readSource p sequence [number]) s =
        .next (s.answered p .readSource sequence
          ([0x00] ++ sourceEntryBytes x.table ++ [if x.sync = .synced then 1 else 0] ++ natBytes 2 x.ring.length ++
            natBytes 2 (s.backlog i) ++
            [(if s.backlog i = 0 then 1 else 0) ||| (if 256 ≤ s.backlog i then 2 else 0) ||| (if s.backlog i = 512 then 4 else 0),
              BitVec.ofNat 8 (s.lags i).length] ++ natBytes 2 x.overrunTotal ++ natBytes 2 x.staleTotal ++
            natBytes 2 x.contTotal ++ health ++ latchedBytes x.latched)) ∧
      exec (.readHealth p sequence [number]) s =
        .next (s.answered p .readHealth sequence
          ([0x00] ++ todBytes (some s.clock.tod) ++
            [BitVec.ofNat 8 s.scan.first.val, BitVec.ofNat 8 s.scan.last.val, BitVec.ofNat 8 s.scan.pointer.val] ++
            allSources.flatMap (fun j => [healthByte (s.src j).health, if (s.src j).latched.flag then 1 else 0]) ++
            health ++ verdictBytes x.verdict ++ latchedBytes x.latched))) ∧
    (∀ f : FeedNo, f.val = number.toNat → (s.port p).authority.feedMap.getLsbD f = true →
      let y := s.feed f
      exec (.readPlan p sequence [number]) s =
        .next (s.answered p .readPlan sequence
          ([0x00] ++ planBytes y.planA ++ natBytes 2 y.planA.total ++ planBytes y.planB ++ natBytes 2 y.planB.total ++
            [if y.activeB then 1 else 0, if y.swapPending then 1 else 0] ++ natBytes 2 y.capacity)) ∧
      ∃ tick : Tick, (tick = s.clock.tick ∨ (y.running = false ∧ tick = 0)) ∧
        exec (.readFeed p sequence [number]) s =
          .next (s.answered p .readFeed sequence
            ([0x00, if y.running then 1 else 0, if y.startPending then 1 else 0] ++ natBytes 4 y.rate ++
              natBytes 2 y.capacity ++ [if y.activeB then 1 else 0] ++
              natBytes 2 (if y.activeB then y.planB else y.planA).total ++ [if y.swapPending then 1 else 0] ++
              todBytes (y.lastSwap.map Prod.snd) ++ natBytes 5 (if y.running then y.departure.toNat else 0) ++
              natBytes 4 (if y.running then y.remainder else 0) ++ natBytes 5 tick.toNat ++ natBytes 4 y.counts.share.toNat ++
              natBytes 4 y.counts.spare.toNat ++ natBytes 4 y.counts.carousel.toNat ++ natBytes 4 y.counts.null.toNat ++
              natBytes 2 y.counts.stale ++ natBytes 2 y.counts.late)))

/-- R99, R100, R110, R111: SET SCAN sets the range and puts the pointer at first, needs the configure flag, and refuses RANGE; ACK FAULTS
clears the latched records of the named sources, and answers those whose faulted-since-acknowledged flag was set. The command leaves
the port's receive state as it stands, also RECEIVING, the model's choice (log 8). -/
def Obligations.ScanSetAndFaultsAcknowledged : Prop :=
  ∀ (s : State) (p : PortNo) (sequence first last : Byte) (set : BitVec 16), s.serves p →
    ((s.port p).authority.configure = false →
      exec (.setScan p sequence [first, last]) s = .next (s.answered p .setScan sequence [0x05])) ∧
    ((s.port p).authority.configure = true →
      (¬(first.toNat ≤ last.toNat ∧ last.toNat ≤ 15) →
        exec (.setScan p sequence [first, last]) s = .next (s.answered p .setScan sequence [0x04])) ∧
      (∀ a b : SrcNo, a.val = first.toNat → b.val = last.toNat → a ≤ b →
        exec (.setScan p sequence [first, last]) s = .next ({ s with scan := ⟨a, b, a⟩ }.answered p .setScan sequence [0x00]))) ∧
    ∃ sources, ∃ covered : BitVec 16,
      exec (.ackFaults p sequence [set.extractLsb' 8 8, set.extractLsb' 0 8]) s =
        .next ({ s with sources := sources }.answered p .ackFaults sequence ([0x00] ++ natBytes 2 covered.toNat)) ∧
      ∀ j : SrcNo, covered.getLsbD j = (set.getLsbD j && (s.src j).latched.flag) ∧
        tget sources j = if set.getLsbD j then
          { s.src j with latched := ⟨⟨false, false, false, false⟩, none, 0, false⟩ } else s.src j

/-! ### Requests: feeds -/

/-- R116, R117, R172: EDIT PLAN writes the flagged shares into the shadow plan, kept or copied from the active one first, and answers the
shadow's total, the capacity and whether it is within budget, yes as 0 and no as 1 (R170); it is refused without the feed in the feed
map, for a basis above 1, a flag that names no share or a flagged share above 4095, and while a swap is pending, and changes nothing
else. The values of shares that are not flagged are not read. The command leaves the port's receive state as it stands, also
RECEIVING, the model's choice (log 8). -/
def Obligations.PlanEdited : Prop :=
  (∀ (s : State) (p : PortNo) (sequence : Byte) (f : FeedNo) (copy : Bool) (flags : BitVec 9) (given : Plan), s.serves p →
    (∀ k, tget given.shares k < 65536) → given.carousel < 256 →
    let x := s.feed f
    let body := [BitVec.ofNat 8 f.val, boolByte copy] ++ natBytes 2 flags.toNat ++ planBytes given
    let base := if copy = x.activeB then x.planB else x.planA
    ∃ plan : Plan,
      (∀ k, tget plan.shares k = if flags.getLsbD k.val then tget given.shares k else tget base.shares k) ∧
      plan.carousel = (if flags.getLsbD 8 then given.carousel else base.carousel) ∧
      exec (.editPlan p sequence body) s =
        .next (if (s.port p).authority.feedMap.getLsbD f = false then s.answered p .editPlan sequence [0x05]
        else if ∃ k : PosNo, flags.getLsbD k.val = true ∧ 4095 < tget given.shares k then
          s.answered p .editPlan sequence [0x04]
        else if x.swapPending then s.answered p .editPlan sequence [0x0C]
        else
          (s.setFeed f (if x.activeB then { x with planA := plan } else { x with planB := plan })).answered p .editPlan sequence
            ([0x00] ++ natBytes 2 plan.total ++ natBytes 2 x.capacity ++ [if plan.total ≤ x.capacity then 0 else 1]))) ∧
  ∀ (s : State) (p : PortNo) (sequence : Byte) (body : List Byte), s.serves p → body.length = 21 →
    let held := (s.port p).authority.feedMap.getLsbD (byteAt body 0).toNat
    let edit := exec (.editPlan p sequence body) s
    (held = false → edit = .next (s.answered p .editPlan sequence [0x05])) ∧
    (held = true → 1 < (byteAt body 1).toNat ∨ 512 ≤ natAt body 2 2 → edit = .next (s.answered p .editPlan sequence [0x04])) ∧
    ∀ other : List Byte, other.length = 21 →
      (∀ k, k < 4 → byteAt other k = byteAt body k) →
      (∀ n, n < 8 → (natAt body 2 2).testBit n = true → natAt other (4 + 2 * n) 2 = natAt body (4 + 2 * n) 2) →
      ((natAt body 2 2).testBit 8 = true → byteAt other 20 = byteAt body 20) →
      exec (.editPlan p sequence other) s = edit

/-- R115, R116, R118, R121, R122: SWAP PLAN, SET FEED RATE and START FEED, each with its checks in order: authority; for a swap the shadow
within budget; for a rate its range, the feed STOPPED with no start pending, and the active plan, and the shadow while a swap is
pending, within the new capacity; for a start the feed STOPPED with no start pending. Nothing else changes. A feed number above 5 is
in no feed map. The command leaves the port's receive state as it stands, also RECEIVING, the model's choice (log 8). -/
def Obligations.FeedRequestsAnswered : Prop :=
  ∀ (s : State) (p : PortNo) (sequence : Byte) (f : FeedNo) (rate : Nat), s.serves p → rate < 4294967296 →
    let x := s.feed f
    let a := (s.port p).authority
    let shadow := if x.activeB then x.planA else x.planB
    let active := if x.activeB then x.planB else x.planA
    let capacity := rate / (1504 * s.clock.rate.fps)
    exec (.swapPlan p sequence [BitVec.ofNat 8 f.val]) s =
      .next (if a.feedMap.getLsbD f = false then s.answered p .swapPlan sequence [0x05]
      else if x.capacity < shadow.total then s.answered p .swapPlan sequence [0x0B]
      else (s.setFeed f { x with swapPending := true }).answered p .swapPlan sequence [0x00]) ∧
    exec (.setFeedRate p sequence ([BitVec.ofNat 8 f.val] ++ natBytes 4 rate)) s =
      .next (if a.configure = false ∨ a.feedMap.getLsbD f = false then s.answered p .setFeedRate sequence [0x05]
      else if rate < 1504000 ∨ 90240000 < rate then s.answered p .setFeedRate sequence [0x04]
      else if x.running = true ∨ x.startPending = true then s.answered p .setFeedRate sequence [0x0D]
      else if capacity < active.total ∨ (x.swapPending = true ∧ capacity < shadow.total) then
        s.answered p .setFeedRate sequence [0x0B]
      else (s.setFeed f { x with rate := rate, capacity := capacity }).answered p .setFeedRate sequence
        ([0x00] ++ natBytes 2 capacity)) ∧
    exec (.startFeed p sequence [BitVec.ofNat 8 f.val]) s =
      .next (if a.configure = false ∨ a.feedMap.getLsbD f = false then s.answered p .startFeed sequence [0x05]
      else if x.running = true ∨ x.startPending = true then s.answered p .startFeed sequence [0x0D]
      else (s.setFeed f { x with startPending := true }).answered p .startFeed sequence [0x00]) ∧
    ∀ number : Byte, 5 < number.toNat →
      exec (.swapPlan p sequence [number]) s = .next (s.answered p .swapPlan sequence [0x05]) ∧
      exec (.setFeedRate p sequence ([number] ++ natBytes 4 rate)) s = .next (s.answered p .setFeedRate sequence [0x05]) ∧
      exec (.startFeed p sequence [number]) s = .next (s.answered p .startFeed sequence [0x05]) ∧
      exec (.stopFeed p sequence [number]) s = .next (s.answered p .stopFeed sequence [0x05])

/-- R70, R124, R145: STOP FEED on a RUNNING feed stops it at once: the feed is STOPPED with everything else of it kept, every position of
it is STEADY with both cursors detached and no switch marks, its stack and settings kept. The owner that waits on a search gets DONE
with ABANDONED, and with LATE if it is marked late; no other record is made. It withdraws a pending start, and is refused FEED STATE
where there is neither, and NOT PERMITTED without the configure flag and the feed. The command leaves the port's receive state as it
stands, also RECEIVING, the model's choice (log 8). -/
def Obligations.FeedStopped : Prop :=
  ∀ (s : State) (p : PortNo) (sequence : Byte) (f : FeedNo), s.serves p →
    let a := (s.port p).authority
    let stop := Instr.stopFeed p sequence [BitVec.ofNat 8 f.val]
    (a.configure = false ∨ a.feedMap.getLsbD f = false → exec stop s = .next (s.answered p .stopFeed sequence [0x05])) ∧
    (a.configure = true → a.feedMap.getLsbD f = true →
      ((s.feed f).running = false →
        exec stop s = .next (if (s.feed f).startPending = true then
          (s.setFeed f { s.feed f with startPending := false }).answered p .stopFeed sequence [0x00]
        else s.answered p .stopFeed sequence [0x0D])) ∧
      ((s.feed f).running = true →
        ∃ t : State, exec stop s = .next (t.answered p .stopFeed sequence [0x00]) ∧
          (t.feed f = { s.feed f with running := false }) ∧ (∀ g, g ≠ f → t.feed g = s.feed g) ∧
          (∀ k, t.pos f k = { s.pos f k with slot := .steady, onAir := none, marks := 0 }) ∧
          (∀ g k, g ≠ f → t.pos g k = s.pos g k) ∧ (∀ j, (s.src j).trimmedTo (t.src j)) ∧
          t = { s with feeds := t.feeds, positions := t.positions, sources := t.sources, ports := t.ports } ∧
          let abandoned := fun (q : PortNo) (r : Outcome) => ∃ k i w o, (s.pos f k).slot = .seeking i w (some o) ∧ o.port = q ∧
            r = ⟨o.tag, .done, ⟨o.late, false, false, true, false⟩, f, k, s.clock.tod⟩
          ∀ q, t.port q = { s.port q with log := (t.port q).log, notices := (t.port q).notices } ∧
            (∀ r, abandoned q r → r ∈ (t.port q).log ∧ (t.port q).notices.getLsbD 0 = true) ∧
            (∀ r, r ∈ (t.port q).log → r ∈ (s.port q).log ∨ abandoned q r) ∧
            ((∀ r, ¬abandoned q r) → t.port q = s.port q)))

/-- R132 to R134, R172: LOAD TABLE writes identifier, interval and payload into a carousel slot, with the countdown at the interval and
the slot due; its checks are authority, ranges, and the identifier free in the feed but for this slot. DROP TABLE empties the slot,
with the same first two checks. Nothing else changes. A feed number above 5 is in no feed map. The command leaves the port's receive
state as it stands, also RECEIVING, the model's choice (log 8). -/
def Obligations.TablesLoadedAndDropped : Prop :=
  ∀ (s : State) (p : PortNo) (sequence c interval : Byte) (f : FeedNo) (id : Nat) (payload : List Byte), s.serves p →
    id < 65536 → payload.length = 184 →
    let x := s.feed f
    let a := (s.port p).authority
    let load := Instr.loadTable p sequence ([BitVec.ofNat 8 f.val, c] ++ natBytes 2 id ++ [interval] ++ payload)
    let drop := Instr.dropTable p sequence [BitVec.ofNat 8 f.val, c]
    (a.configure = false ∨ a.feedMap.getLsbD f = false →
      exec load s = .next (s.answered p .loadTable sequence [0x05]) ∧
      exec drop s = .next (s.answered p .dropTable sequence [0x05])) ∧
    (a.configure = true → a.feedMap.getLsbD f = true →
      (15 < c.toNat → exec load s = .next (s.answered p .loadTable sequence [0x04]) ∧
        exec drop s = .next (s.answered p .dropTable sequence [0x04])) ∧
      ∀ slot : TableNo, slot.val = c.toNat →
        exec load s =
          .next (if id < 1 ∨ 8190 < id ∨ interval.toNat < 1 ∨ 250 < interval.toNat then
            s.answered p .loadTable sequence [0x04]
          else if id ∈ s.feedIds f none (some slot) then s.answered p .loadTable sequence [0x0E]
          else (s.setFeed f { x with
              carousel := tset x.carousel slot (some ⟨id, interval.toNat, payload, interval.toNat, true⟩) }).answered
            p .loadTable sequence [0x00]) ∧
        exec drop s =
          .next ((s.setFeed f { x with carousel := tset x.carousel slot none }).answered p .dropTable sequence [0x00])) ∧
    ∀ number : Byte, 5 < number.toNat →
      exec (.loadTable p sequence ([number, c] ++ natBytes 2 id ++ [interval] ++ payload)) s =
        .next (s.answered p .loadTable sequence [0x05]) ∧
      exec (.dropTable p sequence [number, c]) s = .next (s.answered p .dropTable sequence [0x05])

/-! ### Invariants -/

/-- R3, R4, R6, R7, R11, R13: every step keeps the clock sound: the time of day and a pending load valid, the timer 1 to the ticks per
frame and at 1 while an underflow stands to be taken (log 12), the run count 0 to 3, the frame-start tick no more than one frame and
270 ticks before the next underflow, the late window that of the latest frame event. -/
def Obligations.StepKeepsClockSound : Prop :=
  ∀ (s t : State), s.clock.Sound → step s = .next t → t.clock.Sound

/-- R38, R115, R116, R118, R125, R128, R134: every step keeps every feed sound: the active plan within budget, the shadow while its swap
is pending, the rate in range, the remainder below the rate; with what holds while the image is read (R153, R163). It keeps too each
feed's capacity that of its rate, and the identifiers of its positions and carousel slots distinct. -/
def Obligations.StepKeepsFeedsSound : Prop :=
  ∀ (s t : State), s.LoadSound → (∀ f, (s.feed f).Sound) → step s = .next t →
    (t.LoadSound ∧ ∀ f, (t.feed f).Sound) ∧ (s.CapacitySound → t.CapacitySound) ∧ (s.IdsSound → t.IdsSound)

/-- R25, R41, R42, R50, R51: every step keeps every selection stack sound: at most 4 entries with the base, classes never decreasing
upward. It keeps every substitution mark the one that R50 gives, whatever the step does to health, permits, fallbacks and stacks. -/
def Obligations.StepKeepsStacksSound : Prop :=
  ∀ (s t : State), step s = .next t →
    ((∀ f p, (s.pos f p).StackSound) → ∀ f p, (t.pos f p).StackSound) ∧ (s.LoadSound → s.MarksSound → t.MarksSound)

/-- R54, R57, R70, R71: every step keeps every transition slot sound: a position of a RUNNING feed reads its effective source or searches
for it, and one of a STOPPED feed reads nothing. -/
def Obligations.StepKeepsSlotsSound : Prop :=
  ∀ (s t : State), s.LoadSound → (∀ f p, (s.pos f p).SlotSound (s.feed f).running) → step s = .next t →
    ∀ f p, (t.pos f p).SlotSound (t.feed f).running

/-- R16, R20: every step keeps the switch list sound: at most 128 entries, the pool use within the pool; and keeps its order: the late
entries at the head, and then the scheduled ones by their distance, each 1 to D/2 frames ahead. -/
def Obligations.StepKeepsListSound : Prop :=
  ∀ (s t : State), s.LoadSound → s.list.Sound → step s = .next t →
    (t.LoadSound ∧ t.list.Sound) ∧ (s.clock.Sound → s.ListOrdered → t.ListOrdered)

/-- R149, R151, R152, R159: every step keeps every control port sound: the bounds of the log and of the reply list, and a reply list whose
head is being sent. -/
def Obligations.StepKeepsPortsSound : Prop :=
  ∀ (s t : State), (∀ p, (s.port p).Sound) → step s = .next t → ∀ p, (t.port p).Sound

/-- R91 to R93, R96, R99 to R102: every step keeps every source sound: at most 512 packets in its ring, every count within its range; and
keeps what each ring holds: while a cursor is attached to it, on-air or preview, as many packets as its backlog, the largest lag. The
scan pointer stays between the first and the last source of the scan range. -/
def Obligations.StepKeepsSourcesSound : Prop :=
  ∀ (s t : State), (∀ i, (s.src i).Sound) → step s = .next t →
    (∀ i, (t.src i).Sound) ∧ (s.RingsSound → t.RingsSound) ∧ (s.scan.Sound → t.scan.Sound)

/-- R18: every step keeps the tags of each port's live items, its list entries and its stack entries at every position, pairwise distinct. -/
def Obligations.StepKeepsTagsDistinct : Prop :=
  ∀ (s t : State), (∀ p, (s.liveTags p).Nodup) → step s = .next t → ∀ p, (t.liveTags p).Nodup

/-- The part right after reset is sound in every way that a step keeps. -/
def Obligations.ResetIsSound : Prop :=
  State.reset.clock.Sound ∧ State.reset.LoadSound ∧ State.reset.list.Sound ∧ (∀ f, (State.reset.feed f).Sound) ∧
    (∀ f p, (State.reset.pos f p).StackSound ∧ (State.reset.pos f p).SlotSound (State.reset.feed f).running) ∧
    (∀ i, (State.reset.src i).Sound) ∧ State.reset.RingsSound ∧ State.reset.ListOrdered ∧
    State.reset.CapacitySound ∧ State.reset.IdsSound ∧ State.reset.MarksSound ∧ State.reset.scan.Sound ∧
    (∀ p, (State.reset.port p).Sound) ∧ ∀ p, (State.reset.liveTags p).Nodup
end

