-- ==== Sys2Proof/Laws/State.lean ====
section
/-! SUPPORT. Reading a state after one item of it is written: one lemma for each field and each update. -/

namespace Sys2Proof

/-- Reading a table after one entry is written. -/
@[simp] theorem tget_tset {α : Type} {n : Nat} (v : Vector α n) (i j : Fin n) (x : α) :
    tget (tset v i x) j = if i = j then x else tget v j := by
  simp [tget, tset, Vector.getElem_set, Fin.ext_iff]

/-- A table of equal entries. -/
@[simp] theorem tget_replicate {α : Type} {n : Nat} (x : α) (i : Fin n) : tget (Vector.replicate n x) i = x := by
  simp [tget]

/-- Reading a table whose entries are all changed alike. -/
@[simp] theorem tget_tmap {α β : Type} {n : Nat} (f : α → β) (v : Vector α n) (i : Fin n) :
    tget (tmap f v) i = f (tget v i) := by
  cases v with
  | mk a h => simp [tget, tmap]

/-- Writing back what a table holds changes nothing. -/
@[simp] theorem tset_tget {α : Type} {n : Nat} (v : Vector α n) (i : Fin n) : tset v i (tget v i) = v := by
  simp [tset, tget]

/-- Tables are equal when their entries are. -/
theorem tget_ext {α : Type} {n : Nat} (v w : Vector α n) (h : ∀ i, tget v i = tget w i) : v = w := by
  apply Vector.ext
  intro i hi
  exact h ⟨i, hi⟩

namespace Machine

/-! ### setPos -/

@[simp] theorem State.setPos_pending (s : State) (f : FeedNo) (p : PosNo) (x : Position) : (s.setPos f p x).pending = s.pending := rfl
@[simp] theorem State.setPos_held (s : State) (f : FeedNo) (p : PosNo) (x : Position) : (s.setPos f p x).held = s.held := rfl
@[simp] theorem State.setPos_clock (s : State) (f : FeedNo) (p : PosNo) (x : Position) : (s.setPos f p x).clock = s.clock := rfl
@[simp] theorem State.setPos_list (s : State) (f : FeedNo) (p : PosNo) (x : Position) : (s.setPos f p x).list = s.list := rfl
@[simp] theorem State.setPos_lines (s : State) (f : FeedNo) (p : PosNo) (x : Position) : (s.setPos f p x).lines = s.lines := rfl
@[simp] theorem State.setPos_sources (s : State) (f : FeedNo) (p : PosNo) (x : Position) : (s.setPos f p x).sources = s.sources := rfl
@[simp] theorem State.setPos_scan (s : State) (f : FeedNo) (p : PosNo) (x : Position) : (s.setPos f p x).scan = s.scan := rfl
@[simp] theorem State.setPos_feeds (s : State) (f : FeedNo) (p : PosNo) (x : Position) : (s.setPos f p x).feeds = s.feeds := rfl
@[simp] theorem State.setPos_ports (s : State) (f : FeedNo) (p : PosNo) (x : Position) : (s.setPos f p x).ports = s.ports := rfl
@[simp] theorem State.setPos_loader (s : State) (f : FeedNo) (p : PosNo) (x : Position) : (s.setPos f p x).loader = s.loader := rfl
@[simp] theorem State.setPos_src (s : State) (f : FeedNo) (p : PosNo) (x : Position) (j : SrcNo) : (s.setPos f p x).src j = s.src j := rfl
@[simp] theorem State.setPos_feed (s : State) (f : FeedNo) (p : PosNo) (x : Position) (g : FeedNo) : (s.setPos f p x).feed g = s.feed g := rfl
@[simp] theorem State.setPos_line (s : State) (f : FeedNo) (p : PosNo) (x : Position) (m : LineNo) : (s.setPos f p x).line m = s.line m := rfl
@[simp] theorem State.setPos_port (s : State) (f : FeedNo) (p : PosNo) (x : Position) (q : PortNo) : (s.setPos f p x).port q = s.port q := rfl

/-! ### setSrc -/

@[simp] theorem State.setSrc_pending (s : State) (i : SrcNo) (x : Source) : (s.setSrc i x).pending = s.pending := rfl
@[simp] theorem State.setSrc_held (s : State) (i : SrcNo) (x : Source) : (s.setSrc i x).held = s.held := rfl
@[simp] theorem State.setSrc_clock (s : State) (i : SrcNo) (x : Source) : (s.setSrc i x).clock = s.clock := rfl
@[simp] theorem State.setSrc_list (s : State) (i : SrcNo) (x : Source) : (s.setSrc i x).list = s.list := rfl
@[simp] theorem State.setSrc_positions (s : State) (i : SrcNo) (x : Source) : (s.setSrc i x).positions = s.positions := rfl
@[simp] theorem State.setSrc_lines (s : State) (i : SrcNo) (x : Source) : (s.setSrc i x).lines = s.lines := rfl
@[simp] theorem State.setSrc_scan (s : State) (i : SrcNo) (x : Source) : (s.setSrc i x).scan = s.scan := rfl
@[simp] theorem State.setSrc_feeds (s : State) (i : SrcNo) (x : Source) : (s.setSrc i x).feeds = s.feeds := rfl
@[simp] theorem State.setSrc_ports (s : State) (i : SrcNo) (x : Source) : (s.setSrc i x).ports = s.ports := rfl
@[simp] theorem State.setSrc_loader (s : State) (i : SrcNo) (x : Source) : (s.setSrc i x).loader = s.loader := rfl
@[simp] theorem State.setSrc_pos (s : State) (i : SrcNo) (x : Source) (g : FeedNo) (q : PosNo) : (s.setSrc i x).pos g q = s.pos g q := rfl
@[simp] theorem State.setSrc_feed (s : State) (i : SrcNo) (x : Source) (g : FeedNo) : (s.setSrc i x).feed g = s.feed g := rfl
@[simp] theorem State.setSrc_line (s : State) (i : SrcNo) (x : Source) (m : LineNo) : (s.setSrc i x).line m = s.line m := rfl
@[simp] theorem State.setSrc_port (s : State) (i : SrcNo) (x : Source) (q : PortNo) : (s.setSrc i x).port q = s.port q := rfl

/-! ### setFeed -/

@[simp] theorem State.setFeed_pending (s : State) (f : FeedNo) (x : Feed) : (s.setFeed f x).pending = s.pending := rfl
@[simp] theorem State.setFeed_held (s : State) (f : FeedNo) (x : Feed) : (s.setFeed f x).held = s.held := rfl
@[simp] theorem State.setFeed_clock (s : State) (f : FeedNo) (x : Feed) : (s.setFeed f x).clock = s.clock := rfl
@[simp] theorem State.setFeed_list (s : State) (f : FeedNo) (x : Feed) : (s.setFeed f x).list = s.list := rfl
@[simp] theorem State.setFeed_positions (s : State) (f : FeedNo) (x : Feed) : (s.setFeed f x).positions = s.positions := rfl
@[simp] theorem State.setFeed_lines (s : State) (f : FeedNo) (x : Feed) : (s.setFeed f x).lines = s.lines := rfl
@[simp] theorem State.setFeed_sources (s : State) (f : FeedNo) (x : Feed) : (s.setFeed f x).sources = s.sources := rfl
@[simp] theorem State.setFeed_scan (s : State) (f : FeedNo) (x : Feed) : (s.setFeed f x).scan = s.scan := rfl
@[simp] theorem State.setFeed_ports (s : State) (f : FeedNo) (x : Feed) : (s.setFeed f x).ports = s.ports := rfl
@[simp] theorem State.setFeed_loader (s : State) (f : FeedNo) (x : Feed) : (s.setFeed f x).loader = s.loader := rfl
@[simp] theorem State.setFeed_pos (s : State) (f : FeedNo) (x : Feed) (g : FeedNo) (q : PosNo) : (s.setFeed f x).pos g q = s.pos g q := rfl
@[simp] theorem State.setFeed_src (s : State) (f : FeedNo) (x : Feed) (j : SrcNo) : (s.setFeed f x).src j = s.src j := rfl
@[simp] theorem State.setFeed_line (s : State) (f : FeedNo) (x : Feed) (m : LineNo) : (s.setFeed f x).line m = s.line m := rfl
@[simp] theorem State.setFeed_port (s : State) (f : FeedNo) (x : Feed) (q : PortNo) : (s.setFeed f x).port q = s.port q := rfl

/-! ### setLine -/

@[simp] theorem State.setLine_pending (s : State) (l : LineNo) (x : CueLine) : (s.setLine l x).pending = s.pending := rfl
@[simp] theorem State.setLine_held (s : State) (l : LineNo) (x : CueLine) : (s.setLine l x).held = s.held := rfl
@[simp] theorem State.setLine_clock (s : State) (l : LineNo) (x : CueLine) : (s.setLine l x).clock = s.clock := rfl
@[simp] theorem State.setLine_list (s : State) (l : LineNo) (x : CueLine) : (s.setLine l x).list = s.list := rfl
@[simp] theorem State.setLine_positions (s : State) (l : LineNo) (x : CueLine) : (s.setLine l x).positions = s.positions := rfl
@[simp] theorem State.setLine_sources (s : State) (l : LineNo) (x : CueLine) : (s.setLine l x).sources = s.sources := rfl
@[simp] theorem State.setLine_scan (s : State) (l : LineNo) (x : CueLine) : (s.setLine l x).scan = s.scan := rfl
@[simp] theorem State.setLine_feeds (s : State) (l : LineNo) (x : CueLine) : (s.setLine l x).feeds = s.feeds := rfl
@[simp] theorem State.setLine_ports (s : State) (l : LineNo) (x : CueLine) : (s.setLine l x).ports = s.ports := rfl
@[simp] theorem State.setLine_loader (s : State) (l : LineNo) (x : CueLine) : (s.setLine l x).loader = s.loader := rfl
@[simp] theorem State.setLine_pos (s : State) (l : LineNo) (x : CueLine) (g : FeedNo) (q : PosNo) : (s.setLine l x).pos g q = s.pos g q := rfl
@[simp] theorem State.setLine_src (s : State) (l : LineNo) (x : CueLine) (j : SrcNo) : (s.setLine l x).src j = s.src j := rfl
@[simp] theorem State.setLine_feed (s : State) (l : LineNo) (x : CueLine) (g : FeedNo) : (s.setLine l x).feed g = s.feed g := rfl
@[simp] theorem State.setLine_port (s : State) (l : LineNo) (x : CueLine) (q : PortNo) : (s.setLine l x).port q = s.port q := rfl

/-! ### setPort -/

@[simp] theorem State.setPort_pending (s : State) (p : PortNo) (x : ControlPort) : (s.setPort p x).pending = s.pending := rfl
@[simp] theorem State.setPort_held (s : State) (p : PortNo) (x : ControlPort) : (s.setPort p x).held = s.held := rfl
@[simp] theorem State.setPort_clock (s : State) (p : PortNo) (x : ControlPort) : (s.setPort p x).clock = s.clock := rfl
@[simp] theorem State.setPort_list (s : State) (p : PortNo) (x : ControlPort) : (s.setPort p x).list = s.list := rfl
@[simp] theorem State.setPort_positions (s : State) (p : PortNo) (x : ControlPort) : (s.setPort p x).positions = s.positions := rfl
@[simp] theorem State.setPort_lines (s : State) (p : PortNo) (x : ControlPort) : (s.setPort p x).lines = s.lines := rfl
@[simp] theorem State.setPort_sources (s : State) (p : PortNo) (x : ControlPort) : (s.setPort p x).sources = s.sources := rfl
@[simp] theorem State.setPort_scan (s : State) (p : PortNo) (x : ControlPort) : (s.setPort p x).scan = s.scan := rfl
@[simp] theorem State.setPort_feeds (s : State) (p : PortNo) (x : ControlPort) : (s.setPort p x).feeds = s.feeds := rfl
@[simp] theorem State.setPort_loader (s : State) (p : PortNo) (x : ControlPort) : (s.setPort p x).loader = s.loader := rfl
@[simp] theorem State.setPort_pos (s : State) (p : PortNo) (x : ControlPort) (g : FeedNo) (q : PosNo) : (s.setPort p x).pos g q = s.pos g q := rfl
@[simp] theorem State.setPort_src (s : State) (p : PortNo) (x : ControlPort) (j : SrcNo) : (s.setPort p x).src j = s.src j := rfl
@[simp] theorem State.setPort_feed (s : State) (p : PortNo) (x : ControlPort) (g : FeedNo) : (s.setPort p x).feed g = s.feed g := rfl
@[simp] theorem State.setPort_line (s : State) (p : PortNo) (x : ControlPort) (m : LineNo) : (s.setPort p x).line m = s.line m := rfl

@[simp] theorem State.pos_setPos (s : State) (f g : FeedNo) (p q : PosNo) (x : Position) :
    (s.setPos f p x).pos g q = if f = g ∧ p = q then x else s.pos g q := by
  by_cases h : f = g <;> by_cases k : p = q <;> simp [State.pos, State.setPos, h, k]

@[simp] theorem State.src_setSrc (s : State) (i j : SrcNo) (x : Source) :
    (s.setSrc i x).src j = if i = j then x else s.src j := by simp [State.src, State.setSrc]

@[simp] theorem State.feed_setFeed (s : State) (f g : FeedNo) (x : Feed) :
    (s.setFeed f x).feed g = if f = g then x else s.feed g := by simp [State.feed, State.setFeed]

@[simp] theorem State.line_setLine (s : State) (l m : LineNo) (x : CueLine) :
    (s.setLine l x).line m = if l = m then x else s.line m := by simp [State.line, State.setLine]

@[simp] theorem State.port_setPort (s : State) (p q : PortNo) (x : ControlPort) :
    (s.setPort p x).port q = if p = q then x else s.port q := by simp [State.port, State.setPort]

/-! ### Fields replaced by record updates -/

@[simp] theorem State.pos_with_pending (s : State) (v : List Instr) (g : FeedNo) (q : PosNo) : ({ s with pending := v } : State).pos g q = s.pos g q := rfl
@[simp] theorem State.src_with_pending (s : State) (v : List Instr) (j : SrcNo) : ({ s with pending := v } : State).src j = s.src j := rfl
@[simp] theorem State.feed_with_pending (s : State) (v : List Instr) (g : FeedNo) : ({ s with pending := v } : State).feed g = s.feed g := rfl
@[simp] theorem State.line_with_pending (s : State) (v : List Instr) (m : LineNo) : ({ s with pending := v } : State).line m = s.line m := rfl
@[simp] theorem State.port_with_pending (s : State) (v : List Instr) (q : PortNo) : ({ s with pending := v } : State).port q = s.port q := rfl
@[simp] theorem State.pos_with_held (s : State) (v : Bool) (g : FeedNo) (q : PosNo) : ({ s with held := v } : State).pos g q = s.pos g q := rfl
@[simp] theorem State.src_with_held (s : State) (v : Bool) (j : SrcNo) : ({ s with held := v } : State).src j = s.src j := rfl
@[simp] theorem State.feed_with_held (s : State) (v : Bool) (g : FeedNo) : ({ s with held := v } : State).feed g = s.feed g := rfl
@[simp] theorem State.line_with_held (s : State) (v : Bool) (m : LineNo) : ({ s with held := v } : State).line m = s.line m := rfl
@[simp] theorem State.port_with_held (s : State) (v : Bool) (q : PortNo) : ({ s with held := v } : State).port q = s.port q := rfl
@[simp] theorem State.pos_with_clock (s : State) (v : Clock) (g : FeedNo) (q : PosNo) : ({ s with clock := v } : State).pos g q = s.pos g q := rfl
@[simp] theorem State.src_with_clock (s : State) (v : Clock) (j : SrcNo) : ({ s with clock := v } : State).src j = s.src j := rfl
@[simp] theorem State.feed_with_clock (s : State) (v : Clock) (g : FeedNo) : ({ s with clock := v } : State).feed g = s.feed g := rfl
@[simp] theorem State.line_with_clock (s : State) (v : Clock) (m : LineNo) : ({ s with clock := v } : State).line m = s.line m := rfl
@[simp] theorem State.port_with_clock (s : State) (v : Clock) (q : PortNo) : ({ s with clock := v } : State).port q = s.port q := rfl
@[simp] theorem State.pos_with_list (s : State) (v : SwitchList) (g : FeedNo) (q : PosNo) : ({ s with list := v } : State).pos g q = s.pos g q := rfl
@[simp] theorem State.src_with_list (s : State) (v : SwitchList) (j : SrcNo) : ({ s with list := v } : State).src j = s.src j := rfl
@[simp] theorem State.feed_with_list (s : State) (v : SwitchList) (g : FeedNo) : ({ s with list := v } : State).feed g = s.feed g := rfl
@[simp] theorem State.line_with_list (s : State) (v : SwitchList) (m : LineNo) : ({ s with list := v } : State).line m = s.line m := rfl
@[simp] theorem State.port_with_list (s : State) (v : SwitchList) (q : PortNo) : ({ s with list := v } : State).port q = s.port q := rfl
@[simp] theorem State.src_with_positions (s : State) (v : Vector (Vector Position 8) 6) (j : SrcNo) : ({ s with positions := v } : State).src j = s.src j := rfl
@[simp] theorem State.feed_with_positions (s : State) (v : Vector (Vector Position 8) 6) (g : FeedNo) : ({ s with positions := v } : State).feed g = s.feed g := rfl
@[simp] theorem State.line_with_positions (s : State) (v : Vector (Vector Position 8) 6) (m : LineNo) : ({ s with positions := v } : State).line m = s.line m := rfl
@[simp] theorem State.port_with_positions (s : State) (v : Vector (Vector Position 8) 6) (q : PortNo) : ({ s with positions := v } : State).port q = s.port q := rfl
@[simp] theorem State.pos_with_lines (s : State) (v : Vector CueLine 8) (g : FeedNo) (q : PosNo) : ({ s with lines := v } : State).pos g q = s.pos g q := rfl
@[simp] theorem State.src_with_lines (s : State) (v : Vector CueLine 8) (j : SrcNo) : ({ s with lines := v } : State).src j = s.src j := rfl
@[simp] theorem State.feed_with_lines (s : State) (v : Vector CueLine 8) (g : FeedNo) : ({ s with lines := v } : State).feed g = s.feed g := rfl
@[simp] theorem State.port_with_lines (s : State) (v : Vector CueLine 8) (q : PortNo) : ({ s with lines := v } : State).port q = s.port q := rfl
@[simp] theorem State.pos_with_sources (s : State) (v : Vector Source 16) (g : FeedNo) (q : PosNo) : ({ s with sources := v } : State).pos g q = s.pos g q := rfl
@[simp] theorem State.feed_with_sources (s : State) (v : Vector Source 16) (g : FeedNo) : ({ s with sources := v } : State).feed g = s.feed g := rfl
@[simp] theorem State.line_with_sources (s : State) (v : Vector Source 16) (m : LineNo) : ({ s with sources := v } : State).line m = s.line m := rfl
@[simp] theorem State.port_with_sources (s : State) (v : Vector Source 16) (q : PortNo) : ({ s with sources := v } : State).port q = s.port q := rfl
@[simp] theorem State.pos_with_scan (s : State) (v : Scan) (g : FeedNo) (q : PosNo) : ({ s with scan := v } : State).pos g q = s.pos g q := rfl
@[simp] theorem State.src_with_scan (s : State) (v : Scan) (j : SrcNo) : ({ s with scan := v } : State).src j = s.src j := rfl
@[simp] theorem State.feed_with_scan (s : State) (v : Scan) (g : FeedNo) : ({ s with scan := v } : State).feed g = s.feed g := rfl
@[simp] theorem State.line_with_scan (s : State) (v : Scan) (m : LineNo) : ({ s with scan := v } : State).line m = s.line m := rfl
@[simp] theorem State.port_with_scan (s : State) (v : Scan) (q : PortNo) : ({ s with scan := v } : State).port q = s.port q := rfl
@[simp] theorem State.pos_with_feeds (s : State) (v : Vector Feed 6) (g : FeedNo) (q : PosNo) : ({ s with feeds := v } : State).pos g q = s.pos g q := rfl
@[simp] theorem State.src_with_feeds (s : State) (v : Vector Feed 6) (j : SrcNo) : ({ s with feeds := v } : State).src j = s.src j := rfl
@[simp] theorem State.line_with_feeds (s : State) (v : Vector Feed 6) (m : LineNo) : ({ s with feeds := v } : State).line m = s.line m := rfl
@[simp] theorem State.port_with_feeds (s : State) (v : Vector Feed 6) (q : PortNo) : ({ s with feeds := v } : State).port q = s.port q := rfl
@[simp] theorem State.pos_with_ports (s : State) (v : Vector ControlPort 4) (g : FeedNo) (q : PosNo) : ({ s with ports := v } : State).pos g q = s.pos g q := rfl
@[simp] theorem State.src_with_ports (s : State) (v : Vector ControlPort 4) (j : SrcNo) : ({ s with ports := v } : State).src j = s.src j := rfl
@[simp] theorem State.feed_with_ports (s : State) (v : Vector ControlPort 4) (g : FeedNo) : ({ s with ports := v } : State).feed g = s.feed g := rfl
@[simp] theorem State.line_with_ports (s : State) (v : Vector ControlPort 4) (m : LineNo) : ({ s with ports := v } : State).line m = s.line m := rfl
@[simp] theorem State.pos_with_loader (s : State) (v : Loader) (g : FeedNo) (q : PosNo) : ({ s with loader := v } : State).pos g q = s.pos g q := rfl
@[simp] theorem State.src_with_loader (s : State) (v : Loader) (j : SrcNo) : ({ s with loader := v } : State).src j = s.src j := rfl
@[simp] theorem State.feed_with_loader (s : State) (v : Loader) (g : FeedNo) : ({ s with loader := v } : State).feed g = s.feed g := rfl
@[simp] theorem State.line_with_loader (s : State) (v : Loader) (m : LineNo) : ({ s with loader := v } : State).line m = s.line m := rfl
@[simp] theorem State.port_with_loader (s : State) (v : Loader) (q : PortNo) : ({ s with loader := v } : State).port q = s.port q := rfl

/-! ### The port of a state with its reply list replaced -/

@[simp] theorem State.setReplies_port (s : State) (p q : PortNo) (l : List Item) :
    (s.setReplies p l).port q = if p = q then { s.port p with replies := l } else s.port q := by
  simp [State.setReplies]

/-! ### Commands -/

/-- An event that does not stand to come does nothing. -/
theorem State.runTimed_none (s : State) (e : TimedEvent) (o : FrameOrder) (h : s.dueIn e = none) : s.runTimed e o = s := by
  unfold State.runTimed; rw [h]

/-- Where no piece is due, taking them changes nothing. -/
theorem State.settle_of_calm (s : State) (h : s.calm = true) : s.settle = s := by
  unfold State.calm at h; unfold State.settle
  generalize allPieces = l at h
  induction l with
  | nil => rfl
  | cons e l ih =>
    simp only [List.all_cons, Bool.and_eq_true, Option.isNone_iff_eq_none] at h
    rw [List.foldl_cons, s.runTimed_none e _ h.1]
    exact ih h.2

/-- Whether a piece is due is a matter of the positions, the feeds and which ports are to change speed now. -/
theorem State.calm_congr {s t : State} (p : t.positions = s.positions) (f : t.feeds = s.feeds)
    (q : ∀ k, ((t.port k).pendingSpeed.isSome && (t.port k).quiet) = ((s.port k).pendingSpeed.isSome && (s.port k).quiet)) :
    t.calm = s.calm := by
  unfold State.calm allPieces framePieces
  simp only [List.all_append, List.all_map, List.all_flatMap, Function.comp_def, State.dueIn, State.pos, State.feed, p, f, q]
  rfl

/-- A port's other fields do not matter. -/
theorem State.calm_setPort (s : State) (p : PortNo) (x : ControlPort)
    (q : (x.pendingSpeed.isSome && x.quiet) = ((s.port p).pendingSpeed.isSome && (s.port p).quiet)) :
    (s.setPort p x).calm = s.calm := by
  refine State.calm_congr rfl rfl fun k => ?_
  by_cases e : p = k
  · subst e; simp [q]
  · simp [e]

/-- A port with something in its reply list is not quiet. -/
theorem ControlPort.quiet_of_replies {x : ControlPort} (h : x.replies ≠ []) : x.quiet = false := by
  simp [ControlPort.quiet, h]

/-- A RECEIVING port is not quiet. -/
theorem ControlPort.quiet_of_rx {x : ControlPort} (h : x.rx ≠ .waiting) : x.quiet = false := by
  simp [ControlPort.quiet, h]

@[simp] theorem State.calm_setSrc (s : State) (i : SrcNo) (x : Source) : (s.setSrc i x).calm = s.calm :=
  State.calm_congr rfl rfl fun _ => rfl

@[simp] theorem State.calm_setLine (s : State) (l : LineNo) (x : CueLine) : (s.setLine l x).calm = s.calm :=
  State.calm_congr rfl rfl fun _ => rfl

/-- A command has its effect while RESETN is released and no piece is due. -/
theorem State.act_calm (s : State) (f : State → State) (h : s.held = false) (k : s.calm = true) : s.act f = .next (f s) := by
  simp [State.act, h, s.settle_of_calm k]

/-- A command has its effect, while RESETN is released, on the state in which the pieces are taken. -/
@[simp] theorem State.act_released (s : State) (f : State → State) (h : s.held = false) : s.act f = .next (f s.settle) := by
  simp [State.act, h]

/-- The command of a piece takes it while RESETN is released. -/
@[simp] theorem State.actPiece_released (s : State) (e : TimedEvent) (h : s.held = false) :
    s.actPiece e = .next (s.runTimed e FrameOrder.plain) := by
  simp [State.actPiece, h]

/-- The command of a piece has no effect while RESETN is asserted. -/
@[simp] theorem State.actPiece_held (s : State) (e : TimedEvent) (h : s.held = true) : s.actPiece e = .next s := by
  simp [State.actPiece, h]

/-- A command has no effect while RESETN is asserted. -/
@[simp] theorem State.act_held (s : State) (f : State → State) (h : s.held = true) : s.act f = .next s := by
  simp [State.act, h]

/-! ### nextSlot

These are not proved by `rfl` alone: the kernel would compare the slot clocks first, and work through the slot constant. -/

@[simp] theorem Feed.nextSlot_running (x : Feed) : x.nextSlot.running = x.running := by unfold Feed.nextSlot; rfl
@[simp] theorem Feed.nextSlot_startPending (x : Feed) : x.nextSlot.startPending = x.startPending := by unfold Feed.nextSlot; rfl
@[simp] theorem Feed.nextSlot_rate (x : Feed) : x.nextSlot.rate = x.rate := by unfold Feed.nextSlot; rfl
@[simp] theorem Feed.nextSlot_capacity (x : Feed) : x.nextSlot.capacity = x.capacity := by unfold Feed.nextSlot; rfl
@[simp] theorem Feed.nextSlot_planA (x : Feed) : x.nextSlot.planA = x.planA := by unfold Feed.nextSlot; rfl
@[simp] theorem Feed.nextSlot_planB (x : Feed) : x.nextSlot.planB = x.planB := by unfold Feed.nextSlot; rfl
@[simp] theorem Feed.nextSlot_activeB (x : Feed) : x.nextSlot.activeB = x.activeB := by unfold Feed.nextSlot; rfl
@[simp] theorem Feed.nextSlot_swapPending (x : Feed) : x.nextSlot.swapPending = x.swapPending := by unfold Feed.nextSlot; rfl
@[simp] theorem Feed.nextSlot_lastSwap (x : Feed) : x.nextSlot.lastSwap = x.lastSwap := by unfold Feed.nextSlot; rfl
@[simp] theorem Feed.nextSlot_shares (x : Feed) : x.nextSlot.shares = x.shares := by unfold Feed.nextSlot; rfl
@[simp] theorem Feed.nextSlot_carouselShare (x : Feed) : x.nextSlot.carouselShare = x.carouselShare := by unfold Feed.nextSlot; rfl
@[simp] theorem Feed.nextSlot_sharePtr (x : Feed) : x.nextSlot.sharePtr = x.sharePtr := by unfold Feed.nextSlot; rfl
@[simp] theorem Feed.nextSlot_sparePtr (x : Feed) : x.nextSlot.sparePtr = x.sparePtr := by unfold Feed.nextSlot; rfl
@[simp] theorem Feed.nextSlot_carousel (x : Feed) : x.nextSlot.carousel = x.carousel := by unfold Feed.nextSlot; rfl
@[simp] theorem Feed.nextSlot_counters (x : Feed) : x.nextSlot.counters = x.counters := by unfold Feed.nextSlot; rfl
@[simp] theorem Feed.nextSlot_counts (x : Feed) : x.nextSlot.counts = x.counts := by unfold Feed.nextSlot; rfl
@[simp] theorem Feed.nextSlot_output (x : Feed) : x.nextSlot.output = x.output := by unfold Feed.nextSlot; rfl
@[simp] theorem Feed.nextSlot_active (x : Feed) : x.nextSlot.active = x.active := by unfold Feed.nextSlot Feed.active; rfl
@[simp] theorem Feed.nextSlot_shadow (x : Feed) : x.nextSlot.shadow = x.shadow := by unfold Feed.nextSlot Feed.shadow; rfl

/-! ### advance

Not by `rfl` alone either, for the same reason: the kernel would compare the tick counts first. -/

@[simp] theorem State.advance_pending (s : State) (d : Nat) : (s.advance d).pending = s.pending := by unfold State.advance; rfl
@[simp] theorem State.advance_held (s : State) (d : Nat) : (s.advance d).held = s.held := by unfold State.advance; rfl
@[simp] theorem State.advance_list (s : State) (d : Nat) : (s.advance d).list = s.list := by unfold State.advance; rfl
@[simp] theorem State.advance_positions (s : State) (d : Nat) : (s.advance d).positions = s.positions := by unfold State.advance; rfl
@[simp] theorem State.advance_lines (s : State) (d : Nat) : (s.advance d).lines = s.lines := by unfold State.advance; rfl
@[simp] theorem State.advance_sources (s : State) (d : Nat) : (s.advance d).sources = s.sources := by unfold State.advance; rfl
@[simp] theorem State.advance_scan (s : State) (d : Nat) : (s.advance d).scan = s.scan := by unfold State.advance; rfl
@[simp] theorem State.advance_feeds (s : State) (d : Nat) : (s.advance d).feeds = s.feeds := by unfold State.advance; rfl
@[simp] theorem State.advance_ports (s : State) (d : Nat) : (s.advance d).ports = s.ports := by unfold State.advance; rfl
@[simp] theorem State.advance_loader (s : State) (d : Nat) : (s.advance d).loader = s.loader := by unfold State.advance; rfl
@[simp] theorem State.advance_clock_rate (s : State) (d : Nat) : (s.advance d).clock.rate = s.clock.rate := by unfold State.advance; rfl
@[simp] theorem State.advance_clock_tod (s : State) (d : Nat) : (s.advance d).clock.tod = s.clock.tod := by unfold State.advance; rfl
@[simp] theorem State.advance_clock_frameStart (s : State) (d : Nat) : (s.advance d).clock.frameStart = s.clock.frameStart := by unfold State.advance; rfl
@[simp] theorem State.advance_clock_late (s : State) (d : Nat) : (s.advance d).clock.late = s.clock.late := by unfold State.advance; rfl
@[simp] theorem State.advance_clock_ref (s : State) (d : Nat) : (s.advance d).clock.ref = s.clock.ref := by unfold State.advance; rfl
@[simp] theorem State.advance_clock_run (s : State) (d : Nat) : (s.advance d).clock.run = s.clock.run := by unfold State.advance; rfl
@[simp] theorem State.advance_clock_load (s : State) (d : Nat) : (s.advance d).clock.load = s.clock.load := by unfold State.advance; rfl
@[simp] theorem State.advance_clock_tick (s : State) (d : Nat) : (s.advance d).clock.tick = s.clock.tick + BitVec.ofNat 40 d := by unfold State.advance; rfl
@[simp] theorem State.advance_clock_timer (s : State) (d : Nat) : (s.advance d).clock.timer = s.clock.timer - min d (s.clock.timer - 1) := by unfold State.advance; rfl
@[simp] theorem State.advance_clock_atUnderflow (s : State) (d : Nat) : (s.advance d).clock.atUnderflow = (s.clock.atUnderflow || decide (0 < d ∧ s.clock.timer ≤ d)) := by unfold State.advance; rfl
@[simp] theorem State.advance_pos (s : State) (d : Nat) (f : FeedNo) (p : PosNo) : (s.advance d).pos f p = s.pos f p := by unfold State.advance; rfl
@[simp] theorem State.advance_src (s : State) (d : Nat) (i : SrcNo) : (s.advance d).src i = s.src i := by unfold State.advance; rfl
@[simp] theorem State.advance_feed (s : State) (d : Nat) (f : FeedNo) : (s.advance d).feed f = s.feed f := by unfold State.advance; rfl
@[simp] theorem State.advance_line (s : State) (d : Nat) (l : LineNo) : (s.advance d).line l = s.line l := by unfold State.advance; rfl
@[simp] theorem State.advance_port (s : State) (d : Nat) (p : PortNo) : (s.advance d).port p = s.port p := by unfold State.advance; rfl

/-- No time passes in no ticks. -/
theorem State.advance_zero (s : State) : s.advance 0 = s := by unfold State.advance; simp

end Machine

end Sys2Proof
end

