-- ==== Sys2Proof/Laws/Changes.lean ====
section
/-! SUPPORT. The hand-over of a change of effective source, said once for every event that brings one. -/

namespace Sys2Proof.Machine

/-- Replacing a position and handing its change over, as the operations of the stacks do it (R54). -/
theorem State.setPos_handOver (s : State) (f : FeedNo) (p : PosNo) (y : Position) (policy : Splice) (o : Option Owner) :
    (s.setPos f p y).handOver f p (s.pos f p).effective policy o = s.handedOver f p y policy o := by
  simp [State.handOver, State.handedOver, State.differs]

/-- A change of no effective source, or on a STOPPED feed, is not handed over (R54). -/
theorem State.handedOver_same (s : State) (f : FeedNo) (p : PosNo) (y : Position) (policy : Splice) (o : Option Owner)
    (h : (s.feed f).running = false ∨ y.effective = (s.pos f p).effective) : s.handedOver f p y policy o = s.setPos f p y := by
  unfold State.handedOver
  rcases h with h | h <;> simp [h]

/-- The policy of a change of marks (R53), in the model's words and in the statements'. -/
theorem Position.policyOfMarks_eq (y : Position) (policy : Splice) : y.policyOfMarks policy = y.markPolicy policy := rfl

end Sys2Proof.Machine
end

