-- ==== Sys2Proof/Laws/Counters.lean ====
section
/-! SUPPORT. The output continuity counters (R128, R139): a read after a write, and the canonical form kept by every write. -/

namespace Sys2Proof.Machine

/-- A counter taken out reads 0; the others read as before. -/
theorem counterGet_drop (l : List (Nat × BitVec 4)) (id n : Nat) :
    counterGet (counterDrop l id) n = if id = n then 0 else counterGet l n := by
  induction l with
  | nil => simp [counterDrop, counterGet]
  | cons a l ih =>
    unfold counterDrop at ih ⊢
    rw [List.filter_cons]
    by_cases h : a.1 = id <;> by_cases hn : id = n <;> by_cases hk : a.1 = n <;> simp_all [counterGet]

/-- An entry put in place in a list that lacks its identifier is read there, and leaves every other read. -/
theorem counterGet_insert (id : Nat) (v : BitVec 4) (l : List (Nat × BitVec 4)) (free : ∀ x ∈ l, x.1 ≠ id) (n : Nat) :
    counterGet (counterInsert id v l) n = if id = n then v else counterGet l n := by
  induction l with
  | nil => simp [counterInsert, counterGet]
  | cons a l ih =>
    obtain ⟨k, w⟩ := a
    have ha : k ≠ id := free _ List.mem_cons_self
    have ih := ih fun x hx => free x (List.mem_cons_of_mem _ hx)
    simp only [counterInsert]
    split
    · simp [counterGet]
    · simp only [counterGet]
      rw [ih]
      by_cases hn : id = n
      · subst hn; simp [ha]
      · simp [hn]

/-- The entries left once an identifier is taken out have other identifiers. -/
theorem counterDrop_free (l : List (Nat × BitVec 4)) (id : Nat) : ∀ x ∈ counterDrop l id, x.1 ≠ id := by
  intro x hx
  simpa using (List.mem_filter.mp hx).2

/-- A read after a write: the value written at its own identifier, every other one as before. -/
@[simp] theorem counterGet_set (l : List (Nat × BitVec 4)) (id : Nat) (v : BitVec 4) (n : Nat) :
    counterGet (counterSet l id v) n = if id = n then v else counterGet l n := by
  unfold counterSet
  split
  · next h => rw [counterGet_drop, h]
  · rw [counterGet_insert _ _ _ (counterDrop_free l id), counterGet_drop]
    split <;> rfl

/-- Taking a counter out keeps the canonical form. -/
theorem counterDrop_wf (l : List (Nat × BitVec 4)) (id : Nat) (h : countersWf l = true) : countersWf (counterDrop l id) = true := by
  unfold countersWf counterDrop at *
  simp only [Bool.and_eq_true, decide_eq_true_eq, List.all_eq_true] at *
  exact ⟨h.1.sublist (List.filter_sublist.map _), fun x hx => h.2 x (List.mem_of_mem_filter hx)⟩

/-- What stands in a list once an entry is put in place. -/
theorem mem_counterInsert (id : Nat) (v : BitVec 4) (l : List (Nat × BitVec 4)) :
    ∀ x ∈ counterInsert id v l, x = (id, v) ∨ x ∈ l := by
  induction l with
  | nil => intro x hx; simpa [counterInsert] using hx
  | cons a l ih =>
    intro x hx
    unfold counterInsert at hx
    split at hx
    · simpa using hx
    · rcases List.mem_cons.mp hx with rfl | hx
      · simp
      · exact (ih x hx).imp_right (List.mem_cons_of_mem _)

/-- A count other than 0 put in place at an identifier that the list lacks keeps the canonical form. -/
theorem counterInsert_wf (id : Nat) (v : BitVec 4) (hv : v ≠ 0) (l : List (Nat × BitVec 4)) (h : countersWf l = true)
    (free : ∀ x ∈ l, x.1 ≠ id) : countersWf (counterInsert id v l) = true := by
  unfold countersWf at *
  simp only [Bool.and_eq_true, decide_eq_true_eq, List.all_eq_true] at *
  refine ⟨?_, fun x hx => (mem_counterInsert _ _ _ x hx).elim (fun e => by simpa [e] using hv) (h.2 x)⟩
  replace h := h.1
  induction l with
  | nil => simp [counterInsert]
  | cons a l ih =>
    unfold counterInsert
    have ha : a.1 ≠ id := free a List.mem_cons_self
    simp only [List.map_cons, List.pairwise_cons] at h
    split
    · next hlt =>
      simp only [List.map_cons, List.pairwise_cons]
      exact ⟨fun x hx => (List.mem_cons.mp hx).elim (fun e => e ▸ hlt) fun hx => lt_trans hlt (h.1 x hx), h⟩
    · next hlt =>
      simp only [List.map_cons, List.pairwise_cons]
      refine ⟨fun x hx => ?_, ih (fun x hx => free x (List.mem_cons_of_mem _ hx)) h.2⟩
      obtain ⟨y, hy, rfl⟩ := List.mem_map.mp hx
      rcases mem_counterInsert _ _ _ y hy with rfl | hy
      · simp only at *; omega
      · exact h.1 _ (List.mem_map_of_mem hy)

/-- Every write keeps the canonical form. -/
theorem counterSet_wf (l : List (Nat × BitVec 4)) (id : Nat) (v : BitVec 4) (h : countersWf l = true) :
    countersWf (counterSet l id v) = true := by
  unfold counterSet
  split
  · exact counterDrop_wf _ _ h
  · next hv => exact counterInsert_wf _ _ hv _ (counterDrop_wf _ _ h) (counterDrop_free l id)

end Sys2Proof.Machine
end

