-- ==== Sys2Proof/Laws/Frames.lean ====
section
/-! SUPPORT. What each shared operation can write at most, said once: the blocks that it leaves alone. -/

namespace Sys2Proof.Machine

/-! ### Frames -/

/-- The ports of the second table are those of the first but for what they are told: log, notices and mask; and a log of at most 16
records stays one. -/
def Told (u v : Vector ControlPort 4) : Prop :=
  ∀ q, ∃ l n m, tget v q = { tget u q with log := l, notices := n, mask := m } ∧
    ((tget u q).log.length ≤ Config.logPlaces → l.length ≤ Config.logPlaces)

/-- The positions of the second table are those of the first but for their transition slot, on-air cursor, switch marks and overrun
count. -/
def Reads (v w : Vector (Vector Position 8) 6) : Prop :=
  ∀ f p, ∃ sl c m o, tget (tget w f) p = { tget (tget v f) p with slot := sl, onAir := c, marks := m, overruns := o }

theorem Told.rfl' (u : Vector ControlPort 4) : Told u u := fun _ => ⟨_, _, _, rfl, id⟩

theorem Told.trans {u v w : Vector ControlPort 4} (a : Told u v) (b : Told v w) : Told u w := by
  intro q
  obtain ⟨_, _, _, h, k⟩ := a q
  obtain ⟨l, n, m, h', k'⟩ := b q
  exact ⟨l, n, m, by rw [h', h], fun x => k' (by rw [h]; exact k x)⟩

theorem Told.set (u : Vector ControlPort 4) (p : PortNo) (l : List Outcome) (n m : NoticeSet)
    (h : (tget u p).log.length ≤ Config.logPlaces → l.length ≤ Config.logPlaces) :
    Told u (tset u p { tget u p with log := l, notices := n, mask := m }) := by
  intro q
  by_cases e : p = q
  · subst e; exact ⟨l, n, m, by simp, h⟩
  · exact ⟨_, _, _, by simp [e]; rfl, id⟩

/-- The sources of the second table are those of the first but for packets freed from the oldest end of their rings (R91). -/
def Freed (v w : Vector Source 16) : Prop := ∀ i, ∃ n, tget w i = { tget v i with ring := (tget v i).ring.drop n }

theorem Freed.rfl' (v : Vector Source 16) : Freed v v := fun _ => ⟨0, rfl⟩

theorem Freed.trans {u v w : Vector Source 16} (a : Freed u v) (b : Freed v w) : Freed u w := by
  intro i
  obtain ⟨m, h⟩ := a i
  obtain ⟨n, h'⟩ := b i
  exact ⟨m + n, by rw [h', h]; simp [List.drop_drop]⟩

theorem Freed.set (v : Vector Source 16) (i : SrcNo) (n : Nat) :
    Freed v (tset v i { tget v i with ring := (tget v i).ring.drop n }) := by
  intro j
  by_cases e : i = j
  · subst e; exact ⟨n, by simp⟩
  · exact ⟨0, by simp [e]⟩

theorem Reads.rfl' (v : Vector (Vector Position 8) 6) : Reads v v := fun _ _ => ⟨_, _, _, _, rfl⟩

theorem Reads.trans {u v w : Vector (Vector Position 8) 6} (a : Reads u v) (b : Reads v w) : Reads u w := by
  intro f p
  obtain ⟨_, _, _, _, h⟩ := a f p
  obtain ⟨sl, c, m, o, h'⟩ := b f p
  exact ⟨sl, c, m, o, by rw [h', h]⟩

theorem Reads.set (v : Vector (Vector Position 8) 6) (f : FeedNo) (p : PosNo) (sl : Slot) (c : Option Cursor) (m : BitVec 4)
    (o : Nat) :
    Reads v (tset v f (tset (tget v f) p { tget (tget v f) p with slot := sl, onAir := c, marks := m, overruns := o })) := by
  intro g q
  by_cases e : f = g
  · subst e
    by_cases k : p = q
    · subst k; exact ⟨sl, c, m, o, by simp⟩
    · exact ⟨_, _, _, _, by simp [k]; rfl⟩
  · exact ⟨_, _, _, _, by simp [e]; rfl⟩

/-- The second state differs from the first at most in packets freed. -/
def OnlySources (s t : State) : Prop := ∃ w, t = { s with sources := w } ∧ Freed s.sources w

/-- The second state differs from the first at most in what its ports are told. -/
def OnlyPorts (s t : State) : Prop := ∃ u, t = { s with ports := u } ∧ Told s.ports u

/-- The second state differs from the first at most in where its positions read and in packets freed. -/
def OnlyReading (s t : State) : Prop :=
  ∃ v w, t = { s with positions := v, sources := w } ∧ Reads s.positions v ∧ Freed s.sources w

/-- The second state differs from the first at most in where its positions read, in packets freed and in what its ports are told. -/
def OnlyMoves (s t : State) : Prop :=
  ∃ v w u, t = { s with positions := v, sources := w, ports := u } ∧ Reads s.positions v ∧ Freed s.sources w ∧ Told s.ports u

/-- The second state differs from the first at most in its positions, in packets freed and in what its ports are told. -/
def OnlyStacks (s t : State) : Prop :=
  ∃ v w u, t = { s with positions := v, sources := w, ports := u } ∧ Freed s.sources w ∧ Told s.ports u

/-- The second state differs from the first at most in where its positions read, in its sources and in what its ports are told. -/
def OnlyIntake (s t : State) : Prop :=
  ∃ v w u, t = { s with positions := v, sources := w, ports := u } ∧ Reads s.positions v ∧ Told s.ports u

/-- The second state differs from the first at most in its feeds and in what its ports are told. -/
def OnlyFeeds (s t : State) : Prop := ∃ v u, t = { s with feeds := v, ports := u } ∧ Told s.ports u

/-- The second state differs from the first at most in where its positions read, in its sources and in its feeds. -/
def OnlyEmission (s t : State) : Prop :=
  ∃ v w x, t = { s with positions := v, sources := w, feeds := x } ∧ Reads s.positions v

/-- The second state has the queue, RESETN, clock, list and loader of the first, and its ports but for what they are told. -/
def OnlyWork (s t : State) : Prop :=
  ∃ v l w c x u,
    t = { s with positions := v, lines := l, sources := w, scan := c, feeds := x, ports := u } ∧ Told s.ports u

/-- The second state has the queue, RESETN and loader of the first, and its ports but for what they are told. -/
def OnlyBlocks (s t : State) : Prop :=
  ∃ k e v l w c x u,
    t = { s with clock := k, list := e, positions := v, lines := l, sources := w, scan := c, feeds := x, ports := u } ∧
      Told s.ports u

/-- The second state has the queue, RESETN and loader of the first. -/
def OnlyUnits (s t : State) : Prop := t.pending = s.pending ∧ t.held = s.held ∧ t.loader = s.loader

/-- The second state differs from the first at most in its clock. -/
def OnlyClock (s t : State) : Prop := ∃ k, t = { s with clock := k }

/-- The second state differs from the first at most in its switch list. -/
def OnlyList (s t : State) : Prop := ∃ k, t = { s with list := k }

/-- The second state differs from the first at most in its cue lines. -/
def OnlyLines (s t : State) : Prop := ∃ v, t = { s with lines := v }

/-- The second state differs from the first at most in its scan. -/
def OnlyScan (s t : State) : Prop := ∃ c, t = { s with scan := c }

theorem OnlySources.rfl' (s : State) : OnlySources s s := ⟨_, rfl, .rfl' _⟩
theorem OnlyPorts.rfl' (s : State) : OnlyPorts s s := ⟨_, rfl, .rfl' _⟩
theorem OnlyReading.rfl' (s : State) : OnlyReading s s := ⟨_, _, rfl, .rfl' _, .rfl' _⟩
theorem OnlyMoves.rfl' (s : State) : OnlyMoves s s := ⟨_, _, _, rfl, .rfl' _, .rfl' _, .rfl' _⟩
theorem OnlyIntake.rfl' (s : State) : OnlyIntake s s := ⟨_, _, _, rfl, .rfl' _, .rfl' _⟩
theorem OnlyStacks.rfl' (s : State) : OnlyStacks s s := ⟨_, _, _, rfl, .rfl' _, .rfl' _⟩
theorem OnlyFeeds.rfl' (s : State) : OnlyFeeds s s := ⟨_, _, rfl, .rfl' _⟩
theorem OnlyEmission.rfl' (s : State) : OnlyEmission s s := ⟨_, _, _, rfl, .rfl' _⟩
theorem OnlyWork.rfl' (s : State) : OnlyWork s s := ⟨_, _, _, _, _, _, rfl, .rfl' _⟩
theorem OnlyBlocks.rfl' (s : State) : OnlyBlocks s s := ⟨_, _, _, _, _, _, _, _, rfl, .rfl' _⟩
theorem OnlyUnits.rfl' (s : State) : OnlyUnits s s := ⟨rfl, rfl, rfl⟩

theorem OnlySources.trans {s t u : State} : OnlySources s t → OnlySources t u → OnlySources s u := by
  rintro ⟨_, rfl, a⟩ ⟨_, rfl, b⟩; exact ⟨_, rfl, a.trans b⟩
theorem OnlyPorts.trans {s t u : State} : OnlyPorts s t → OnlyPorts t u → OnlyPorts s u := by
  rintro ⟨_, rfl, a⟩ ⟨_, rfl, b⟩; exact ⟨_, rfl, a.trans b⟩
theorem OnlyReading.trans {s t u : State} : OnlyReading s t → OnlyReading t u → OnlyReading s u := by
  rintro ⟨_, _, rfl, a, c⟩ ⟨_, _, rfl, b, d⟩; exact ⟨_, _, rfl, a.trans b, c.trans d⟩
theorem OnlyMoves.trans {s t u : State} : OnlyMoves s t → OnlyMoves t u → OnlyMoves s u := by
  rintro ⟨_, _, _, rfl, a, c, e⟩ ⟨_, _, _, rfl, b, d, f⟩; exact ⟨_, _, _, rfl, a.trans b, c.trans d, e.trans f⟩
theorem OnlyStacks.trans {s t u : State} : OnlyStacks s t → OnlyStacks t u → OnlyStacks s u := by
  rintro ⟨_, _, _, rfl, a, c⟩ ⟨_, _, _, rfl, b, d⟩; exact ⟨_, _, _, rfl, a.trans b, c.trans d⟩
theorem OnlyIntake.trans {s t u : State} : OnlyIntake s t → OnlyIntake t u → OnlyIntake s u := by
  rintro ⟨_, _, _, rfl, a, c⟩ ⟨_, _, _, rfl, b, d⟩; exact ⟨_, _, _, rfl, a.trans b, c.trans d⟩
theorem OnlyFeeds.trans {s t u : State} : OnlyFeeds s t → OnlyFeeds t u → OnlyFeeds s u := by
  rintro ⟨_, _, rfl, a⟩ ⟨_, _, rfl, b⟩; exact ⟨_, _, rfl, a.trans b⟩
theorem OnlyEmission.trans {s t u : State} : OnlyEmission s t → OnlyEmission t u → OnlyEmission s u := by
  rintro ⟨_, _, _, rfl, a⟩ ⟨_, _, _, rfl, b⟩; exact ⟨_, _, _, rfl, a.trans b⟩
theorem OnlyWork.trans {s t u : State} : OnlyWork s t → OnlyWork t u → OnlyWork s u := by
  rintro ⟨_, _, _, _, _, _, rfl, a⟩ ⟨_, _, _, _, _, _, rfl, b⟩; exact ⟨_, _, _, _, _, _, rfl, a.trans b⟩
theorem OnlyBlocks.trans {s t u : State} : OnlyBlocks s t → OnlyBlocks t u → OnlyBlocks s u := by
  rintro ⟨_, _, _, _, _, _, _, _, rfl, a⟩ ⟨_, _, _, _, _, _, _, _, rfl, b⟩
  exact ⟨_, _, _, _, _, _, _, _, rfl, a.trans b⟩
theorem OnlyUnits.trans {s t u : State} : OnlyUnits s t → OnlyUnits t u → OnlyUnits s u := by
  rintro ⟨a, b, c⟩ ⟨d, e, f⟩; exact ⟨d.trans a, e.trans b, f.trans c⟩

theorem OnlySources.reading {s t : State} : OnlySources s t → OnlyReading s t := by
  rintro ⟨_, rfl, a⟩; exact ⟨_, _, rfl, .rfl' _, a⟩
theorem OnlyReading.moves {s t : State} : OnlyReading s t → OnlyMoves s t := by
  rintro ⟨_, _, rfl, a, b⟩; exact ⟨_, _, _, rfl, a, b, .rfl' _⟩
theorem OnlyPorts.moves {s t : State} : OnlyPorts s t → OnlyMoves s t := by
  rintro ⟨_, rfl, a⟩; exact ⟨_, _, _, rfl, .rfl' _, .rfl' _, a⟩
theorem OnlyMoves.stacks {s t : State} : OnlyMoves s t → OnlyStacks s t := by
  rintro ⟨_, _, _, rfl, _, b, a⟩; exact ⟨_, _, _, rfl, b, a⟩
theorem OnlyMoves.intake {s t : State} : OnlyMoves s t → OnlyIntake s t := by
  rintro ⟨_, _, _, rfl, a, _, b⟩; exact ⟨_, _, _, rfl, a, b⟩
theorem OnlySources.stacks {s t : State} (h : OnlySources s t) : OnlyStacks s t := h.reading.moves.stacks
theorem OnlyPorts.feeds {s t : State} : OnlyPorts s t → OnlyFeeds s t := by
  rintro ⟨_, rfl, a⟩; exact ⟨_, _, rfl, a⟩
theorem OnlyReading.emission {s t : State} : OnlyReading s t → OnlyEmission s t := by
  rintro ⟨_, _, rfl, a, _⟩; exact ⟨_, _, _, rfl, a⟩
theorem OnlyEmission.work {s t : State} : OnlyEmission s t → OnlyWork s t := by
  rintro ⟨_, _, _, rfl, _⟩; exact ⟨_, _, _, _, _, _, rfl, .rfl' _⟩
theorem OnlyStacks.work {s t : State} : OnlyStacks s t → OnlyWork s t := by
  rintro ⟨_, _, _, rfl, _, a⟩; exact ⟨_, _, _, _, _, _, rfl, a⟩
theorem OnlyIntake.work {s t : State} : OnlyIntake s t → OnlyWork s t := by
  rintro ⟨_, _, _, rfl, _, a⟩; exact ⟨_, _, _, _, _, _, rfl, a⟩
theorem OnlyFeeds.work {s t : State} : OnlyFeeds s t → OnlyWork s t := by
  rintro ⟨_, _, rfl, a⟩; exact ⟨_, _, _, _, _, _, rfl, a⟩
theorem OnlyWork.blocks {s t : State} : OnlyWork s t → OnlyBlocks s t := by
  rintro ⟨_, _, _, _, _, _, rfl, a⟩; exact ⟨_, _, _, _, _, _, _, _, rfl, a⟩
theorem OnlyClock.blocks {s t : State} : OnlyClock s t → OnlyBlocks s t := by
  rintro ⟨_, rfl⟩; exact ⟨_, _, _, _, _, _, _, _, rfl, .rfl' _⟩
theorem OnlyLines.blocks {s t : State} : OnlyLines s t → OnlyBlocks s t := by
  rintro ⟨_, rfl⟩; exact ⟨_, _, _, _, _, _, _, _, rfl, .rfl' _⟩
theorem OnlyScan.blocks {s t : State} : OnlyScan s t → OnlyBlocks s t := by
  rintro ⟨_, rfl⟩; exact ⟨_, _, _, _, _, _, _, _, rfl, .rfl' _⟩
theorem OnlyList.blocks {s t : State} : OnlyList s t → OnlyBlocks s t := by
  rintro ⟨_, rfl⟩; exact ⟨_, _, _, _, _, _, _, _, rfl, .rfl' _⟩
theorem OnlyBlocks.units {s t : State} : OnlyBlocks s t → OnlyUnits s t := by
  rintro ⟨_, _, _, _, _, _, _, _, rfl, _⟩; exact ⟨rfl, rfl, rfl⟩

/-- A relation that every step of a fold has, the whole fold has. -/
theorem foldl_rel {α : Type} (R : State → State → Prop) (r : ∀ s, R s s)
    (tr : ∀ {s t u : State}, R s t → R t u → R s u) (g : State → α → State) (h : ∀ s a, R s (g s a)) (l : List α) (s : State) :
    R s (l.foldl g s) := by
  induction l generalizing s with
  | nil => exact r s
  | cons a l ih => exact tr (h s a) (ih _)

/-! ### Rings and reading points -/

theorem trim_frame (s : State) (x : SrcNo) : OnlySources s (s.trim x) := by
  unfold State.trim; split
  · exact OnlySources.rfl' s
  · exact ⟨_, rfl, Freed.set _ _ _⟩

theorem trimOpt_frame (s : State) (o : Option SrcNo) : OnlySources s (s.trimOpt o) := by
  cases o
  · exact OnlySources.rfl' s
  · exact trim_frame s _

theorem setPos_frame (s : State) (f : FeedNo) (p : PosNo) (x : Position) : OnlyStacks s (s.setPos f p x) :=
  ⟨_, _, _, rfl, .rfl' _, .rfl' _⟩

/-- A position replaced by one that differs from it in slot, on-air cursor, switch marks and overrun count alone. -/
theorem setPos_as_reading (s : State) (f : FeedNo) (p : PosNo) (x : Position)
    (h : ∃ sl c m o, x = { s.pos f p with slot := sl, onAir := c, marks := m, overruns := o }) :
    OnlyReading s (s.setPos f p x) := by
  obtain ⟨sl, c, m, o, rfl⟩ := h
  exact ⟨_, _, rfl, Reads.set _ _ _ _ _ _ _, .rfl' _⟩

/-- A position whose slot, on-air cursor, switch marks and overrun count alone are replaced. -/
theorem setPos_reading (s : State) (f : FeedNo) (p : PosNo) (sl : Slot) (c : Option Cursor) (m : BitVec 4) (o : Nat) :
    OnlyReading s (s.setPos f p { s.pos f p with slot := sl, onAir := c, marks := m, overruns := o }) :=
  ⟨_, _, rfl, Reads.set _ _ _ _ _ _ _, .rfl' _⟩

theorem moveOnAir_frame (s : State) (f : FeedNo) (p : PosNo) (c : Option Cursor) (m : BitVec 4) :
    OnlyReading s (s.moveOnAir f p c m) :=
  (setPos_reading s f p _ _ _ _).trans ((trimOpt_frame _ _).reading.trans ((trimOpt_frame _ _).reading.trans
    (trimOpt_frame _ _).reading))

theorem switchNow_frame (s : State) (f : FeedNo) (p : PosNo) (t : Option SrcNo) : OnlyReading s (s.switchNow f p t) := by
  cases t
  · exact moveOnAir_frame s f p _ _
  · exact moveOnAir_frame s f p _ _

theorem seek_frame (s : State) (f : FeedNo) (p : PosNo) (t : SrcNo) (w : Nat) (o : Option Owner) :
    OnlyReading s (s.seek f p t w o) :=
  (setPos_reading s f p _ _ _ _).trans ((trim_frame _ _).reading.trans (trimOpt_frame _ _).reading)

/-! ### Notices and records -/

/-- A port told something: its log, notices and mask alone are replaced. -/
theorem setPort_told (s : State) (p : PortNo) (l : List Outcome) (n m : NoticeSet)
    (h : (s.port p).log.length ≤ Config.logPlaces → l.length ≤ Config.logPlaces) :
    OnlyPorts s (s.setPort p { s.port p with log := l, notices := n, mask := m }) :=
  ⟨_, rfl, Told.set _ _ _ _ _ h⟩

theorem raise_frame (s : State) (p : PortNo) (k : Notice) : OnlyPorts s (s.raise p k) :=
  setPort_told s p _ _ _ id

theorem raiseAll_frame (s : State) (k : Notice) : OnlyPorts s (s.raiseAll k) :=
  foldl_rel OnlyPorts OnlyPorts.rfl' OnlyPorts.trans _ (fun s p => raise_frame s p k) _ s

theorem raiseForFeed_frame (s : State) (f : FeedNo) (k : Notice) : OnlyPorts s (s.raiseForFeed f k) :=
  foldl_rel OnlyPorts OnlyPorts.rfl' OnlyPorts.trans _
    (fun s p => by split
                   · exact raise_frame s p k
                   · exact OnlyPorts.rfl' s) _ s

/-- A record added to a log that holds at most 16 leaves it holding at most 16 (R159). -/
theorem addOutcome_frame (s : State) (p : PortNo) (r : Outcome) : OnlyPorts s (s.addOutcome p r) :=
  setPort_told s p _ _ _ (by intro h; simp [Config.logPlaces] at h ⊢; omega)

theorem ownerDone_frame (s : State) (f : FeedNo) (p : PosNo) (o : Option Owner) (fl : OutcomeFlags) :
    OnlyPorts s (s.ownerDone f p o fl) := by
  cases o
  · exact OnlyPorts.rfl' s
  · exact addOutcome_frame s _ _

/-! ### The Transition Unit -/

theorem OnlyPorts.pos {s t : State} (h : OnlyPorts s t) (f : FeedNo) (p : PosNo) : t.pos f p = s.pos f p := by
  obtain ⟨_, rfl, _⟩ := h; rfl

theorem takeChange_frame (s : State) (f : FeedNo) (p : PosNo) (t : Option SrcNo) (pol : Splice) (o : Option Owner) :
    OnlyMoves s (s.takeChange f p t pol o) := by
  unfold State.takeChange
  dsimp only
  split
  · split
    · exact (ownerDone_frame _ _ _ _ _).moves
    · split
      · exact (seek_frame _ _ _ _ _ _).moves
      · exact (switchNow_frame _ _ _ _).moves.trans (ownerDone_frame _ _ _ _ _).moves
  · rename_i target wait old _
    refine OnlyMoves.trans (ownerDone_frame s f p old { OutcomeFlags.none with superseded := true }).moves ?_
    split
    · refine OnlyMoves.trans (OnlyReading.trans (setPos_as_reading _ f p _ ?_) (trim_frame _ target).reading).moves
        (ownerDone_frame _ _ _ _ _).moves
      rw [(ownerDone_frame s f p old { OutcomeFlags.none with superseded := true }).pos]
      exact ⟨.steady, _, _, _, rfl⟩
    · split
      · exact (seek_frame _ _ _ _ _ _).moves
      · exact (switchNow_frame _ _ _ _).moves.trans (ownerDone_frame _ _ _ _ _).moves

theorem forceSwitch_frame (s : State) (f : FeedNo) (p : PosNo) : OnlyMoves s (s.forceSwitch f p) := by
  unfold State.forceSwitch; split
  · exact (moveOnAir_frame _ _ _ _ _).moves.trans (ownerDone_frame _ _ _ _ _).moves
  · exact OnlyMoves.rfl' s

theorem entrySwitch_frame (s : State) (f : FeedNo) (p : PosNo) : OnlyMoves s (s.entrySwitch f p) := by
  unfold State.entrySwitch; split
  · exact (moveOnAir_frame _ _ _ _ _).moves.trans (ownerDone_frame _ _ _ _ _).moves
  · exact OnlyMoves.rfl' s

theorem restPosition_frame (s : State) (f : FeedNo) (p : PosNo) : OnlyMoves s (s.restPosition f p) :=
  (moveOnAir_frame _ _ _ _ _).moves.trans (ownerDone_frame _ _ _ _ _).moves

theorem attachPosition_frame (s : State) (f : FeedNo) (p : PosNo) : OnlyReading s (s.attachPosition f p) := by
  unfold State.attachPosition; split
  · exact moveOnAir_frame _ _ _ _ _
  · exact moveOnAir_frame _ _ _ _ _

/-! ### The Position Stacks -/

theorem handOver_frame (s : State) (f : FeedNo) (p : PosNo) (b : Option SrcNo) (pol : Splice) (o : Option Owner) :
    OnlyMoves s (s.handOver f p b pol o) := by
  unfold State.handOver; split
  · exact takeChange_frame _ _ _ _ _ _
  · exact OnlyMoves.rfl' s

theorem endWindows_frame (s : State) (f : FeedNo) (p : PosNo) : OnlyStacks s (s.endWindows f p) :=
  ((setPos_frame s f p _).trans (handOver_frame _ _ _ _ _ _).stacks).trans
    (foldl_rel OnlyStacks OnlyStacks.rfl' OnlyStacks.trans _ (fun s _ => (addOutcome_frame s _ _).moves.stacks) _ _)

theorem judgePosition_frame (s : State) (f : FeedNo) (p : PosNo) (k : Option SrcNo → Bool) :
    OnlyStacks s (s.judgePosition f p k) :=
  (setPos_frame s f p _).trans (handOver_frame _ _ _ _ _ _).stacks

theorem healthChanged_frame (s : State) (i : SrcNo) : OnlyStacks s (s.healthChanged i) :=
  foldl_rel OnlyStacks OnlyStacks.rfl' OnlyStacks.trans _ (fun s _ => judgePosition_frame s _ _ _) _ s

theorem permitChanged_frame (s : State) (i : SrcNo) : OnlyStacks s (s.permitChanged i) :=
  foldl_rel OnlyStacks OnlyStacks.rfl' OnlyStacks.trans _ (fun s _ => judgePosition_frame s _ _ _) _ s

theorem entryStacked_frame (s : State) (e : Entry) (b : Option SrcNo) (h : Bool) : OnlyMoves s (s.entryStacked e b h) := by
  unfold State.entryStacked; split
  · exact takeChange_frame _ _ _ _ _ _
  · exact (addOutcome_frame _ _ _).moves

theorem fireTake_frame (s : State) (e : Entry) : OnlyStacks s (s.fireTake e) := by
  unfold State.fireTake; dsimp only; split
  · exact (addOutcome_frame _ _ _).moves.stacks
  · exact (setPos_frame _ _ _ _).trans (entryStacked_frame _ _ _ _).stacks

theorem fireReturn_frame (s : State) (e : Entry) : OnlyStacks s (s.fireReturn e) := by
  unfold State.fireReturn; dsimp only; split
  · exact (setPos_frame _ _ _ _).trans (entryStacked_frame _ _ _ _).stacks
  · exact (addOutcome_frame _ _ _).moves.stacks

theorem fireBase_frame (s : State) (e : Entry) : OnlyStacks s (s.fireBase e) :=
  (setPos_frame _ _ _ _).trans (entryStacked_frame _ _ _ _).stacks

/-! ### The Feed Planner -/

theorem setFeed_frame (s : State) (f : FeedNo) (x : Feed) : OnlyFeeds s (s.setFeed f x) := ⟨_, _, rfl, .rfl' _⟩

theorem swapNow_frame (s : State) (f : FeedNo) : OnlyFeeds s (s.swapNow f) :=
  (setFeed_frame s f _).trans (raiseForFeed_frame _ _ _).feeds

theorem takeSwap_frame (s : State) (f : FeedNo) : OnlyFeeds s (s.takeSwap f) := by
  unfold State.takeSwap; split
  · exact swapNow_frame s f
  · exact OnlyFeeds.rfl' s

theorem firePlan_frame (s : State) (e : Entry) : OnlyFeeds s (s.firePlan e) := by
  unfold State.firePlan; dsimp only; split
  · exact (addOutcome_frame _ _ _).feeds
  · split
    · exact (swapNow_frame _ _).trans (addOutcome_frame _ _ _).feeds
    · exact (addOutcome_frame _ _ _).feeds

theorem takeStart_frame (s : State) (f : FeedNo) : OnlyWork s (s.takeStart f) := by
  unfold State.takeStart; split
  · exact (setFeed_frame s f _).work.trans
      (foldl_rel OnlyWork OnlyWork.rfl' OnlyWork.trans _ (fun s p => (attachPosition_frame s f p).moves.stacks.work) _ _)
  · exact OnlyWork.rfl' s

theorem stopNow_frame (s : State) (f : FeedNo) : OnlyWork s (s.stopNow f) :=
  (setFeed_frame s f _).work.trans
    (foldl_rel OnlyWork OnlyWork.rfl' OnlyWork.trans _ (fun s p => (restPosition_frame s f p).stacks.work) _ _)

theorem makeDue_frame (s : State) (f : FeedNo) (c : TableNo) : OnlyFeeds s (s.makeDue f c) := by
  unfold State.makeDue; split
  · exact setFeed_frame s f _
  · exact OnlyFeeds.rfl' s

/-! ### The Health Monitor -/

theorem healthMoved_frame (s : State) (i : SrcNo) (b : Health) : OnlyStacks s (s.healthMoved i b) := by
  unfold State.healthMoved; dsimp only; split
  · exact OnlyStacks.rfl' s
  · refine OnlyStacks.trans ?_ (healthChanged_frame _ i)
    split
    · split
      · exact (raiseAll_frame _ _).moves.stacks
      · split
        · exact (raiseAll_frame _ _).moves.stacks
        · exact OnlyStacks.rfl' s
    · exact OnlyStacks.rfl' s

theorem setSrc_frame (s : State) (i : SrcNo) (x : Source) : OnlyIntake s (s.setSrc i x) :=
  ⟨_, _, _, rfl, .rfl' _, .rfl' _⟩

theorem examine_frame (s : State) : OnlyWork s s.examine := by
  unfold State.examine; dsimp only
  have h : ∀ t, OnlyWork s t → OnlyWork s { t with scan := t.scan.next } := by
    rintro t ⟨_, _, _, _, _, _, rfl, a⟩; exact ⟨_, _, _, _, _, _, rfl, a⟩
  apply h
  split
  · exact (setSrc_frame _ _ _).work.trans (healthMoved_frame _ _ _).work
  · exact (setSrc_frame _ _ _).work

/-! ### The frame event -/

theorem applyCue_frame (s : State) (e : Entry) (b : Bool) : OnlyWork s (s.applyCue e b).1 := by
  unfold State.applyCue; split
  · split
    · exact ⟨_, _, _, _, _, _, rfl, .rfl' _⟩
    · exact OnlyWork.rfl' s
  · exact OnlyWork.rfl' s

theorem fire_frame (s : State) (e : Entry) : OnlyWork s (s.fire e) := by
  unfold State.fire; split
  · exact (fireTake_frame s e).work
  · exact (fireReturn_frame s e).work
  · exact (fireBase_frame s e).work
  · exact (firePlan_frame s e).work
  · exact (addOutcome_frame _ _ _).moves.stacks.work

theorem passEntries_frame (b : Bool) (l : List Entry) (s : State) : OnlyWork s (passEntries b l s).1 := by
  induction l generalizing s with
  | nil => exact OnlyWork.rfl' s
  | cons e l ih =>
    unfold passEntries
    split
    · exact (applyCue_frame _ _ _).trans ((fire_frame _ _).trans (ih _))
    · exact (addOutcome_frame _ _ _).moves.stacks.work.trans (ih _)
    · exact (applyCue_frame _ _ _).trans (ih _)

theorem pass_frame (s : State) (b : Bool) : OnlyBlocks s (s.pass b) := by
  obtain ⟨_, _, _, _, _, _, h, a⟩ := passEntries_frame b s.list.entries s
  unfold State.pass
  dsimp only
  rw [h]
  exact ⟨_, _, _, _, _, _, _, _, rfl, a⟩

theorem frameTask_frame (s : State) (k : FrameTask) : OnlyWork s (s.frameTask k) := by
  cases k
  · exact (endWindows_frame _ _ _).work
  · exact (forceSwitch_frame _ _ _).stacks.work
  · exact (makeDue_frame _ _ _).work
  · exact (takeSwap_frame _ _).work
  · exact takeStart_frame _ _

theorem frameTasks_frame (s : State) (l : List FrameTask) : OnlyWork s (s.frameTasks l) :=
  foldl_rel OnlyWork OnlyWork.rfl' OnlyWork.trans _ frameTask_frame l s

theorem counts_frame (s : State) : OnlyWork s s.counts := ⟨_, _, _, _, _, _, rfl, .rfl' _⟩

theorem clock_frame (s : State) (k : Clock) : OnlyClock s { s with clock := k } := ⟨_, rfl⟩

theorem clock_blocks (s : State) (k : Clock) : OnlyBlocks s { s with clock := k } := (clock_frame s k).blocks

theorem raiseAll_blocks (s : State) (k : Notice) : OnlyBlocks s (s.raiseAll k) := (raiseAll_frame s k).moves.stacks.work.blocks

theorem clockFrame_frame (s : State) : OnlyBlocks s s.clockFrame := by
  unfold State.clockFrame; split
  · exact (clock_blocks s _).trans (raiseAll_blocks _ _)
  · exact clock_blocks s _

theorem frameEvent_frame (s : State) (o : FrameOrder) : OnlyBlocks s (s.frameEvent o) := by
  unfold State.frameEvent; dsimp only
  have h : ∀ t, OnlyBlocks s t → OnlyBlocks s { t with feeds := tmap Feed.reloadRunning t.feeds } := by
    rintro t ⟨_, _, _, _, _, _, _, _, rfl, a⟩; exact ⟨_, _, _, _, _, _, _, _, rfl, a⟩
  apply h
  refine OnlyBlocks.trans ?_ (frameTasks_frame _ _).blocks
  refine OnlyBlocks.trans ?_ (frameTasks_frame _ _).blocks
  have ha : OnlyBlocks s (s.clockFrame.counts.frameTasks o.first) :=
    (clockFrame_frame s).trans ((counts_frame _).blocks.trans (frameTasks_frame _ _).blocks)
  cases o.examineFirst
  · simp only [Bool.false_eq_true, if_false]
    exact ha.trans ((pass_frame _ _).trans ((frameTasks_frame _ _).blocks.trans (examine_frame _).blocks))
  · simp only [if_true]
    exact ha.trans ((examine_frame _).blocks.trans ((frameTasks_frame _ _).blocks.trans (pass_frame _ _)))

/-! ### Source Intake and Emission Unit -/

theorem pushCursor_frame (s : State) (i : SrcNo) (f : FeedNo) (p : PosNo) : OnlyIntake s (s.pushCursor i f p) := by
  unfold State.pushCursor; dsimp only; split
  · refine OnlyIntake.trans (OnlyIntake.trans (OnlyReading.moves ?_).intake (setSrc_frame _ i _)) (raiseForFeed_frame _ _ _).moves.intake
    unfold Position.pushed; split
    · exact setPos_reading _ _ _ _ _ _ _
    · exact setPos_reading s f p (s.pos f p).slot (s.pos f p).onAir (s.pos f p).marks (s.pos f p).overruns
  · exact OnlyIntake.rfl' s

theorem makeRoom_frame (s : State) (i : SrcNo) : OnlyIntake s (s.makeRoom i) := by
  unfold State.makeRoom; dsimp only; split
  · exact OnlyIntake.rfl' s
  · exact (foldl_rel OnlyIntake OnlyIntake.rfl' OnlyIntake.trans _ (fun s _ => pushCursor_frame s i _ _) _ s).trans
      (setSrc_frame _ _ _)

theorem store_frame (s : State) (i : SrcNo) (k : Packet) : OnlyIntake s (s.store i k) := by
  unfold State.store; dsimp only
  have h : ∀ t, OnlyIntake s t →
      OnlyIntake s { t with positions := tmap (tmap fun p : Position => p.offered i k) t.positions } := by
    rintro t ⟨_, _, _, rfl, a, b⟩
    refine ⟨_, _, _, rfl, a.trans fun f p => ?_, b⟩
    simp only [tget_tmap, Position.offered]
    split
    · split
      · split
        · exact ⟨_, _, _, _, rfl⟩
        · exact ⟨_, _, _, _, rfl⟩
      · exact ⟨_, _, _, _, rfl⟩
    · exact ⟨_, _, _, _, rfl⟩
  refine OnlyIntake.trans (OnlyIntake.trans (h _ ((makeRoom_frame s i).trans
    (setSrc_frame _ i (((s.makeRoom i).src i).write k)))) ?_)
    (trim_frame _ _).reading.moves.intake
  refine foldl_rel OnlyIntake OnlyIntake.rfl' OnlyIntake.trans _ (fun s fp => ?_) _ _
  split
  · exact (entrySwitch_frame _ _ _).intake
  · exact OnlyIntake.rfl' s

theorem arrive_frame (s : State) (i : SrcNo) (b : List Byte) : OnlyIntake s (s.arrive i b) := by
  unfold State.arrive; dsimp only; split
  · split
    · exact (setSrc_frame _ _ _).trans (store_frame _ _ _)
    · exact OnlyIntake.rfl' s
  · exact OnlyIntake.rfl' s

theorem takeByte_frame (s : State) (i : SrcNo) (b : Byte) : OnlyIntake s (s.takeByte i b) := by
  unfold State.takeByte; dsimp only; split
  · exact setSrc_frame _ _ _
  · split
    · split
      · exact (setSrc_frame _ _ _).trans (arrive_frame _ _ _)
      · exact setSrc_frame _ _ _
    · exact setSrc_frame _ _ _

theorem setFeed_emission (s : State) (f : FeedNo) (x : Feed) : OnlyEmission s (s.setFeed f x) := ⟨_, _, _, rfl, .rfl' _⟩

theorem discardStale_frame (s : State) (f : FeedNo) (p : PosNo) : OnlyEmission s (s.discardStale f p) := by
  unfold State.discardStale; dsimp only; split
  · exact (((setPos_reading _ _ _ _ _ _ _).emission.trans ⟨_, _, _, rfl, .rfl' _⟩).trans (setFeed_emission _ _ _)).trans
      (trim_frame _ _).reading.emission
  · exact OnlyEmission.rfl' s

theorem sendFrom_frame (s : State) (f : FeedNo) (p : PosNo) : OnlyEmission s (s.sendFrom f p) := by
  unfold State.sendFrom; dsimp only; split
  · split
    · exact ((setPos_reading _ _ _ _ _ _ _).emission.trans (setFeed_emission _ _ _)).trans (trim_frame _ _).reading.emission
    · exact OnlyEmission.rfl' s
  · exact OnlyEmission.rfl' s

theorem fillSlot_frame (s : State) (f : FeedNo) (c : Fill) : OnlyEmission s (s.fillSlot f c) := by
  cases c
  · exact setFeed_emission _ _ _
  · exact (setFeed_emission _ _ _).trans (sendFrom_frame _ _ _)
  · exact (setFeed_emission _ _ _).trans (sendFrom_frame _ _ _)
  · exact setFeed_emission _ _ _

theorem slotEvent_frame (s : State) (f : FeedNo) : OnlyEmission s (s.slotEvent f) := by
  unfold State.slotEvent; dsimp only
  exact (foldl_rel OnlyEmission OnlyEmission.rfl' OnlyEmission.trans _ (fun s p => discardStale_frame s f p) _ s).trans
    ((fillSlot_frame _ _ _).trans (setFeed_emission _ _ _))

/-! ### Requests -/

@[simp] theorem accept_state (s : State) (b : List Byte) : (accept s b).1 = s := rfl

@[simp] theorem refuse_state (s : State) (r : Result) : (refuse s r).1 = s := rfl

theorem setFeed_blocks (s : State) (f : FeedNo) (x : Feed) : OnlyBlocks s (s.setFeed f x) :=
  (setFeed_frame s f x).work.blocks

theorem reqReadPort_frame (p : PortNo) (b : List Byte) (s : State) : OnlyPorts s (reqReadPort p b s).1 := by
  exact OnlyPorts.rfl' s

theorem reqReadEvents_frame (p : PortNo) (b : List Byte) (s : State) : OnlyPorts s (reqReadEvents p b s).1 := by
  exact setPort_told s p _ _ _ id

theorem reqSetMask_frame (p : PortNo) (b : List Byte) (s : State) : OnlyPorts s (reqSetMask p b s).1 := by
  unfold reqSetMask; dsimp only; split
  · exact OnlyPorts.rfl' s
  · exact setPort_told s p _ _ _ id

theorem reqReadOutcomes_frame (p : PortNo) (b : List Byte) (s : State) : OnlyPorts s (reqReadOutcomes p b s).1 := by
  exact setPort_told s p _ _ _ (fun _ => Nat.zero_le _)

theorem reqSetTime_frame (p : PortNo) (b : List Byte) (s : State) : OnlyClock s (reqSetTime p b s).1 := by
  unfold reqSetTime; dsimp only; split
  · exact ⟨_, rfl⟩
  · exact ⟨s.clock, rfl⟩

theorem reqReadTime_frame (p : PortNo) (b : List Byte) (s : State) : OnlyPorts s (reqReadTime p b s).1 := by
  exact OnlyPorts.rfl' s

theorem reqPostEntry_frame (p : PortNo) (b : List Byte) (s : State) : OnlyList s (reqPostEntry p b s).1 := by
  unfold reqPostEntry; dsimp only
  split; · exact ⟨s.list, rfl⟩
  split; · exact ⟨s.list, rfl⟩
  split; · exact ⟨s.list, rfl⟩
  split; · exact ⟨s.list, rfl⟩
  split; · exact ⟨s.list, rfl⟩
  split; · exact ⟨s.list, rfl⟩
  split; · exact ⟨s.list, rfl⟩
  exact ⟨_, rfl⟩

theorem reqCancelEntry_frame (p : PortNo) (b : List Byte) (s : State) : OnlyList s (reqCancelEntry p b s).1 := by
  unfold reqCancelEntry; dsimp only; split
  · exact ⟨_, rfl⟩
  · exact ⟨s.list, rfl⟩

theorem reqClearEntries_frame (p : PortNo) (b : List Byte) (s : State) : OnlyList s (reqClearEntries p b s).1 := by
  exact ⟨_, rfl⟩

theorem reqListEntries_frame (p : PortNo) (b : List Byte) (s : State) : OnlyPorts s (reqListEntries p b s).1 := by
  unfold reqListEntries; dsimp only; split <;> exact OnlyPorts.rfl' s

theorem reqSetPosition_frame (p : PortNo) (b : List Byte) (s : State) : OnlyStacks s (reqSetPosition p b s).1 := by
  unfold reqSetPosition; dsimp only
  split; · exact OnlyStacks.rfl' s
  split; · exact OnlyStacks.rfl' s
  split; · exact OnlyStacks.rfl' s
  split; · exact OnlyStacks.rfl' s
  split; · exact OnlyStacks.rfl' s
  split; · exact OnlyStacks.rfl' s
  exact (setPos_frame _ _ _ _).trans ((trimOpt_frame _ _).stacks.trans (handOver_frame _ _ _ _ _ _).stacks)

theorem reqRelease_frame (p : PortNo) (b : List Byte) (s : State) : OnlyStacks s (reqRelease p b s).1 := by
  unfold reqRelease; dsimp only; split
  · exact OnlyStacks.rfl' s
  · exact (setPos_frame _ _ _ _).trans (handOver_frame _ _ _ _ _ _).stacks

theorem reqExaminePosition_frame (p : PortNo) (b : List Byte) (s : State) : OnlyPorts s (reqExaminePosition p b s).1 := by
  unfold reqExaminePosition; split
  · exact OnlyPorts.rfl' s
  · split <;> exact OnlyPorts.rfl' s

theorem reqSetCueLine_frame (p : PortNo) (b : List Byte) (s : State) : OnlyLines s (reqSetCueLine p b s).1 := by
  unfold reqSetCueLine; dsimp only
  split; · exact ⟨s.lines, rfl⟩
  split; · exact ⟨s.lines, rfl⟩
  split; · exact ⟨s.lines, rfl⟩
  exact ⟨_, rfl⟩

theorem reqSetSource_frame (p : PortNo) (b : List Byte) (s : State) : OnlyWork s (reqSetSource p b s).1 := by
  unfold reqSetSource; dsimp only
  split; · exact OnlyWork.rfl' s
  split
  · rename_i i t _ _
    split
    · exact OnlyWork.rfl' s
    · refine OnlyWork.trans (setSrc_frame s i ((s.src i).withTable t)).work ?_
      rw [accept_state]
      split
      · exact (healthChanged_frame _ _).work
      · split
        · exact (permitChanged_frame _ _).work
        · exact OnlyWork.rfl' _
  · exact OnlyWork.rfl' s

theorem reqReadSource_frame (p : PortNo) (b : List Byte) (s : State) : OnlyPorts s (reqReadSource p b s).1 := by
  unfold reqReadSource; split <;> exact OnlyPorts.rfl' s

theorem reqSetScan_frame (p : PortNo) (b : List Byte) (s : State) : OnlyScan s (reqSetScan p b s).1 := by
  unfold reqSetScan
  split; · exact ⟨s.scan, rfl⟩
  split
  · split
    · exact ⟨_, rfl⟩
    · exact ⟨s.scan, rfl⟩
  · exact ⟨s.scan, rfl⟩

theorem reqAckFaults_frame (p : PortNo) (b : List Byte) (s : State) : OnlyIntake s (reqAckFaults p b s).1 := by
  refine foldl_rel OnlyIntake OnlyIntake.rfl' OnlyIntake.trans _ (fun s i => ?_) _ s
  split
  · exact setSrc_frame _ _ _
  · exact OnlyIntake.rfl' s

theorem reqReadHealth_frame (p : PortNo) (b : List Byte) (s : State) : OnlyPorts s (reqReadHealth p b s).1 := by
  unfold reqReadHealth; split <;> exact OnlyPorts.rfl' s

theorem reqEditPlan_frame (p : PortNo) (b : List Byte) (s : State) : OnlyFeeds s (reqEditPlan p b s).1 := by
  unfold reqEditPlan; dsimp only
  split; · exact OnlyFeeds.rfl' s
  split; · exact OnlyFeeds.rfl' s
  split; · exact OnlyFeeds.rfl' s
  split; · exact OnlyFeeds.rfl' s
  exact setFeed_frame s _ _

theorem reqSwapPlan_frame (p : PortNo) (b : List Byte) (s : State) : OnlyFeeds s (reqSwapPlan p b s).1 := by
  unfold reqSwapPlan; dsimp only
  split; · exact OnlyFeeds.rfl' s
  split; · exact OnlyFeeds.rfl' s
  exact setFeed_frame s _ _

theorem reqSetFeedRate_frame (p : PortNo) (b : List Byte) (s : State) : OnlyFeeds s (reqSetFeedRate p b s).1 := by
  unfold reqSetFeedRate; dsimp only
  split; · exact OnlyFeeds.rfl' s
  split; · exact OnlyFeeds.rfl' s
  split; · exact OnlyFeeds.rfl' s
  split; · exact OnlyFeeds.rfl' s
  exact setFeed_frame s _ _

theorem reqStartFeed_frame (p : PortNo) (b : List Byte) (s : State) : OnlyFeeds s (reqStartFeed p b s).1 := by
  unfold reqStartFeed; dsimp only
  split; · exact OnlyFeeds.rfl' s
  split; · exact OnlyFeeds.rfl' s
  exact setFeed_frame s _ _

theorem reqStopFeed_frame (p : PortNo) (b : List Byte) (s : State) : OnlyWork s (reqStopFeed p b s).1 := by
  unfold reqStopFeed; dsimp only
  split; · exact OnlyWork.rfl' s
  split; · rw [accept_state]; exact stopNow_frame s _
  split; · exact (setFeed_frame s _ _).work
  exact OnlyWork.rfl' s

theorem reqReadPlan_frame (p : PortNo) (b : List Byte) (s : State) : OnlyPorts s (reqReadPlan p b s).1 := by
  unfold reqReadPlan; split <;> exact OnlyPorts.rfl' s

theorem reqReadFeed_frame (p : PortNo) (b : List Byte) (s : State) : OnlyPorts s (reqReadFeed p b s).1 := by
  unfold reqReadFeed; split <;> exact OnlyPorts.rfl' s

theorem reqLoadTable_frame (p : PortNo) (b : List Byte) (s : State) : OnlyFeeds s (reqLoadTable p b s).1 := by
  unfold reqLoadTable; dsimp only
  split; · exact OnlyFeeds.rfl' s
  split; · exact OnlyFeeds.rfl' s
  split; · exact OnlyFeeds.rfl' s
  split; · exact OnlyFeeds.rfl' s
  exact setFeed_frame s _ _

theorem reqDropTable_frame (p : PortNo) (b : List Byte) (s : State) : OnlyFeeds s (reqDropTable p b s).1 := by
  unfold reqDropTable
  split; · exact OnlyFeeds.rfl' s
  split; · exact OnlyFeeds.rfl' s
  exact setFeed_frame s _ _

/-- A request handed to its owner leaves the queue, RESETN and the loader alone, and the ports but for what they are told. -/
theorem perform_frame (r : Request) (p : PortNo) (b : List Byte) (s : State) : OnlyBlocks s (perform r p b s).1 := by
  cases r
  · exact (reqReadPort_frame p b s).moves.stacks.work.blocks
  · exact (reqReadEvents_frame p b s).moves.stacks.work.blocks
  · exact (reqSetMask_frame p b s).moves.stacks.work.blocks
  · exact (reqReadOutcomes_frame p b s).moves.stacks.work.blocks
  · exact (reqSetTime_frame p b s).blocks
  · exact (reqReadTime_frame p b s).moves.stacks.work.blocks
  · exact (reqPostEntry_frame p b s).blocks
  · exact (reqCancelEntry_frame p b s).blocks
  · exact (reqClearEntries_frame p b s).blocks
  · exact (reqListEntries_frame p b s).moves.stacks.work.blocks
  · exact (reqSetPosition_frame p b s).work.blocks
  · exact (reqRelease_frame p b s).work.blocks
  · exact (reqExaminePosition_frame p b s).moves.stacks.work.blocks
  · exact (reqSetCueLine_frame p b s).blocks
  · exact (reqSetSource_frame p b s).blocks
  · exact (reqReadSource_frame p b s).moves.stacks.work.blocks
  · exact (reqSetScan_frame p b s).blocks
  · exact (reqAckFaults_frame p b s).work.blocks
  · exact (reqReadHealth_frame p b s).moves.stacks.work.blocks
  · exact (reqEditPlan_frame p b s).work.blocks
  · exact (reqSwapPlan_frame p b s).work.blocks
  · exact (reqSetFeedRate_frame p b s).work.blocks
  · exact (reqStartFeed_frame p b s).work.blocks
  · exact (reqStopFeed_frame p b s).blocks
  · exact (reqReadPlan_frame p b s).moves.stacks.work.blocks
  · exact (reqReadFeed_frame p b s).moves.stacks.work.blocks
  · exact (reqLoadTable_frame p b s).work.blocks
  · exact (reqDropTable_frame p b s).work.blocks

theorem execute_frame (p : PortNo) (c : Byte) (b : List Byte) (s : State) : OnlyBlocks s (execute p c b s).1 := by
  unfold execute
  split; · exact OnlyBlocks.rfl' s
  split; · exact OnlyBlocks.rfl' s
  split; · exact OnlyBlocks.rfl' s
  exact perform_frame _ _ _ _

/-! ### The Control Port Unit -/

theorem setPort_units (s : State) (p : PortNo) (x : ControlPort) : OnlyUnits s (s.setPort p x) := ⟨rfl, rfl, rfl⟩

theorem handleHead_frame (s : State) (p : PortNo) : OnlyUnits s (s.handleHead p) := by
  unfold State.handleHead; split
  · exact (execute_frame _ _ _ s).units.trans (setPort_units _ _ _)
  · exact OnlyUnits.rfl' s

theorem acceptFrame_frame (s : State) (p : PortNo) (q : Frame) : OnlyUnits s (s.acceptFrame p q) := by
  unfold State.acceptFrame; dsimp only; split
  · split
    · exact (setPort_units _ _ _).trans (handleHead_frame _ _)
    · exact setPort_units _ _ _
  · split
    · exact setPort_units _ _ _
    · exact setPort_units _ _ _

theorem replyDone_frame (s : State) (p : PortNo) : OnlyUnits s (s.replyDone p) := by
  unfold State.replyDone; split
  · exact OnlyUnits.rfl' s
  · exact (setPort_units _ _ _).trans (handleHead_frame _ _)

theorem frameWhole_frame (s : State) (p : PortNo) (b : List Byte) : OnlyUnits s (s.frameWhole p b) := by
  unfold State.frameWhole; dsimp only; split
  · exact (setPort_units _ _ _).trans (acceptFrame_frame _ _ _)
  · exact setPort_units _ _ _

theorem receive_frame (s : State) (p : PortNo) (b : Byte) (fr : Bool) : OnlyUnits s (s.receive p b fr) := by
  unfold State.receive; dsimp only
  split
  · split
    · exact setPort_units _ _ _
    · exact OnlyUnits.rfl' s
  · split; · exact setPort_units _ _ _
    split; · exact setPort_units _ _ _
    split; · exact setPort_units _ _ _
    split; · exact setPort_units _ _ _
    exact frameWhole_frame _ _ _

/-! ### Timed events -/

theorem lockReference_frame (s : State) : OnlyBlocks s s.lockReference := by
  unfold State.lockReference; dsimp only; split
  · exact (clock_blocks s _).trans (raiseAll_blocks _ _)
  · exact clock_blocks s _

theorem judgePulse_frame (s : State) (o : FrameOrder) : OnlyBlocks s (s.judgePulse o) := by
  unfold State.judgePulse State.reloadTimer State.setRun; dsimp only
  split
  · exact (clock_blocks s _).trans ((lockReference_frame _).trans (frameEvent_frame _ _))
  · split
    · exact (clock_blocks s _).trans ((lockReference_frame _).trans (clock_blocks _ _))
    · split
      · exact clock_blocks s _
      · exact (clock_blocks s _).trans ((raiseAll_blocks _ _).trans ((lockReference_frame _).trans (frameEvent_frame _ _)))

theorem underflow_frame (s : State) (o : FrameOrder) : OnlyBlocks s (s.underflow o) := by
  unfold State.underflow State.reloadTimer; dsimp only
  exact (clock_blocks s _).trans (frameEvent_frame _ _)

theorem expireLate_frame (s : State) : OnlyBlocks s s.expireLate := by
  unfold State.expireLate; dsimp only; split
  · exact (clock_blocks s _).trans ((clock_blocks _ _).trans (raiseAll_blocks _ _))
  · exact clock_blocks s _

theorem pulse_frame (s : State) (o : FrameOrder) : OnlyBlocks s (s.pulse o) := by
  unfold State.pulse; split
  · exact (expireLate_frame s).trans (judgePulse_frame _ _)
  · exact judgePulse_frame _ _

theorem takeTimed_frame (s : State) (o : FrameOrder) (e : TimedEvent) : OnlyUnits s (s.takeTimed o e) := by
  cases e <;> simp only [State.takeTimed]
  · exact (endWindows_frame _ _ _).work.blocks.units
  · exact (forceSwitch_frame _ _ _).stacks.work.blocks.units
  · exact (makeDue_frame _ _ _).work.blocks.units
  · unfold State.changeSpeed; dsimp only; split
    · split
      · exact setPort_units _ _ _
      · exact OnlyUnits.rfl' s
    · exact OnlyUnits.rfl' s
  · exact (expireLate_frame s).units
  · exact (slotEvent_frame _ _).work.blocks.units
  · unfold State.gapExpired; split
    · exact OnlyUnits.rfl' s
    · exact setPort_units _ _ _
  · exact (underflow_frame _ _).units

theorem runTimed_frame (s : State) (e : TimedEvent) (o : FrameOrder) : OnlyUnits s (s.runTimed e o) := by
  unfold State.runTimed; split
  · split
    · exact (clock_blocks s _).units.trans (takeTimed_frame _ _ _)
    · exact OnlyUnits.rfl' s
  · exact OnlyUnits.rfl' s

/-- Taking the pieces leaves the queue, RESETN and the loader alone. -/
theorem settle_frame (s : State) : OnlyUnits s s.settle :=
  foldl_rel OnlyUnits OnlyUnits.rfl' OnlyUnits.trans _ (fun s e => runTimed_frame s e _) _ s

end Sys2Proof.Machine
end

