-- ==== Sys2Proof/Laws/Loading.lean ====
section
/-! SUPPORT. What the end of a load can write: the parts of an image that is applied, and what each leaves alone. -/

namespace Sys2Proof.Machine

/-- What a fold keeps when each of its steps keeps it. -/
theorem foldl_same {α β : Type} (v : State → β) (g : State → α → State) (h : ∀ s a, v (g s a) = v s) (l : List α) (s : State) :
    v (l.foldl g s) = v s := by
  induction l generalizing s with
  | nil => rfl
  | cons a l ih => rw [List.foldl_cons, ih, h]

/-- A property that every step of a fold keeps, the fold keeps. -/
theorem foldl_keeps {α : Type} (P : State → Prop) (g : State → α → State) (h : ∀ s a, P s → P (g s a)) (l : List α) (s : State)
    (k : P s) : P (l.foldl g s) := by
  induction l generalizing s with
  | nil => exact k
  | cons a l ih => exact ih _ (h s a k)

/-- The ports' part: ports and quotas alone are written. -/
theorem applyPorts_frame (s : State) (m : Image) :
    ∃ u q, s.applyPorts m = { s with ports := u, list := { s.list with quotas := q } } := by
  unfold State.applyPorts
  generalize allPorts.zip m.ports = l
  induction l generalizing s with
  | nil => exact ⟨_, _, rfl⟩
  | cons a l ih =>
    obtain ⟨u, q, h⟩ := ih (s.applyPort a.1 a.2)
    exact ⟨u, q, by rw [List.foldl_cons, h]; rfl⟩

/-- The sources' part: sources alone are written. -/
theorem applySources_frame (s : State) (m : Image) : ∃ w, s.applySources m = { s with sources := w } := by
  unfold State.applySources
  generalize allSources.zip m.sources = l
  induction l generalizing s with
  | nil => exact ⟨_, rfl⟩
  | cons a l ih =>
    obtain ⟨w, h⟩ := ih (s.setSrc a.1 ((s.src a.1).configured a.2))
    exact ⟨w, by rw [List.foldl_cons, h]; rfl⟩

/-- The positions' part: positions alone are written. -/
theorem applyPositions_frame (s : State) (m : Image) : ∃ v, s.applyPositions m = { s with positions := v } := by
  unfold State.applyPositions
  generalize allPositions.zip m.positions = l
  induction l generalizing s with
  | nil => exact ⟨_, rfl⟩
  | cons a l ih =>
    obtain ⟨v, h⟩ := ih (s.applyPosition a.1.1 a.1.2 a.2)
    exact ⟨v, by rw [List.foldl_cons, h]; rfl⟩

/-- The feeds' part: feeds alone are written. -/
theorem applyFeeds_frame (s : State) (m : Image) : ∃ x, s.applyFeeds m = { s with feeds := x } := by
  unfold State.applyFeeds
  generalize allFeeds.zip m.feeds = l
  induction l generalizing s with
  | nil => exact ⟨_, rfl⟩
  | cons a l ih =>
    obtain ⟨x, h⟩ := ih (s.setFeed a.1 ((s.feed a.1).configured a.2 s.clock.rate))
    exact ⟨x, by rw [List.foldl_cons, h]; rfl⟩

/-- The carousel's part: feeds alone are written. -/
theorem applyTables_frame (s : State) (m : Image) : ∃ x, s.applyTables m = { s with feeds := x } := by
  unfold State.applyTables
  generalize m.carousel = l
  induction l generalizing s with
  | nil => exact ⟨_, rfl⟩
  | cons a l ih =>
    obtain ⟨x, h⟩ := ih (s.applyTable a)
    exact ⟨x, by rw [List.foldl_cons, h]; rfl⟩

/-- The cue lines' part: cue lines alone are written. -/
theorem applyLines_frame (s : State) (m : Image) : ∃ l, s.applyLines m = { s with lines := l } := by
  unfold State.applyLines
  generalize allLines.zip m.lines = l
  induction l generalizing s with
  | nil => exact ⟨_, rfl⟩
  | cons a l ih =>
    obtain ⟨x, h⟩ := ih (s.setLine a.1 ((s.line a.1).configured a.2))
    exact ⟨x, by rw [List.foldl_cons, h]; rfl⟩

/-- A position's stack above the base, slot, on-air cursor, switch marks and overrun count are not in an image. -/
theorem applyPositions_kept (s : State) (m : Image) (f : FeedNo) (p : PosNo) :
    ∃ i b k r d, (s.applyPositions m).pos f p =
      { s.pos f p with ids := i, base := b, fallback := k, policy := r, baseMark := d } := by
  unfold State.applyPositions
  generalize allPositions.zip m.positions = l
  induction l generalizing s with
  | nil => exact ⟨_, _, _, _, _, rfl⟩
  | cons a l ih =>
    obtain ⟨i, b, k, r, d, h⟩ := ih (s.applyPosition a.1.1 a.1.2 a.2)
    rw [List.foldl_cons, h]
    by_cases e : a.1.1 = f ∧ a.1.2 = p
    · obtain ⟨rfl, rfl⟩ := e
      exact ⟨i, b, k, r, d, by simp [State.applyPosition]⟩
    · exact ⟨i, b, k, r, d, by simp [State.applyPosition, e]⟩

/-- A header byte leaves every block but the loader and the scan alone. -/
theorem headerByte_frame (s : State) (b : Byte) : ∃ l k, s.headerByte b = { s with loader := l, scan := k } := by
  unfold State.headerByte State.defaulted; dsimp only; split_ifs <;> exact ⟨_, _, rfl⟩

/-- The loader's read of the header leaves every other block alone but for the scan. -/
theorem readHeader_frame (s : State) (bytes : List Byte) : ∃ l k, s.readHeader bytes = { s with loader := l, scan := k } := by
  unfold State.readHeader
  induction bytes generalizing s with
  | nil => exact ⟨_, _, rfl⟩
  | cons b bytes ih =>
    obtain ⟨l, k, h⟩ := ih (s.headerByte b)
    obtain ⟨l', k', h'⟩ := headerByte_frame s b
    exact ⟨l, k, by rw [List.foldl_cons, h, h']⟩

/-- The application of an image leaves the queue, RESETN, the clock, the entries of the list and the loader alone. -/
theorem applyImage_frame (s : State) (m : Image) :
    ∃ q v l w c x u, s.applyImage m =
      { s with list := { s.list with quotas := q }, positions := v, lines := l, sources := w, scan := c, feeds := x, ports := u } := by
  unfold State.applyImage; dsimp only
  obtain ⟨_, _, h1⟩ := applyPorts_frame s m
  rw [h1]
  obtain ⟨_, h2⟩ := applySources_frame { s with ports := _, list := _ } m
  rw [h2]
  obtain ⟨_, h3⟩ := applyPositions_frame { s with ports := _, list := _, sources := _, scan := m.scan } m
  rw [h3]
  obtain ⟨_, h4⟩ := applyFeeds_frame { s with ports := _, list := _, sources := _, scan := m.scan, positions := _ } m
  rw [h4]
  obtain ⟨_, h5⟩ := applyTables_frame { s with ports := _, list := _, sources := _, scan := m.scan, positions := _, feeds := _ } m
  rw [h5]
  obtain ⟨_, h6⟩ := applyLines_frame { s with ports := _, list := _, sources := _, scan := m.scan, positions := _, feeds := _ } m
  rw [h6]
  exact ⟨_, _, _, _, _, _, _, rfl⟩

end Sys2Proof.Machine
end

