-- ==== Sys2Proof/Laws/Notices.lean ====
section
/-! SUPPORT. What a frame event keeps: the clock that its own part has set, and every notice that was pending (R155). -/

namespace Sys2Proof.Machine

/-- Every notice pending in the first state is pending in the second, port by port. -/
def Grows (s t : State) : Prop := ∀ p k, (s.port p).notices.getLsbD k = true → (t.port p).notices.getLsbD k = true

theorem Grows.rfl' (s : State) : Grows s s := fun _ _ => id

theorem Grows.trans {s t u : State} (a : Grows s t) (b : Grows t u) : Grows s u := fun p k h => b p k (a p k h)

/-- Ports left alone keep their notices. -/
theorem Grows.of_ports {s t : State} (h : t.ports = s.ports) : Grows s t := by
  intro p k; unfold State.port; rw [h]; exact id

theorem setPos_grows (s : State) (f : FeedNo) (p : PosNo) (x : Position) : Grows s (s.setPos f p x) := Grows.of_ports rfl

theorem feeds_grows (s : State) (x : Vector Feed 6) : Grows s { s with feeds := x } := Grows.of_ports rfl

theorem setSrc_grows (s : State) (i : SrcNo) (x : Source) : Grows s (s.setSrc i x) := Grows.of_ports rfl

theorem setFeed_grows (s : State) (f : FeedNo) (x : Feed) : Grows s (s.setFeed f x) := Grows.of_ports rfl

/-- A set of kinds joining a port's notices. -/
theorem setPort_grows (s : State) (p : PortNo) (x : ControlPort)
    (h : ∀ k, (s.port p).notices.getLsbD k = true → x.notices.getLsbD k = true) : Grows s (s.setPort p x) := by
  intro q k
  simp only [State.port_setPort]
  split
  · rename_i e; subst e; exact h k
  · exact id

theorem OnlySources.grows {s t : State} (h : OnlySources s t) : Grows s t := by
  obtain ⟨_, rfl, _⟩ := h; exact Grows.of_ports rfl

theorem OnlyReading.grows {s t : State} (h : OnlyReading s t) : Grows s t := by
  obtain ⟨_, _, rfl, _⟩ := h; exact Grows.of_ports rfl

theorem raise_grows (s : State) (p : PortNo) (k : Notice) : Grows s (s.raise p k) :=
  setPort_grows s p _ (by intro j h; simp [h])

theorem raiseAll_grows (s : State) (k : Notice) : Grows s (s.raiseAll k) :=
  foldl_rel Grows Grows.rfl' Grows.trans _ (fun s p => raise_grows s p k) _ s

theorem raiseForFeed_grows (s : State) (f : FeedNo) (k : Notice) : Grows s (s.raiseForFeed f k) :=
  foldl_rel Grows Grows.rfl' Grows.trans _
    (fun s p => by split
                   · exact raise_grows s p k
                   · exact Grows.rfl' s) _ s

theorem addOutcome_grows (s : State) (p : PortNo) (r : Outcome) : Grows s (s.addOutcome p r) :=
  setPort_grows s p _ (by intro j h; simp [h])

theorem ownerDone_grows (s : State) (f : FeedNo) (p : PosNo) (o : Option Owner) (fl : OutcomeFlags) :
    Grows s (s.ownerDone f p o fl) := by
  cases o
  · exact Grows.rfl' s
  · exact addOutcome_grows s _ _

theorem takeChange_grows (s : State) (f : FeedNo) (p : PosNo) (t : Option SrcNo) (pol : Splice) (o : Option Owner) :
    Grows s (s.takeChange f p t pol o) := by
  unfold State.takeChange
  dsimp only
  split
  · split
    · exact ownerDone_grows _ _ _ _ _
    · split
      · exact (seek_frame _ _ _ _ _ _).grows
      · exact (switchNow_frame _ _ _ _).grows.trans (ownerDone_grows _ _ _ _ _)
  · rename_i target wait old _
    refine Grows.trans (ownerDone_grows s f p old { OutcomeFlags.none with superseded := true }) ?_
    split
    · exact (setPos_grows _ _ _ _).trans ((trim_frame _ _).grows.trans (ownerDone_grows _ _ _ _ _))
    · split
      · exact (seek_frame _ _ _ _ _ _).grows
      · exact (switchNow_frame _ _ _ _).grows.trans (ownerDone_grows _ _ _ _ _)

theorem forceSwitch_grows (s : State) (f : FeedNo) (p : PosNo) : Grows s (s.forceSwitch f p) := by
  unfold State.forceSwitch; split
  · exact (moveOnAir_frame _ _ _ _ _).grows.trans (ownerDone_grows _ _ _ _ _)
  · exact Grows.rfl' s

theorem handOver_grows (s : State) (f : FeedNo) (p : PosNo) (b : Option SrcNo) (pol : Splice) (o : Option Owner) :
    Grows s (s.handOver f p b pol o) := by
  unfold State.handOver; split
  · exact takeChange_grows _ _ _ _ _ _
  · exact Grows.rfl' s

theorem endWindows_grows (s : State) (f : FeedNo) (p : PosNo) : Grows s (s.endWindows f p) := by
  unfold State.endWindows
  exact ((setPos_grows s f p _).trans (handOver_grows _ _ _ _ _ _)).trans
    (foldl_rel Grows Grows.rfl' Grows.trans _ (fun s _ => addOutcome_grows s _ _) _ _)

theorem judgePosition_grows (s : State) (f : FeedNo) (p : PosNo) (k : Option SrcNo → Bool) :
    Grows s (s.judgePosition f p k) := by
  unfold State.judgePosition
  exact (setPos_grows s f p _).trans (handOver_grows _ _ _ _ _ _)

theorem healthChanged_grows (s : State) (i : SrcNo) : Grows s (s.healthChanged i) :=
  foldl_rel Grows Grows.rfl' Grows.trans _ (fun s _ => judgePosition_grows s _ _ _) _ s

theorem healthMoved_grows (s : State) (i : SrcNo) (b : Health) : Grows s (s.healthMoved i b) := by
  unfold State.healthMoved; dsimp only
  split
  · exact Grows.rfl' s
  · refine Grows.trans ?_ (healthChanged_grows _ _)
    split_ifs
    · exact raiseAll_grows _ _
    · exact raiseAll_grows _ _
    · exact Grows.rfl' s
    · exact Grows.rfl' s

theorem examine_grows (s : State) : Grows s s.examine := by
  unfold State.examine; dsimp only
  refine Grows.trans (t := if (s.src s.scan.pointer).table.enabled then _ else _) ?_ (Grows.of_ports rfl)
  split
  · exact (setSrc_grows _ _ _).trans (healthMoved_grows _ _ _)
  · exact setSrc_grows _ _ _

theorem entryStacked_grows (s : State) (e : Entry) (b : Option SrcNo) (h : Bool) : Grows s (s.entryStacked e b h) := by
  unfold State.entryStacked; split
  · exact takeChange_grows _ _ _ _ _ _
  · exact addOutcome_grows _ _ _

theorem swapNow_grows (s : State) (f : FeedNo) : Grows s (s.swapNow f) := by
  unfold State.swapNow
  exact (setFeed_grows _ _ _).trans (raiseForFeed_grows _ _ _)

theorem fire_grows (s : State) (e : Entry) : Grows s (s.fire e) := by
  unfold State.fire; split
  · unfold State.fireTake; dsimp only; split
    · exact addOutcome_grows _ _ _
    · exact (setPos_grows _ _ _ _).trans (entryStacked_grows _ _ _ _)
  · unfold State.fireReturn; dsimp only; split
    · exact (setPos_grows _ _ _ _).trans (entryStacked_grows _ _ _ _)
    · exact addOutcome_grows _ _ _
  · unfold State.fireBase
    exact (setPos_grows _ _ _ _).trans (entryStacked_grows _ _ _ _)
  · unfold State.firePlan; dsimp only; split
    · exact addOutcome_grows _ _ _
    · split
      · exact (swapNow_grows _ _).trans (addOutcome_grows _ _ _)
      · exact addOutcome_grows _ _ _
  · exact addOutcome_grows _ _ _

theorem applyCue_ports (s : State) (e : Entry) (b : Bool) : (s.applyCue e b).1.ports = s.ports := by
  unfold State.applyCue; split
  · split <;> rfl
  · rfl

theorem applyCue_grows (s : State) (e : Entry) (b : Bool) : Grows s (s.applyCue e b).1 := Grows.of_ports (applyCue_ports s e b)

theorem passEntries_grows (b : Bool) (l : List Entry) (s : State) : Grows s (passEntries b l s).1 := by
  induction l generalizing s with
  | nil => exact Grows.rfl' s
  | cons e l ih =>
    unfold passEntries; split
    · exact (applyCue_grows _ _ _).trans ((fire_grows _ _).trans (ih _))
    · exact (addOutcome_grows _ _ _).trans (ih _)
    · exact (applyCue_grows _ _ _).trans (ih _)

theorem pass_grows (s : State) (b : Bool) : Grows s (s.pass b) := by
  unfold State.pass
  exact fun p k h => passEntries_grows b s.list.entries s p k h

theorem takeStart_grows (s : State) (f : FeedNo) : Grows s (s.takeStart f) := by
  unfold State.takeStart; split
  · exact (setFeed_grows _ _ _).trans
      (foldl_rel Grows Grows.rfl' Grows.trans _ (fun s p => (attachPosition_frame s f p).grows) _ _)
  · exact Grows.rfl' s

theorem frameTask_grows (s : State) (k : FrameTask) : Grows s (s.frameTask k) := by
  cases k
  · exact endWindows_grows s _ _
  · exact forceSwitch_grows s _ _
  · unfold State.frameTask State.makeDue; dsimp only; split
    · exact setFeed_grows _ _ _
    · exact Grows.rfl' s
  · unfold State.frameTask State.takeSwap; dsimp only; split
    · exact swapNow_grows s _
    · exact Grows.rfl' s
  · exact takeStart_grows s _

theorem frameTasks_grows (s : State) (l : List FrameTask) : Grows s (s.frameTasks l) :=
  foldl_rel Grows Grows.rfl' Grows.trans _ frameTask_grows _ s

/-- After the clock's own part of a frame event, every pending notice stays pending to its end. -/
theorem frameEvent_grows (s : State) (o : FrameOrder) : Grows s.clockFrame (s.frameEvent o) := by
  unfold State.frameEvent; dsimp only
  refine Grows.trans ?_ (feeds_grows _ _)
  refine Grows.trans ?_ (frameTasks_grows _ _)
  refine Grows.trans ?_ (frameTasks_grows _ _)
  have h : Grows s.clockFrame (s.clockFrame.counts.frameTasks o.first) :=
    (Grows.of_ports (s := s.clockFrame) (t := s.clockFrame.counts) rfl).trans (frameTasks_grows _ _)
  cases o.examineFirst
  · exact h.trans ((pass_grows _ _).trans ((frameTasks_grows _ _).trans (examine_grows _)))
  · exact h.trans ((examine_grows _).trans ((frameTasks_grows _ _).trans (pass_grows _ _)))

/-- The clock's own part of a frame event keeps the notices that are pending. -/
theorem clockFrame_grows (s : State) : Grows s s.clockFrame := by
  unfold State.clockFrame; split
  · rename_i t _
    have h := raiseAll_grows { s with clock := { s.clock with frameStart := s.clock.tick, tod := t, load := none } } .timeLoaded
    exact Grows.trans (Grows.of_ports rfl) h
  · exact fun _ _ h => h

/-- The blocks after the clock leave the clock as its own part of the frame event has set it. -/
theorem frameEvent_clock (s : State) (o : FrameOrder) : (s.frameEvent o).clock = s.clockFrame.clock := by
  have tasks : ∀ (s : State) (l : List FrameTask), (s.frameTasks l).clock = s.clock := by
    intro s l; obtain ⟨_, _, _, _, _, _, h, _⟩ := frameTasks_frame s l; rw [h]
  have pass : ∀ (s : State) (b : Bool), (s.pass b).clock = s.clock := by
    intro s b; unfold State.pass
    obtain ⟨_, _, _, _, _, _, h, _⟩ := passEntries_frame b s.list.entries s; simp [h]
  have examine : ∀ s : State, s.examine.clock = s.clock := by
    intro s; obtain ⟨_, _, _, _, _, _, h, _⟩ := examine_frame s; rw [h]
  unfold State.frameEvent; dsimp only
  rw [tasks, tasks]
  cases o.examineFirst
  · simp only [Bool.false_eq_true, if_false]
    rw [examine, tasks, pass, tasks]; rfl
  · simp only [if_true]
    rw [pass, tasks, examine, tasks]; rfl

end Sys2Proof.Machine
end

