-- ==== Sys2Proof/WellFormed.lean ====
section
/-! DEFINITION. Well-formed commands: those whose operands the lines of the part can carry. -/

namespace Sys2Proof

/-- The request that a command sends, if it is a request's. -/
def Instr.request : Instr → Option Request
  | .resetAssert _ => none
  | .resetRelease _ => none
  | .imageHeaderRead _ _ _ => none
  | .imageReadComplete _ => none
  | .lineSpeedChange _ => none
  | .flywheelUnderflow _ => none
  | .lateWindowExpiry => none
  | .houseReferencePulse _ => none
  | .windowEnd _ _ => none
  | .forcedSwitch _ _ => none
  | .carouselDueMaking _ _ => none
  | .packetArrival _ _ => none
  | .slotEvent _ => none
  | .controlFrame _ _ => none
  | .byteGapExpiry _ => none
  | .replySent _ => none
  | .unknownRequest _ _ _ _ => none
  | .setTime _ _ _ => some .setTime
  | .readTime _ _ _ => some .readTime
  | .postEntry _ _ _ => some .postEntry
  | .cancelEntry _ _ _ => some .cancelEntry
  | .clearEntries _ _ _ => some .clearEntries
  | .listEntries _ _ _ => some .listEntries
  | .setPosition _ _ _ => some .setPosition
  | .release _ _ _ => some .release
  | .examinePosition _ _ _ => some .examinePosition
  | .setCueLine _ _ _ => some .setCueLine
  | .setSource _ _ _ => some .setSource
  | .readSource _ _ _ => some .readSource
  | .setScan _ _ _ => some .setScan
  | .ackFaults _ _ _ => some .ackFaults
  | .readHealth _ _ _ => some .readHealth
  | .editPlan _ _ _ => some .editPlan
  | .swapPlan _ _ _ => some .swapPlan
  | .setFeedRate _ _ _ => some .setFeedRate
  | .startFeed _ _ _ => some .startFeed
  | .stopFeed _ _ _ => some .stopFeed
  | .readPlan _ _ _ => some .readPlan
  | .readFeed _ _ _ => some .readFeed
  | .loadTable _ _ _ => some .loadTable
  | .dropTable _ _ _ => some .dropTable
  | .setMask _ _ _ => some .setMask
  | .readEvents _ _ _ => some .readEvents
  | .readOutcomes _ _ _ => some .readOutcomes
  | .readPort _ _ _ => some .readPort
  | .sourcePortByte _ _ => none
  | .controlPortByte _ _ _ => none

/-- The checks on a command: a frame's body holds at most 240 bytes (R148, 10.2), an image at most 24,576 section bytes (R164), and an
unknown request's code names no request (R153). -/
def Instr.wellFormed : Instr → Bool
  | .resetAssert _ => true
  | .resetRelease _ => true
  | .imageHeaderRead _ _ _ => true
  | .imageReadComplete bytes => decide (bytes.length ≤ 24576)
  | .lineSpeedChange _ => true
  | .flywheelUnderflow _ => true
  | .lateWindowExpiry => true
  | .houseReferencePulse _ => true
  | .windowEnd _ _ => true
  | .forcedSwitch _ _ => true
  | .carouselDueMaking _ _ => true
  | .packetArrival _ _ => true
  | .slotEvent _ => true
  | .controlFrame _ _ => true
  | .byteGapExpiry _ => true
  | .replySent _ => true
  | .unknownRequest _ _ code body => (Machine.reqOf code).isNone && decide (body.length ≤ 240)
  | .setTime _ _ body => decide (body.length ≤ 240)
  | .readTime _ _ body => decide (body.length ≤ 240)
  | .postEntry _ _ body => decide (body.length ≤ 240)
  | .cancelEntry _ _ body => decide (body.length ≤ 240)
  | .clearEntries _ _ body => decide (body.length ≤ 240)
  | .listEntries _ _ body => decide (body.length ≤ 240)
  | .setPosition _ _ body => decide (body.length ≤ 240)
  | .release _ _ body => decide (body.length ≤ 240)
  | .examinePosition _ _ body => decide (body.length ≤ 240)
  | .setCueLine _ _ body => decide (body.length ≤ 240)
  | .setSource _ _ body => decide (body.length ≤ 240)
  | .readSource _ _ body => decide (body.length ≤ 240)
  | .setScan _ _ body => decide (body.length ≤ 240)
  | .ackFaults _ _ body => decide (body.length ≤ 240)
  | .readHealth _ _ body => decide (body.length ≤ 240)
  | .editPlan _ _ body => decide (body.length ≤ 240)
  | .swapPlan _ _ body => decide (body.length ≤ 240)
  | .setFeedRate _ _ body => decide (body.length ≤ 240)
  | .startFeed _ _ body => decide (body.length ≤ 240)
  | .stopFeed _ _ body => decide (body.length ≤ 240)
  | .readPlan _ _ body => decide (body.length ≤ 240)
  | .readFeed _ _ body => decide (body.length ≤ 240)
  | .loadTable _ _ body => decide (body.length ≤ 240)
  | .dropTable _ _ body => decide (body.length ≤ 240)
  | .setMask _ _ body => decide (body.length ≤ 240)
  | .readEvents _ _ body => decide (body.length ≤ 240)
  | .readOutcomes _ _ body => decide (body.length ≤ 240)
  | .readPort _ _ body => decide (body.length ≤ 240)
  | .sourcePortByte _ _ => true
  | .controlPortByte _ _ _ => true

end Sys2Proof
end

