-- ==== Sys2Proof/Laws/PerInstr.lean ====
section
/-! SUPPORT. The statements made of every constructor of Instr. -/

namespace Sys2Proof.Laws.RequestCode

/-- The code of a command's request is below $80 and names that request alone (R152, R153). -/
def Statement (i : Instr) : Prop :=
  ∀ r, i.request = some r → (Machine.reqCode r).toNat < 128 ∧ Machine.reqOf (Machine.reqCode r) = some r

/-- A request's code is below $80 and names it. -/
theorem code_names : ∀ r : Request, (Machine.reqCode r).toNat < 128 ∧ Machine.reqOf (Machine.reqCode r) = some r := by
  intro r; cases r <;> decide

theorem resetAssert a0 : Statement (.resetAssert a0) := fun r _ => code_names r
theorem resetRelease a0 : Statement (.resetRelease a0) := fun r _ => code_names r
theorem imageHeaderRead a0 a1 a2 : Statement (.imageHeaderRead a0 a1 a2) := fun r _ => code_names r
theorem imageReadComplete a0 : Statement (.imageReadComplete a0) := fun r _ => code_names r
theorem lineSpeedChange a0 : Statement (.lineSpeedChange a0) := fun r _ => code_names r
theorem flywheelUnderflow a0 : Statement (.flywheelUnderflow a0) := fun r _ => code_names r
theorem lateWindowExpiry  : Statement (.lateWindowExpiry) := fun r _ => code_names r
theorem houseReferencePulse a0 : Statement (.houseReferencePulse a0) := fun r _ => code_names r
theorem windowEnd a0 a1 : Statement (.windowEnd a0 a1) := fun r _ => code_names r
theorem forcedSwitch a0 a1 : Statement (.forcedSwitch a0 a1) := fun r _ => code_names r
theorem carouselDueMaking a0 a1 : Statement (.carouselDueMaking a0 a1) := fun r _ => code_names r
theorem packetArrival a0 a1 : Statement (.packetArrival a0 a1) := fun r _ => code_names r
theorem slotEvent a0 : Statement (.slotEvent a0) := fun r _ => code_names r
theorem controlFrame a0 a1 : Statement (.controlFrame a0 a1) := fun r _ => code_names r
theorem byteGapExpiry a0 : Statement (.byteGapExpiry a0) := fun r _ => code_names r
theorem replySent a0 : Statement (.replySent a0) := fun r _ => code_names r
theorem unknownRequest a0 a1 a2 a3 : Statement (.unknownRequest a0 a1 a2 a3) := fun r _ => code_names r
theorem setTime a0 a1 a2 : Statement (.setTime a0 a1 a2) := fun r _ => code_names r
theorem readTime a0 a1 a2 : Statement (.readTime a0 a1 a2) := fun r _ => code_names r
theorem postEntry a0 a1 a2 : Statement (.postEntry a0 a1 a2) := fun r _ => code_names r
theorem cancelEntry a0 a1 a2 : Statement (.cancelEntry a0 a1 a2) := fun r _ => code_names r
theorem clearEntries a0 a1 a2 : Statement (.clearEntries a0 a1 a2) := fun r _ => code_names r
theorem listEntries a0 a1 a2 : Statement (.listEntries a0 a1 a2) := fun r _ => code_names r
theorem setPosition a0 a1 a2 : Statement (.setPosition a0 a1 a2) := fun r _ => code_names r
theorem release a0 a1 a2 : Statement (.release a0 a1 a2) := fun r _ => code_names r
theorem examinePosition a0 a1 a2 : Statement (.examinePosition a0 a1 a2) := fun r _ => code_names r
theorem setCueLine a0 a1 a2 : Statement (.setCueLine a0 a1 a2) := fun r _ => code_names r
theorem setSource a0 a1 a2 : Statement (.setSource a0 a1 a2) := fun r _ => code_names r
theorem readSource a0 a1 a2 : Statement (.readSource a0 a1 a2) := fun r _ => code_names r
theorem setScan a0 a1 a2 : Statement (.setScan a0 a1 a2) := fun r _ => code_names r
theorem ackFaults a0 a1 a2 : Statement (.ackFaults a0 a1 a2) := fun r _ => code_names r
theorem readHealth a0 a1 a2 : Statement (.readHealth a0 a1 a2) := fun r _ => code_names r
theorem editPlan a0 a1 a2 : Statement (.editPlan a0 a1 a2) := fun r _ => code_names r
theorem swapPlan a0 a1 a2 : Statement (.swapPlan a0 a1 a2) := fun r _ => code_names r
theorem setFeedRate a0 a1 a2 : Statement (.setFeedRate a0 a1 a2) := fun r _ => code_names r
theorem startFeed a0 a1 a2 : Statement (.startFeed a0 a1 a2) := fun r _ => code_names r
theorem stopFeed a0 a1 a2 : Statement (.stopFeed a0 a1 a2) := fun r _ => code_names r
theorem readPlan a0 a1 a2 : Statement (.readPlan a0 a1 a2) := fun r _ => code_names r
theorem readFeed a0 a1 a2 : Statement (.readFeed a0 a1 a2) := fun r _ => code_names r
theorem loadTable a0 a1 a2 : Statement (.loadTable a0 a1 a2) := fun r _ => code_names r
theorem dropTable a0 a1 a2 : Statement (.dropTable a0 a1 a2) := fun r _ => code_names r
theorem setMask a0 a1 a2 : Statement (.setMask a0 a1 a2) := fun r _ => code_names r
theorem readEvents a0 a1 a2 : Statement (.readEvents a0 a1 a2) := fun r _ => code_names r
theorem readOutcomes a0 a1 a2 : Statement (.readOutcomes a0 a1 a2) := fun r _ => code_names r
theorem readPort a0 a1 a2 : Statement (.readPort a0 a1 a2) := fun r _ => code_names r
theorem sourcePortByte a0 a1 : Statement (.sourcePortByte a0 a1) := fun r _ => code_names r
theorem controlPortByte a0 a1 a2 : Statement (.controlPortByte a0 a1 a2) := fun r _ => code_names r

end Sys2Proof.Laws.RequestCode
end

