-- ==== Sys2Proof/Laws/Requests.lean ====
section
/-! SUPPORT. The command of a request, said once for all 28: its frame is accepted on the port. -/

namespace Sys2Proof.Machine

/-- The command of a request accepts a frame with that request's code (log 8). -/
theorem exec_ofRequest (r : Request) (p : PortNo) (sequence : Byte) (body : List Byte) (s : State) :
    exec (.ofRequest r p sequence body) s = s.act fun s => s.acceptFrame p ⟨sequence, reqCode r, body⟩ := by
  cases r <;> rfl

/-- A command that is none of a piece's, from a state in which none is due (log 6, 35). -/
theorem State.act_awake (s : State) (f : State → State) (h : s.awake) : s.act f = .next (f s) := s.act_calm f h.1 h.2

/-- The command of a request, from a state in which no piece is due. -/
theorem exec_ofRequest_awake (r : Request) (p : PortNo) (sequence : Byte) (body : List Byte) (s : State) (h : s.awake) :
    exec (.ofRequest r p sequence body) s = .next (s.acceptFrame p ⟨sequence, reqCode r, body⟩) := by
  rw [exec_ofRequest, s.act_awake _ h]

/-- A write to a port that is to change speed now as little as before leaves the state as awake as it was. -/
theorem State.awake_setPort (s : State) (p : PortNo) (x : ControlPort)
    (q : (x.pendingSpeed.isSome && x.quiet) = ((s.port p).pendingSpeed.isSome && (s.port p).quiet)) :
    (s.setPort p x).awake ↔ s.awake := by
  unfold State.awake; rw [State.calm_setPort s p x q]; rfl

end Sys2Proof.Machine
end

