-- ==== Sys2Proof/Laws/Steps.lean ====
section
/-! SUPPORT. What a step can do, said once: a property that does not speak of the queue, the clock, the cue lines, the scan and the
ports, and that each operation of the other blocks keeps, is kept by every step. -/

namespace Sys2Proof.Machine

/-- A property of states kept by every operation a step is made of. -/
structure Kept (P : State → Prop) : Prop where
  /-- It does not speak of the queue, RESETN, the clock, the lines, the scan and the ports. -/
  free : ∀ s q h k l c u, P s → P { s with pending := q, held := h, clock := k, lines := l, scan := c, ports := u }
  reset : ∀ r q, P (State.heldAt r q)
  release : ∀ s b, P s → P (s.release b)
  header : ∀ s b, P s → P (s.headerByte b)
  sections : ∀ s b, P s → P (s.readSections b)
  counts : ∀ s, P s → P s.counts
  examine : ∀ s, P s → P s.examine
  pass : ∀ s b, P s → P (s.pass b)
  task : ∀ s k, P s → P (s.frameTask k)
  reload : ∀ s, P s → P { s with feeds := tmap Feed.reloadRunning s.feeds }
  slot : ∀ s f, P s → P (s.slotEvent f)
  byte : ∀ s i b, P s → P (s.takeByte i b)
  request : ∀ r p b s, s.loader.state ≠ .loading ∨ r = .readPort → P s → P (perform r p b s).1

namespace Kept

variable {P : State → Prop}

theorem clockOf (K : Kept P) (s : State) (k : Clock) (h : P s) : P { s with clock := k } := K.free s _ _ k _ _ _ h

theorem portsOf (K : Kept P) (s : State) (u : Vector ControlPort 4) (h : P s) : P { s with ports := u } :=
  K.free s _ _ _ _ _ u h

theorem ports (K : Kept P) {s t : State} (o : OnlyPorts s t) (h : P s) : P t := by
  obtain ⟨_, rfl, _⟩ := o; exact K.portsOf s _ h

theorem frameEvent (K : Kept P) (s : State) (o : FrameOrder) (h : P s) : P (s.frameEvent o) := by
  have tasks : ∀ (l : List FrameTask) (s : State), P s → P (s.frameTasks l) := by
    intro l
    induction l with
    | nil => exact fun s h => h
    | cons k l ih => exact fun s h => ih _ (K.task s k h)
  have hc : P s.clockFrame := by
    unfold State.clockFrame; split
    · exact K.ports (raiseAll_frame _ _) (K.clockOf s _ h)
    · exact K.clockOf s _ h
  unfold State.frameEvent; dsimp only
  apply K.reload
  apply tasks
  apply tasks
  cases o.examineFirst
  · exact K.examine _ (tasks _ _ (K.pass _ _ (tasks _ _ (K.counts _ hc))))
  · exact K.pass _ _ (tasks _ _ (K.examine _ (tasks _ _ (K.counts _ hc))))

theorem execute (K : Kept P) (p : PortNo) (c : Byte) (b : List Byte) (s : State) (h : P s) : P (execute p c b s).1 := by
  unfold Machine.execute
  split; · exact h
  split; · exact h
  split; · exact h
  rename_i r _ hr _
  exact K.request r p b s (by by_contra k; simp at k hr; exact k.2 (hr k.1)) h

theorem handleHead (K : Kept P) (s : State) (p : PortNo) (h : P s) : P (s.handleHead p) := by
  unfold State.handleHead; split
  · exact K.portsOf _ _ (K.execute _ _ _ s h)
  · exact h

theorem acceptFrame (K : Kept P) (s : State) (p : PortNo) (q : Frame) (h : P s) : P (s.acceptFrame p q) := by
  unfold State.acceptFrame; dsimp only; split
  · split
    · exact K.handleHead _ _ (K.portsOf s _ h)
    · exact K.portsOf s _ h
  · split
    · exact K.portsOf s _ h
    · exact K.portsOf s _ h

theorem replyDone (K : Kept P) (s : State) (p : PortNo) (h : P s) : P (s.replyDone p) := by
  unfold State.replyDone; split
  · exact h
  · exact K.handleHead _ _ (K.portsOf s _ h)

theorem receive (K : Kept P) (s : State) (p : PortNo) (b : Byte) (fr : Bool) (h : P s) : P (s.receive p b fr) := by
  unfold State.receive; dsimp only
  split
  · split
    · exact K.portsOf s _ h
    · exact h
  · split; · exact K.portsOf s _ h
    split; · exact K.portsOf s _ h
    split; · exact K.portsOf s _ h
    split; · exact K.portsOf s _ h
    unfold State.frameWhole; dsimp only; split
    · exact K.acceptFrame _ _ _ (K.portsOf s _ h)
    · exact K.portsOf s _ h

theorem lockReference (K : Kept P) (s : State) (h : P s) : P s.lockReference := by
  unfold State.lockReference; dsimp only; split
  · exact K.ports (raiseAll_frame _ _) (K.clockOf s _ h)
  · exact K.clockOf s _ h

theorem expireLate (K : Kept P) (s : State) (h : P s) : P s.expireLate := by
  unfold State.expireLate; dsimp only; split
  · exact K.ports (raiseAll_frame _ _) (K.clockOf s _ h)
  · exact K.clockOf s _ h

theorem judgePulse (K : Kept P) (s : State) (o : FrameOrder) (h : P s) : P (s.judgePulse o) := by
  unfold State.judgePulse State.reloadTimer State.setRun; dsimp only
  split
  · exact K.frameEvent _ _ (K.lockReference _ (K.clockOf s _ h))
  · split
    · exact K.clockOf _ _ (K.lockReference _ (K.clockOf s _ h))
    · split
      · exact K.clockOf s _ h
      · exact K.frameEvent _ _ (K.lockReference _ (K.ports (raiseAll_frame _ _) (K.clockOf s _ h)))

theorem pulse (K : Kept P) (s : State) (o : FrameOrder) (h : P s) : P (s.pulse o) := by
  unfold State.pulse; split
  · exact K.judgePulse _ _ (K.expireLate s h)
  · exact K.judgePulse _ _ h

theorem timed (K : Kept P) (s : State) (o : FrameOrder) (e : TimedEvent) (h : P s) : P (s.takeTimed o e) := by
  cases e <;> simp only [State.takeTimed]
  · exact K.task s (.windowEnd _ _) h
  · exact K.task s (.forcedSwitch _ _) h
  · exact K.task s (.dueMaking _ _) h
  · unfold State.changeSpeed; dsimp only; split
    · split
      · exact K.portsOf s _ h
      · exact h
    · exact h
  · exact K.expireLate s h
  · exact K.slot s _ h
  · unfold State.gapExpired; split
    · exact h
    · exact K.portsOf s _ h
  · unfold State.underflow State.reloadTimer; dsimp only
    exact K.frameEvent _ _ (K.clockOf s _ h)

theorem runTimed (K : Kept P) (s : State) (e : TimedEvent) (o : FrameOrder) (h : P s) : P (s.runTimed e o) := by
  unfold State.runTimed; split
  · split
    · exact K.timed _ _ _ (K.clockOf s _ h)
    · exact h
  · exact h

theorem idle (K : Kept P) (s : State) (h : P s) : P s.idle := by
  unfold State.idle; split
  · exact h
  · split
    · exact K.timed _ _ _ h
    · exact K.clockOf s _ h

theorem settle (K : Kept P) (s : State) (h : P s) : P s.settle := by
  unfold State.settle
  generalize allPieces = l
  induction l generalizing s with
  | nil => exact h
  | cons e l ih => exact ih _ (K.runTimed s e _ h)

theorem readHeader (K : Kept P) (s : State) (b : List Byte) (h : P s) : P (s.readHeader b) := by
  unfold State.readHeader
  induction b generalizing s with
  | nil => exact h
  | cons b l ih => exact ih _ (K.header s b h)

theorem act (K : Kept P) (s t : State) (f : State → State) (hf : ∀ s, P s → P (f s)) (h : P s) (e : s.act f = .next t) : P t := by
  unfold State.act at e
  injection e with e
  subst e
  split
  · exact h
  · exact hf _ (K.settle s h)

theorem actPiece (K : Kept P) (s t : State) (k : TimedEvent) (h : P s) (e : s.actPiece k = .next t) : P t := by
  unfold State.actPiece at e
  injection e with e
  subst e
  split
  · exact h
  · exact K.runTimed s _ _ h

/-- Every command keeps the property. -/
theorem exec (K : Kept P) (c : Instr) (s t : State) (h : P s) (e : Machine.exec c s = .next t) : P t := by
  cases c
  case resetAssert => injection e with e; subst e; exact K.reset _ _
  case resetRelease =>
    injection e with e; subst e
    split
    · exact K.release s _ h
    · exact h
  case imageHeaderRead => unfold Machine.exec execImageHeaderRead at e; exact K.act s t _ (fun s h => K.readHeader s _ h) h e
  case imageReadComplete => exact K.act s t _ (fun s h => K.sections s _ h) h e
  case lineSpeedChange => exact K.actPiece s t _ h e
  case flywheelUnderflow => exact K.act s t _ (fun s h => K.runTimed s _ _ h) h e
  case lateWindowExpiry => unfold Machine.exec execLateWindowExpiry at e; exact K.act s t _ (fun s h => K.runTimed s _ _ h) h e
  case houseReferencePulse => exact K.act s t _ (fun s h => K.pulse s _ h) h e
  case windowEnd => exact K.actPiece s t _ h e
  case forcedSwitch => exact K.actPiece s t _ h e
  case carouselDueMaking => exact K.actPiece s t _ h e
  case packetArrival => exact K.act s t _ (fun s h => K.byte s _ _ h) h e
  case slotEvent => unfold Machine.exec execSlotEvent at e; exact K.act s t _ (fun s h => K.runTimed s _ _ h) h e
  case controlFrame => exact K.act s t _ (fun s h => K.receive s _ _ _ h) h e
  case byteGapExpiry => unfold Machine.exec execByteGapExpiry at e; exact K.act s t _ (fun s h => K.runTimed s _ _ h) h e
  case replySent => exact K.act s t _ (fun s h => K.replyDone s _ h) h e
  case sourcePortByte => exact K.act s t _ (fun s h => K.byte s _ _ h) h e
  case controlPortByte => exact K.act s t _ (fun s h => K.receive s _ _ _ h) h e
  all_goals
    simp only [Machine.exec, execUnknownRequest, execSetTime, execReadTime, execPostEntry, execCancelEntry,
      execClearEntries, execListEntries, execSetPosition, execRelease, execExaminePosition, execSetCueLine,
      execSetSource, execReadSource, execSetScan, execAckFaults, execReadHealth, execEditPlan, execSwapPlan,
      execSetFeedRate, execStartFeed, execStopFeed, execReadPlan, execReadFeed, execLoadTable, execDropTable,
      execSetMask, execReadEvents, execReadOutcomes, execReadPort] at e
    exact K.act s t _ (fun s h => K.acceptFrame s _ _ h) h e

/-- Every step keeps the property. -/
theorem step (K : Kept P) (s t : State) (h : P s) (e : Machine.step s = .next t) : P t := by
  unfold Machine.step at e
  split at e
  · injection e with e; subst e; exact K.idle s h
  · exact K.exec _ _ _ (K.free s _ _ _ _ _ _ h) e

end Kept

end Sys2Proof.Machine
end

