-- ==== Sys2Proof/Tests/Slice0.lean ====
section
/-! SUPPORT. Tests: one step each on a small state, with results taken from the worked sequences of the spec or written out by hand
from its tables; the smoke test of the checks on commands. -/

namespace Sys2Proof.Tests

open Sys2Proof Sys2Proof.Machine

set_option Elab.async false

/-! ### Small states -/

/-- The part as a load that ended DEFAULTED leaves it. -/
def ready : State :=
  { State.reset with
    held := false
    loader := { Loader.reset with state := .defaulted, phase := .ended } }

/-- An enabled, HEALTHY, SYNCED source with these stream identifiers, its clock component 0. -/
def source (comps : Vector (Option Nat) 4) : Source :=
  { Source.reset with
    sync := .synced
    health := .healthy
    table := { SourceEntry.default with enabled := true, comps := comps, clockComp := some 0, fallbackPermit := true } }

/-- Feed 1 RUNNING; sources 0, 4 and 9 in use; position 1.0 on air from source 0, its base, and source 9 its fallback. -/
def studio : State :=
  ((((ready.setFeed 1 { Feed.reset .fps25 with running := true }).setSrc 0 (source #v[some 256, some 257, none, none])).setSrc 4
    (source #v[some 400, some 401, none, none])).setSrc 9 (source #v[some 900, none, none, none])).setPos 1 0
      { Position.reset with
        ids := #v[some 300, some 301, none, none]
        base := some 0
        fallback := some 9
        onAir := some ⟨0, 0⟩ }

/-- A TAKE of source 4 at position 1.0 by port 1, due 12:00:00:00. -/
def take : Entry :=
  { owner := 1, tag := 101, cls := .regional, due := 1080000, feed := 1, position := 0, action := .take, source := 4,
    window := 0, splice := .entry 20, cue := none, seq := 0, cued := false, late := false }

/-- Whether a command answers a state that a test accepts. -/
def gives (o : Host.Outcome State Fault Refusal) (p : State → Bool) : Bool :=
  match o with
  | .next t => p t
  | .fault _ => false
  | .refused _ => false

/-- Whether a command puts a port to sending a reply with this body. -/
def replies (o : Host.Outcome State Fault Refusal) (p : PortNo) (body : List Byte) : Bool :=
  gives o fun t => (t.port p).sending.map (fun r => (r.drop 5).take (r.length - 7)) = some body

/-! ### The smoke test of the checks on commands: each refuses an ill-formed term -/

theorem test_wellFormed_body_length : (Instr.readTime 0 0 (List.replicate 241 0)).wellFormed = false := by decide +kernel

theorem test_wellFormed_image_length : (Instr.imageReadComplete (List.replicate 24577 0)).wellFormed = false := by decide +kernel

theorem test_wellFormed_unknown_code : (Instr.unknownRequest 0 0 0x06 []).wellFormed = false := by decide +kernel

theorem test_wellFormed_unknown_length : (Instr.unknownRequest 0 0 0x7F (List.replicate 241 0)).wellFormed = false := by
  decide +kernel

theorem test_wellFormed_accepts :
    (Instr.readTime 0 0 (List.replicate 240 0)).wellFormed = true ∧
      (Instr.imageReadComplete (List.replicate 24576 0)).wellFormed = true ∧
      (Instr.unknownRequest 0 0 0x7F (List.replicate 240 0)).wellFormed = true := by decide +kernel

/-! ### Check registers and tables of numbers (R148, R166, R115) -/

theorem test_crc16_vector : crc16 [0x31, 0x32, 0x33, 0x34, 0x35, 0x36, 0x37, 0x38, 0x39] = 0x29B1 := by decide +kernel

theorem test_crc32_vector :
    ~~~crc32Feed 0xFFFFFFFF [0x31, 0x32, 0x33, 0x34, 0x35, 0x36, 0x37, 0x38, 0x39] = 0xFC891918 := by decide +kernel

theorem test_capacity : capacityOf 24128000 .fps25 = 641 ∧ capacityOf 24128000 .fps30 = 534 := by decide +kernel

/-! ### The station clock: the two worked sequences of 01 -/

/-- A clock at a tick and a timer, else as reset leaves it. -/
def at25 (tick : Tick) (timer : Nat) : State := { ready with clock := { ready.clock with tick := tick, timer := timer } }

theorem test_pulse_rejected :
    gives (exec (.houseReferencePulse FrameOrder.plain) (at25 400000 680000)) (fun t =>
      t.clock = { ready.clock with tick := 400000, timer := 680000, run := 1 }) = true := by decide +kernel

theorem test_pulse_fourth_is_step :
    gives (exec (.houseReferencePulse FrameOrder.plain)
        { ready with clock := { ready.clock with tick := 3640000, timer := 680000, run := 3, tod := ⟨0, 0, 0, 3⟩ } }) (fun t =>
      t.clock = { ready.clock with
        tick := 3640000, frameStart := 3640000, timer := 1080000, tod := ⟨0, 0, 0, 4⟩, ref := .locked } &&
      allPorts.all fun p => (t.port p).notices = 0x040) = true := by decide +kernel

theorem test_underflow :
    gives (exec (.flywheelUnderflow FrameOrder.plain) ready) (fun t =>
      t.clock = { ready.clock with
        tick := 1080000, frameStart := 1080000, timer := 1080000, tod := ⟨0, 0, 0, 1⟩, late := some 1080000 }) = true := by
  decide +kernel

theorem test_underflow_loads_time :
    gives (exec (.flywheelUnderflow FrameOrder.plain) { ready with clock := { ready.clock with load := some ⟨6, 59, 50, 0⟩ } }) (fun t =>
      t.clock.tod = ⟨6, 59, 50, 0⟩ && t.clock.load = none && allPorts.all fun p => (t.port p).notices = 0x080) = true := by
  decide +kernel

theorem test_late_window_expires :
    gives (exec .lateWindowExpiry
        { ready with clock := { ready.clock with tick := 51080000, timer := 1080000, late := some 51080000, ref := .locked } })
      (fun t => t.clock.tick = 51080271 && t.clock.timer = 1079729 && t.clock.late = none && t.clock.ref = .flywheel &&
        allPorts.all fun p => (t.port p).notices = 0x010) = true := by decide +kernel

theorem test_late_pulse :
    gives (exec (.houseReferencePulse FrameOrder.plain)
        { ready with clock := { ready.clock with
            tick := 53240090, timer := 1079910, late := some 53240000, ref := .flywheel, tod := ⟨10, 15, 0, 3⟩ } })
      (fun t => t.clock.timer = 1080000 && t.clock.late = none && t.clock.ref = .locked && t.clock.tod = ⟨10, 15, 0, 3⟩ &&
        allPorts.all fun p => (t.port p).notices = 0x020) = true := by decide +kernel

/-- The 271st tick closes the window before a pulse of that tick is judged, the fourth of a run: REFERENCE LOST, then the step with
REFERENCE STEP and REFERENCE REGAINED (R6, R7). -/
theorem test_pulse_at_271 :
    gives (exec (.houseReferencePulse FrameOrder.plain)
        { ready with clock := { ready.clock with tick := 1271, timer := 1079729, late := some 1000, frameStart := 1000, ref := .locked, run := 3 } })
      (fun t => t.clock.late = none && t.clock.ref = .locked && t.clock.frameStart = 1271 &&
        allPorts.all fun p => (t.port p).notices = 0x070) = true := by decide +kernel

/-- An idle tick to an underflow leaves the timer at 1 (R4), and a pulse may then be taken first (R5). -/
theorem test_underflow_tick :
    gives (step (at25 1079999 1)) (fun t => t.clock.tick = 1080000 && t.clock.timer = 1 && t.clock.atUnderflow &&
      gives (exec (.houseReferencePulse FrameOrder.plain) t) fun u =>
        u.clock.frameStart = 1080000 && u.clock.timer = 1080000 && !u.clock.atUnderflow && u.clock.late = none) = true := by
  decide +kernel

theorem test_tod_rolls_over :
    (TimeOfDay.advance ⟨23, 59, 59, 24⟩ .fps25, TimeOfDay.advance ⟨23, 59, 59, 24⟩ .fps30) =
      ((⟨0, 0, 0, 0⟩, ⟨23, 59, 59, 25⟩) : TimeOfDay × TimeOfDay) := by decide +kernel

/-! ### Reset, load -/

theorem test_reset_assert :
    gives (exec (.resetAssert true) studio) (fun t =>
      t.held && t.clock.timer = 900000 && (t.feed 1).capacity = 534 && !(t.feed 1).running && t.loader.state = .loading) = true := by
  decide +kernel

theorem test_reset_release :
    gives (exec (.resetRelease false) State.reset) (fun t =>
      !t.held && t.loader.phase = .header && t.clock.timer = 1080000) = true := by decide +kernel

theorem test_header_bounds :
    ([#v[0x04, 0x35], #v[0x04, 0x36], #v[0x60, 0x00], #v[0x60, 0x01]].map fun n : Vector Byte 2 =>
      gives (exec (.imageHeaderRead 1 n #v[1, 2, 3, 4]) { ready with loader := { Loader.reset with phase := .header } }) fun t =>
        t.loader.csLow && t.loader.check = 0x01020304) = [false, true, true, false] := by decide +kernel

/-- A blank memory gives $FF in every byte: the read ends at the format byte (R164). -/
theorem test_header_blank :
    gives (exec (.imageHeaderRead 0xFF #v[0xFF, 0xFF] #v[0xFF, 0xFF, 0xFF, 0xFF])
        { ready with loader := { Loader.reset with phase := .header } }) (fun t =>
      t.loader.state = .defaulted && t.loader.header = [0xFF] && !t.loader.csLow && t.loader.mosiLow) = true := by decide +kernel

theorem test_wrong_check_defaults :
    gives (exec (.imageReadComplete [0x31, 0x32, 0x33, 0x34, 0x35, 0x36, 0x37, 0x38, 0x39])
        { ready with loader := { Loader.reset with phase := .sections, remaining := 9, check := 0xFC891919 } })
      (fun t => t.loader.state = .defaulted) = true := by decide +kernel

/-! ### Transitions and windows (3.10, 4.8) -/

theorem test_window_end :
    gives (exec (.windowEnd 1 0)
        (studio.setPos 1 0 { studio.pos 1 0 with
          upper := [⟨.regional, 4, 1, 120, none, false⟩, ⟨.alert, 0, 3, 950, some 0, false⟩] }))
      (fun t => ((t.pos 1 0).upper.map fun e => e.tag) = [120] && (t.pos 1 0).slot = .seeking 4 25 none &&
        (t.port 3).log = [⟨950, .windowEnd, .none, 1, 0, ⟨0, 0, 0, 0⟩⟩]) = true := by decide +kernel

theorem test_forced_switch :
    gives (exec (.forcedSwitch 1 0)
        (studio.setPos 1 0 { studio.pos 1 0 with slot := .seeking 4 0 (some ⟨1, 140, false⟩) }))
      (fun t => (t.pos 1 0).onAir = some ⟨4, 0⟩ && (t.pos 1 0).slot = .steady && (t.pos 1 0).marks = 0xF &&
        (t.port 1).log = [⟨140, .done, ⟨false, true, false, false, false⟩, 1, 0, ⟨0, 0, 0, 0⟩⟩]) = true := by decide +kernel

theorem test_take_opens_search :
    (fun t : State => decide ((t.pos 1 0).slot = .seeking 4 20 (some ⟨1, 101, false⟩)) && (t.port 1).log = [])
      (studio.fire take) = true := by decide +kernel

theorem test_retarget_keeps_wait :
    (fun t : State => decide ((t.pos 1 0).slot = .seeking 9 14 (some ⟨3, 910, false⟩)) &&
        (t.port 1).log = [⟨140, .done, ⟨false, false, false, false, true⟩, 1, 0, ⟨0, 0, 0, 0⟩⟩])
      ((studio.setPos 1 0 { studio.pos 1 0 with
        upper := [⟨.regional, 4, 1, 140, none, false⟩], slot := .seeking 4 14 (some ⟨1, 140, false⟩) }).fire
          { take with owner := 3, tag := 910, cls := .alert, source := 9, splice := .entry 50 }) = true := by decide +kernel

/-- A slot event after a frame event serves the table that the event has made due, under the reloaded share (R130, R131). -/
theorem test_slot_after_frame_event :
    gives (exec (.flywheelUnderflow FrameOrder.plain) ((studio.setFeed 1 { studio.feed 1 with
        planA := ⟨Vector.replicate 8 0, 1⟩, departure := 1080000
        carousel := tset (studio.feed 1).carousel 3 (some ⟨16, 5, List.replicate 184 0x5A, 1, false⟩) })))
      (fun t => (tget (t.feed 1).carousel 3).map (fun c => (c.countdown, c.due)) = some (0, false) &&
        gives (exec (.slotEvent 1) t) fun u => (u.feed 1).output = [0x47, 0x00, 0x10, 0x00] ++ List.replicate 184 0x5A &&
          (tget (u.feed 1).carousel 3).map (fun c => (c.countdown, c.due)) = some (5, false)) = true := by decide +kernel

/-! ### The carousel and the slot clock (8.6, 9.5, 9.9) -/

theorem test_due_making :
    gives (exec (.carouselDueMaking 1 3)
        (studio.setFeed 1 { studio.feed 1 with
          carousel := tset (studio.feed 1).carousel 3 (some ⟨16, 5, List.replicate 184 0, 0, true⟩) }))
      (fun t => (tget (t.feed 1).carousel 3).map (fun c => (c.countdown, c.due)) = some (5, true) &&
        (t.feed 1).counts.late = 1) = true := by decide +kernel

theorem test_slot_42 :
    gives (exec (.slotEvent 1)
        ((at25 69003 680000).setFeed 1 { Feed.reset .fps25 with running := true, departure := 69003, remainder := 23616000 }))
      (fun t => (t.feed 1).departure = 70687 && (t.feed 1).remainder = 64000 && (t.feed 1).output = nullPacket &&
        (t.feed 1).counts.null = 1) = true := by decide +kernel

/-- The restamp across the tick wrap of 9.9, with the stale packet ahead of it. -/
theorem test_restamp :
    gives (exec (.slotEvent 1)
        ((({ studio with clock := { studio.clock with tick := 40224 } }.setFeed 1
          { studio.feed 1 with departure := 40224, shares := #v[1, 0, 0, 0, 0, 0, 0, 0] }).setSrc 0
            { studio.src 0 with
              ring := [⟨0, 1099484000000, false, false, 256, 8, none, List.replicate 184 0⟩,
                ⟨0, 1099511600000, true, false, 256, 9, some 1099511590000, List.replicate 179 0⟩] }).setPos 1 0
                  { studio.pos 1 0 with onAir := some ⟨0, 2⟩, marks := 0xF }))
      (fun t => (t.feed 1).output = [0x47, 0xE1, 0x2C, 0x00] ++ [0x00, 0x00, 0x00, 0x76, 0x10] ++
          List.replicate 179 0 && (t.src 0).staleTotal = 1 && (t.feed 1).counts.stale = 1 && (t.pos 1 0).marks = 0xE) = true := by
  decide +kernel

/-! ### Source ports (6.6, 6.7) and health (7.8) -/

/-- A packet of identifier 256 with count 12 where 11 was due: stored, and a continuity error. -/
theorem test_continuity_error :
    gives (exec (.packetArrival 6 0x55)
        ((at25 5000 680000).setSrc 6 { source #v[some 256, some 257, some 258, none] with
          cont := #v[some 10, some 4, none, none]
          bytes := [0x47, 0x01, 0x00, 0x0C] ++ List.replicate 183 0x55 }))
      (fun t => (t.src 6).ring = [⟨0, 5000, false, false, 256, 12, none, List.replicate 184 0x55⟩] && (t.src 6).e = 1 &&
        (t.src 6).contTotal = 1 && tget (t.src 6).cont 0 = some 12) = true := by decide +kernel

/-- An input null packet is discarded. -/
theorem test_null_input_discarded :
    gives (exec (.packetArrival 6 0xFF)
        (ready.setSrc 6 { source #v[some 256, some 257, some 258, none] with
          bytes := [0x47, 0x1F, 0xFF, 0x10] ++ List.replicate 183 0xFF }))
      (fun t => (t.src 6).ring = [] && (t.src 6).n = 0) = true := by decide +kernel

/-- Byte 188 after a candidate is not a sync byte: the hunt resumes at the next one. -/
theorem test_hunt_resumes :
    gives (exec (.sourcePortByte 6 0xA3)
        (ready.setSrc 6 { Source.reset with
          bytes := [0x47] ++ List.replicate 55 0 ++ [0x47] ++ List.replicate 131 0, goodRun := 1 }))
      (fun t => (t.src 6).sync = .hunting && (t.src 6).bytes = [0x47] ++ List.replicate 131 0 ++ [0xA3] &&
        (t.src 6).goodRun = 1) = true := by decide +kernel

theorem test_third_bad_sync_byte :
    gives (exec (.sourcePortByte 6 0x46)
        (ready.setSrc 6 { source #v[some 256, none, none, none] with cont := #v[some 1, none, none, none], badRun := 2 }))
      (fun t => (t.src 6).sync = .hunting && tget (t.src 6).cont 0 = none && (t.src 6).syncBad) = true := by decide +kernel

/-- The source of 7.8 at an examination, with these interval counts and runs. -/
def judged (n e bad good : Nat) (health : Health) : State :=
  { (ready.setSrc 9 { source #v[some 900, none, none, none] with
      table := { SourceEntry.default with
        enabled := true, comps := #v[some 900, none, none, none], checks := ⟨false, true, true, false⟩, low := 300, high := 700,
        tolerance := 2, faultThreshold := 3, recoveryThreshold := 2, noticePermit := true }
      n := n, e := e, k := 16, badCount := bad, goodCount := good, health := health }) with scan := ⟨0, 15, 9⟩ }

theorem test_third_bad_verdict :
    (fun t : State => decide ((t.src 9).health = .faulted) && (t.src 9).badCount = 3 && t.scan.pointer = 10 &&
        (t.src 9).latched = ⟨⟨false, false, true, false⟩, some ⟨0, 0, 0, 0⟩, 1, true⟩ &&
        allPorts.all fun p => (t.port p).notices = 0x004)
      (judged 0 0 2 0 .suspect).examine = true := by decide +kernel

theorem test_recovery :
    (fun t : State => decide ((t.src 9).health = .healthy) && (t.src 9).goodCount = 2 &&
        allPorts.all fun p => (t.port p).notices = 0x008)
      (judged 8100 2 0 1 .faulted).examine = true ∧
    ((judged 11900 1 0 1 .faulted).examine.src 9).verdict = some ⟨⟨0, 0, 0, 0⟩, true, ⟨false, false, true, false⟩⟩ := by
  decide +kernel

/-! ### Control ports (10.9, R149 to R153) -/

/-- The frame $C3 00 02 09 06 30 FE: READ TIME with sequence 9. -/
theorem test_frame_read_time :
    gives (execAll ([0xC3, 0x00, 0x02, 0x09, 0x06, 0x30].map fun b => Instr.controlPortByte 0 b false) ready) (fun t =>
      replies (exec (.controlFrame 0 0xFE) t) 0
        [0x00, 0, 0, 0, 0, 0, 0, 0, 0, 0, 0, 25, 0, 0, 0, 0, 0, 1]) = true := by decide +kernel

theorem test_wrong_check_counted :
    gives (exec (.controlFrame 0 0xFF) (ready.setPort 0 { ready.port 0 with rx := .receiving [0, 2, 9, 6, 0x30] 0 })) (fun t =>
      (t.port 0).rx = .waiting && (t.port 0).badFrames = 1 && (t.port 0).replies = []) = true := by decide +kernel

theorem test_framing_error :
    gives (exec (.controlPortByte 0 0x02 true) (ready.setPort 0 { ready.port 0 with rx := .receiving [0] 0 })) (fun t =>
      (t.port 0).rx = .waiting && (t.port 0).badFrames = 1) = true := by decide +kernel

theorem test_byte_gap :
    gives (exec (.byteGapExpiry 0)
        ((at25 2000000 1080000).setPort 0 { ready.port 0 with rx := .receiving [0] 1000000 })) (fun t =>
      t.clock.tick = 2350001 && t.clock.timer = 729999 && (t.port 0).badFrames = 1) = true := by decide +kernel

theorem test_line_speed :
    gives (exec (.lineSpeedChange 2) (ready.setPort 2 { ready.port 2 with pendingSpeed := some .high })) (fun t =>
      (t.port 2).speed = .high && (t.port 2).pendingSpeed = none) = true := by decide +kernel

/-- A port that is quiet is at its new speed when the next command comes (R147). -/
theorem test_line_speed_first :
    gives (exec (.controlPortByte 2 0xC3 false) (ready.setPort 2 { ready.port 2 with pendingSpeed := some .high })) (fun t =>
      (t.port 2).speed = .high && (t.port 2).rx ≠ .waiting) = true := by decide +kernel

/-- Four requests wait behind the one answered: the next is owed BUSY. -/
theorem test_fifth_is_busy :
    gives (exec (.readHealth 2 15 [11]) (ready.setPort 2 { ready.port 2 with
      replies := [.answering []] ++ ([11, 12, 13, 14].map fun n : Byte => Item.waiting ⟨n, 0x26, [6]⟩) }))
      (fun t => (t.port 2).replies.length = 6 && (t.port 2).replies.getLast? = some (.busyOwed 15 0x26)) = true := by
  decide +kernel

theorem test_reply_sent_carries_out_next :
    gives (exec (.replySent 2) (ready.setPort 2 { ready.port 2 with
      replies := [.answering [], .waiting ⟨12, 0x02, []⟩, .busyOwed 15 0x26], notices := 0x004 }))
      (fun t => (t.port 2).notices = 0 && (t.port 2).replies.length = 2 &&
        (t.port 2).replies.getLast? = some (.busyOwed 15 0x26)) = true := by decide +kernel

theorem test_unknown_request :
    gives (exec (.unknownRequest 0 7 0x7F []) ready) (fun t =>
      ((t.port 0).sending.map fun r => r.take 6) = some [0xC3, 0x00, 0x03, 0x07, 0xFF, 0x02]) = true := by decide +kernel

theorem test_malformed : replies (exec (.setTime 0 0 [1, 2, 3]) ready) 0 [0x03] = true := by decide +kernel

theorem test_not_ready :
    replies (exec (.readTime 0 0 []) { ready with loader := Loader.reset }) 0 [0x06] = true := by decide +kernel

/-! ### Requests -/

theorem test_set_time : replies (exec (.setTime 0 0 [23, 59, 59, 24]) ready) 0 [0x00] = true := by decide +kernel

theorem test_set_time_range : replies (exec (.setTime 0 0 [23, 59, 59, 25]) ready) 0 [0x04] = true := by decide +kernel

theorem test_set_mask : replies (exec (.setMask 0 0 [0x00, 0x03, 0x02, 0x01])
    (ready.setPort 0 { ready.port 0 with mask := 0x007, notices := 0x004 })) 0 [0x00, 0x02, 0x05, 0x00, 0x04] = true := by
  decide +kernel

theorem test_read_events : replies (exec (.readEvents 3 0 [])
    (ready.setPort 3 { ready.port 3 with mask := 0x200, notices := 0x30C })) 3 [0x00, 0x03, 0x0C, 0x02, 0x00] = true := by
  decide +kernel

theorem test_read_outcomes : replies (exec (.readOutcomes 3 0 [])
    (ready.setPort 3 { ready.port 3 with
      log := [⟨950, .failed .stackFull, ⟨true, false, true, false, false⟩, 4, 2, ⟨14, 11, 0, 3⟩⟩] })) 3
    [0x00, 1, 0x03, 0xB6, 1, 1, 0x05, 4, 2, 14, 11, 0, 3] = true := by decide +kernel

theorem test_read_port : replies (exec (.readPort 1 0 []) ready) 1
    [0x00, 1, 2, 0, 0xFF, 1, 0, 0, 0, 16, 0, 0, 0, 0, 0] = true := by decide +kernel

/-- Tag 101, REGIONAL, due 1,080,000 = $107AC0, position 1.0, TAKE of source 4, window 7500 = $001D4C, ENTRY 20, cue line 2, PULSE,
lead 250. -/
theorem test_post_entry :
    replies (exec (.postEntry 0 0 [0x00, 0x65, 1, 0x10, 0x7A, 0xC0, 1, 0, 0, 4, 0x00, 0x1D, 0x4C, 20, 2, 0, 250]) ready) 0
      [0x00, 0, 0, 0, 0] = true ∧
    gives (exec (.postEntry 0 0 [0x00, 0x65, 1, 0x10, 0x7A, 0xC0, 1, 0, 0, 4, 0x00, 0x1D, 0x4C, 20, 2, 0, 250]) ready) (fun t =>
      t.list.entries = [{ take with owner := 0, window := 7500, cue := some ⟨2, .pulse, 250⟩ }]) = true := by decide +kernel

/-- At 00:00:00:00 a due time 49 frames back is late, and one 50 frames back is past. -/
theorem test_post_late_and_past :
    replies (exec (.postEntry 0 0 ([0, 1, 1] ++ natBytes 3 2159951 ++ [1, 0, 0, 4, 0, 0, 0, 20, 0xFF, 0, 0])) ready) 0
      [0x00, 1, 0, 0, 0] = true ∧
    replies (exec (.postEntry 0 0 ([0, 1, 1] ++ natBytes 3 2159950 ++ [1, 0, 0, 4, 0, 0, 0, 20, 0xFF, 0, 0])) ready) 0
      [0x09] = true := by decide +kernel

/-- A list with the TAKE in it. -/
def listed : State := { ready with list := { ready.list with entries := [take] } }

theorem test_cancel_entry :
    replies (exec (.cancelEntry 1 0 [0, 101]) listed) 1 [0x00] = true ∧
      replies (exec (.cancelEntry 0 0 [0, 101]) listed) 0 [0x0A] = true := by decide +kernel

theorem test_clear_entries : replies (exec (.clearEntries 1 0 []) listed) 1 [0x00, 1] = true := by decide +kernel

theorem test_list_entries : replies (exec (.listEntries 0 0 [0]) listed) 0
    ([0x00, 0, 0, 0, 0, 1, 48, 0, 1] ++
      [1, 0x00, 0x65, 1, 0x10, 0x7A, 0xC0, 1, 0, 0, 4, 0, 0, 0, 20, 0xFF, 0, 0, 0, 0, 0]) = true := by decide +kernel

theorem test_set_position :
    gives (exec (.setPosition 0 0 [2, 5, 0x0F, 0x01, 0x01, 0xFF, 0xFF, 0x01, 0x02, 0xFF, 0xFF, 4, 0xFF, 25]) ready) (fun t =>
      t.pos 2 5 = { Position.reset with ids := #v[some 257, none, some 258, none], base := some 4 }) = true := by decide +kernel

theorem test_release :
    replies (exec (.release 1 0 [0, 101])
      (studio.setPos 1 0 { studio.pos 1 0 with upper := [⟨.regional, 4, 1, 101, none, false⟩], onAir := some ⟨4, 0⟩ })) 1
      [0x00, 1, 0, 1] = true := by decide +kernel

theorem test_examine_position : replies (exec (.examinePosition 0 0 [1, 0]) studio) 0
    ([0x00, 1, 0x01, 0x2C, 0x01, 0x2D, 0xFF, 0xFF, 0xFF, 0xFF, 0, 9, 25, 1] ++ [0, 0, 0xFF, 0, 0, 0xFF, 0xFF, 0xFF, 0] ++
      List.replicate 27 0 ++ [0, 1, 0, 0, 0xFF, 0, 0xFF, 0, 0, 0, 0, 0]) = true := by decide +kernel

theorem test_set_cue_line : replies (exec (.setCueLine 0 0 [6, 0x05, 1, 0, 1, 0, 0]) studio) 0
    [0x00, 1, 0, 0, 1, 0, 0, 1, 0xFF, 0, 0xFF, 0xFF, 0xFF, 0xFF] = true := by decide +kernel

theorem test_set_source :
    gives (exec (.setSource 0 0 [9, 0x05, 0x06, 0x03, 0x84, 0xFF, 0xFF, 0xFF, 0xFF, 0xFF, 0xFF, 0, 25, 0, 0x01, 0x2C, 0x02, 0xBC, 2, 3,
        2]) ready) (fun t =>
      (t.src 9).health = .healthy && (t.src 9).table = ⟨true, #v[some 900, none, none, none], some 0, 25,
        ⟨false, true, true, false⟩, .band, 300, 700, 2, 3, 2, false, true⟩) = true := by decide +kernel

theorem test_read_source : replies (exec (.readSource 0 0 [9]) ready) 0
    ([0x00, 0, 0, 0xFF, 0xFF, 0xFF, 0xFF, 0xFF, 0xFF, 0xFF, 0xFF, 0xFF, 25, 0, 0, 0, 0x0F, 0xFF, 0, 3, 3] ++
      [0, 0, 0, 0, 0, 1, 0, 0, 0, 0, 0, 0, 0, 3, 0, 0, 0, 0, 0, 0, 0, 1, 0, 0xFF, 0xFF, 0xFF, 0xFF, 0, 0]) = true := by
  decide +kernel

theorem test_set_scan :
    gives (exec (.setScan 0 0 [3, 7]) ready) (fun t => t.scan = ⟨3, 7, 3⟩) = true ∧
      replies (exec (.setScan 0 0 [7, 3]) ready) 0 [0x04] = true := by decide +kernel

theorem test_ack_faults : replies (exec (.ackFaults 0 0 [0xFF, 0xFF])
    (ready.setSrc 9 { Source.reset with latched := ⟨⟨false, false, true, false⟩, some ⟨9, 0, 2, 7⟩, 1, true⟩ })) 0
    [0x00, 0x02, 0x00] = true := by decide +kernel

theorem test_read_health : replies (exec (.readHealth 0 0 [0]) ready) 0
    ([0x00, 0, 0, 0, 0, 0, 15, 0] ++ (List.replicate 16 [3, 0]).flatten ++
      [3, 0, 0, 0, 0, 0, 0, 0, 1, 0xFF, 0xFF, 0xFF, 0xFF, 0xFF, 0, 0, 0xFF, 0xFF, 0xFF, 0xFF, 0, 0]) = true := by decide +kernel

theorem test_edit_plan : replies (exec (.editPlan 0 0 ([1, 0, 0x01, 0x03, 0x02, 0x80, 0x00, 0x01] ++ List.replicate 12 0 ++ [5])) ready) 0
    [0x00, 0x02, 0x86, 0x02, 0x81, 1] = true := by decide +kernel

theorem test_swap_plan :
    replies (exec (.swapPlan 0 0 [1]) ready) 0 [0x00] = true ∧
      replies (exec (.swapPlan 0 0 [1])
        (ready.setFeed 1 { Feed.reset .fps25 with planB := ⟨#v[640, 2, 0, 0, 0, 0, 0, 0], 0⟩ })) 0 [0x0B] = true := by
  decide +kernel

theorem test_set_feed_rate : replies (exec (.setFeedRate 0 0 [1, 0x01, 0x70, 0x2A, 0x00]) ready) 0 [0x00, 0x02, 0x81] = true := by
  decide +kernel

theorem test_start_feed :
    replies (exec (.startFeed 0 0 [1]) ready) 0 [0x00] = true ∧ replies (exec (.startFeed 0 0 [1]) studio) 0 [0x0D] = true := by
  decide +kernel

theorem test_stop_feed :
    gives (exec (.stopFeed 0 0 [1]) studio) (fun t => !(t.feed 1).running && (t.pos 1 0).onAir = none) = true ∧
      replies (exec (.stopFeed 0 0 [1]) ready) 0 [0x0D] = true := by decide +kernel

theorem test_read_plan : replies (exec (.readPlan 0 0 [1]) ready) 0 (List.replicate 41 0 ++ [0x02, 0x81]) = true := by
  decide +kernel

theorem test_read_feed : replies (exec (.readFeed 0 0 [1]) studio) 0
    ([0x00, 1, 0, 0x01, 0x70, 0x2A, 0x00, 0x02, 0x81, 0, 0, 0, 0, 0xFF, 0xFF, 0xFF, 0xFF] ++ List.replicate 34 0) = true := by
  decide +kernel

/-- The tick count at the tick of an underflow that is not yet taken (R126). -/
theorem test_read_feed_at_underflow :
    replies (exec (.readFeed 0 0 [1]) { studio with clock := { studio.clock with tick := 5, timer := 1, atUnderflow := true } }) 0
      ([0x00, 1, 0, 0x01, 0x70, 0x2A, 0x00, 0x02, 0x81, 0, 0, 0, 0, 0xFF, 0xFF, 0xFF, 0xFF] ++ List.replicate 13 0 ++ [5] ++
        List.replicate 20 0) = true := by decide +kernel

theorem test_load_table :
    gives (exec (.loadTable 0 0 ([1, 3, 0x00, 0x10, 5] ++ List.replicate 184 0x5A)) ready) (fun t =>
      tget (t.feed 1).carousel 3 = some ⟨16, 5, List.replicate 184 0x5A, 5, true⟩) = true ∧
    replies (exec (.loadTable 0 0 ([1, 3, 0x01, 0x2C, 5] ++ List.replicate 184 0x5A)) studio) 0 [0x0E] = true := by decide +kernel

theorem test_drop_table :
    gives (exec (.dropTable 0 0 [1, 3]) (ready.setFeed 1 { Feed.reset .fps25 with
      carousel := tset (Vector.replicate 16 none) 3 (some ⟨16, 5, [], 5, true⟩) })) (fun t =>
        tget (t.feed 1).carousel 3 = none) = true := by decide +kernel

end Sys2Proof.Tests
end

