-- ==== Sys2Proof/Tests/Witnesses.lean ====
section
/-! SUPPORT. For each statement that has hypotheses, a concrete state and operands that meet them all together, clause by clause at
the bounds of their ranges. -/

namespace Sys2Proof.Tests

open Sys2Proof Sys2Proof.Machine

set_option Elab.async false

/-! ### Reset and the configuration load -/

theorem witness_ResetReleaseStartsLoading : State.reset.held = true := rfl

theorem witness_HeldPartIgnoresCommands :
    State.reset.held = true ∧ State.reset.pending = [] ∧ (∀ b, Instr.lateWindowExpiry ≠ .resetAssert b) ∧
      ∀ b, Instr.lateWindowExpiry ≠ .resetRelease b := ⟨rfl, rfl, by decide, by decide⟩

/-- The loader at its header. -/
def heading : State := { ready with loader := { Loader.reset with phase := .header } }

theorem witness_ImageHeaderJudged :
    heading.held = false ∧ heading.calm = true ∧ heading.loader.phase = .header ∧ heading.loader.header = [] ∧
      ([(#v[0x04, 0x36], 1078), (#v[0x60, 0x00], 24576), (#v[0x04, 0x35], 1077), (#v[0x60, 0x01], 24577)].all
        fun (x : Vector Byte 2 × Nat) => decide ((tget x.1 0).toNat * 256 + (tget x.1 1).toNat = x.2)) = true ∧
      (0 : Byte) ≠ 1 := by decide +kernel

/-- The section bytes of an image of the least length that has a table: 1,952 bytes. -/
def imageBytes : List Byte :=
  [1, 4, 0, 32, 2, 0x3F, 0xFF, 1, 32, 0, 0, 0] ++ (List.replicate 3 [1, 0, 0, 0, 0xFF, 1, 0, 0]).flatten ++
  [2, 16, 2, 0] ++ ([1, 0, 0x01, 0x00] ++ List.replicate 6 0xFF ++ [0, 25, 0, 0, 0, 0x0F, 0xFF, 0, 3, 3] ++ List.replicate 12 0) ++
  (List.replicate 15 ([0, 0] ++ List.replicate 9 0xFF ++ [25, 0, 0, 0, 0x0F, 0xFF, 0, 3, 3] ++ List.replicate 12 0)).flatten ++
  [3, 1, 0, 4, 2, 15, 0, 0] ++
  [4, 48, 3, 0] ++ ([0x01, 0x2C] ++ List.replicate 6 0xFF ++ [0, 0xFF, 25, 0, 0, 0, 0, 0]) ++
  (List.replicate 47 (List.replicate 10 0xFF ++ [0, 0, 0, 0, 0, 0])).flatten ++
  [5, 6, 1, 128] ++ (List.replicate 6 ([0x01, 0x70, 0x2A, 0x00, 1, 0, 0x02, 0x81] ++ List.replicate 56 0)).flatten ++
  [6, 1, 0, 192, 0, 15, 0, 16, 250] ++ List.replicate 187 0 ++
  [7, 8, 0, 32] ++ (List.replicate 8 [0, 0, 0, 0]).flatten

/-- What the image is. -/
def imageRead : Image where
  ports := [⟨.master, 32, .low⟩, ⟨.guest, 16, .high⟩, ⟨.guest, 16, .high⟩, ⟨.guest, 16, .high⟩]
  sources := { SourceEntry.default with enabled := true, comps := #v[some 256, none, none, none], clockComp := some 0 } ::
    List.replicate 15 .default
  scan := ⟨2, 15, 2⟩
  positions := ⟨#v[some 300, none, none, none], some 0, none, .entry 25⟩ ::
    List.replicate 47 ⟨#v[none, none, none, none], none, none, .immediate⟩
  feeds := List.replicate 6 ⟨24128000, true, false, ⟨#v[641, 0, 0, 0, 0, 0, 0, 0], 0⟩, .zero⟩
  carousel := [⟨0, 15, 16, 250, List.replicate 184 0⟩]
  lines := List.replicate 8 ⟨.cue, 0, 0, 0⟩

theorem image_read : imageOf imageBytes = some imageRead := by decide +kernel

theorem image_passes : imageRead.passes .fps25 = true := by decide +kernel

/-- The loader at its sections, with this many bytes to come and this check. -/
def reading (remaining : Nat) (check : BitVec 32) : State :=
  { heading with loader := { Loader.reset with phase := .sections, remaining := remaining, check := check } }

theorem untouched : ∀ i, (heading.src i).table.enabled = false ∧ (heading.src i).health = .disabled := by decide +kernel

theorem no_image : imageOf [] = none := by decide +kernel

theorem heading_calm : heading.calm = true := by decide +kernel

theorem reading_state (n : Nat) (check : BitVec 32) :
    (reading n check).awake ∧ (reading n check).loader.phase = .sections ∧ (reading n check).loader.store = [] ∧
      (reading n check).loader.crc = 0xFFFFFFFF ∧ (reading n check).loader.remaining = n ∧
      check = (reading n check).loader.check ∧ (reading n check).clock.rate = .fps25 ∧
      ∀ i, ((reading n check).src i).table.enabled = false ∧ ((reading n check).src i).health = .disabled :=
  ⟨⟨rfl, heading_calm⟩, rfl, rfl, rfl, rfl, rfl, rfl, untouched⟩

theorem witness_SectionsJudged_failing (check : BitVec 32) :
    ¬(~~~crc32Feed 0xFFFFFFFF [] = check ∧ ∃ m, imageOf [] = some m ∧ m.passes .fps25 = true) := by
  rintro ⟨_, m, h, _⟩
  rw [no_image] at h
  cases h

theorem witness_SectionsJudged_passing :
    ∃ check, ~~~crc32Feed 0xFFFFFFFF imageBytes = check ∧ ∃ m, imageOf imageBytes = some m ∧ m.passes .fps25 = true :=
  ⟨_, rfl, _, image_read, image_passes⟩

theorem witness_PassedImageApplied :
    ∃ s : State, s.awake ∧ s.loader.phase = .sections ∧ s.loader.store = [] ∧ s.loader.crc = 0xFFFFFFFF ∧
      s.loader.remaining = imageBytes.length ∧ ~~~crc32Feed 0xFFFFFFFF imageBytes = s.loader.check ∧
      imageOf imageBytes = some imageRead ∧ imageRead.passes s.clock.rate = true ∧
      ∀ i, (s.src i).table.enabled = false ∧ (s.src i).health = .disabled := by
  generalize ~~~crc32Feed 0xFFFFFFFF imageBytes = check
  generalize imageBytes.length = n
  obtain ⟨h1, h2, h3, h4, h5, h6, h7, h8⟩ := reading_state n check
  exact ⟨reading n check, h1, h2, h3, h4, h5, h6, image_read, h7 ▸ image_passes, h8⟩

theorem witness_PassedImageApplied_slots :
    (∀ r, r ∈ imageRead.carousel → ¬(r.feed = 0 ∧ r.slot = 14)) ∧ (reading 0 0).LoadSound := by
  refine ⟨by decide +kernel, fun _ => ?_⟩
  decide +kernel

/-! ### The station clock -/

/-- A part at a frame event: with a time load pending or not, one whose underflow stands to be taken at this tick, and a list of
entries of which one is late, one due, one at its cue and one past the load. -/
def framing (load : Option TimeOfDay) (at1 : Bool) : State :=
  { studio.setFeed 1 { studio.feed 1 with departure := 1 } with
    clock := { studio.clock with load := load, timer := 1, atUnderflow := at1 }
    list := { studio.list with entries := [{ take with late := true }, { take with tag := 1, due := 1 },
      { take with tag := 2, due := 200, action := .cue, cue := some ⟨3, .pulse, 250⟩ }, { take with tag := 3, due := 1500000 }] } }

theorem witness_UnderflowMakesFrameEvent :
    ∀ load ∈ [none, some ⟨6, 59, 50, 0⟩], ∀ at1 ∈ [false, true],
      (framing load at1).held = false ∧ (framing load at1).calm = true ∧
        (framing load at1).soonest (framing load at1).clock.untilUnderflow = true := by decide +kernel

theorem witness_FiringFrame :
    (framing none false).clock.load = none ∧ (framing none false).list.entries.length = 4 ∧
      (∀ f, ((framing none false).feed f).startPending = false) ∧ ∀ f, ((framing none false).feed f).swapPending = false := by
  decide +kernel

/-- A frame event at which feed 0 starts and feed 1 swaps, with nothing to fire and a disabled source to visit. -/
theorem witness_FrameEvent_start :
    let s := { framing none false with list := { studio.list with entries := [] }, scan := ⟨15, 15, 15⟩ }
    let s := (s.setFeed 0 { s.feed 0 with startPending := true }).setFeed 1 { s.feed 1 with swapPending := true }
    s.held = false ∧ s.calm = true ∧ s.soonest s.clock.untilUnderflow = true ∧ s.list.entries = [] ∧
      (s.src s.scan.pointer).table.enabled = false ∧ (s.feed 0).startPending = true ∧
      (∀ p, (s.pos 0 p).upper = []) ∧ (∀ c, tget (s.feed 0).carousel c = none) ∧ (s.feed 1).swapPending = true ∧
      (s.feed 1).lastSwap.map Prod.fst ≠ some (s.clock.tick + BitVec.ofNat 40 s.clock.untilUnderflow) := by decide +kernel

/-- The clauses of a frame event that have premises of their own: an entry that fires, stays, is discarded, has its cue; a swap and a
start pending; a table; a window and a wait that go on. -/
theorem witness_ListFrame :
    ({ take with late := true } : Entry).firesAt false 1 2160000 = true ∧
      ({ take with due := 1 } : Entry).firesAt false 1 2160000 = true ∧ take.staysAt false 1 2160000 = true ∧
      take.firesAt true 0 2160000 = false ∧ ({ take with due := 1080001 } : Entry).staysAt true 0 2160000 = false ∧
      ({ take with due := 2159950 } : Entry).firesAt true 0 2160000 = false ∧
      ({ take with due := 2159951 } : Entry).firesAt true 0 2160000 = true := by decide +kernel

/-- Clocks at the bounds of the early window and of the late one. -/
theorem witness_PulseMakesFrameEvent :
    ready.held = false ∧ ready.calm = true ∧ (at25 0 270).clock.timer ≤ 270 ∧ (at25 0 270).clock.late = none ∧
      (let s := { ready with clock := { ready.clock with tick := 1271, timer := 271, run := 3, ref := .flywheel } }
       270 < s.clock.timer ∧ s.clock.run = 3 ∧ s.clock.late = none ∧ s.clock.ref = .flywheel) ∧
      (let s := { ready with clock := { ready.clock with tick := 1271, timer := 271, run := 2 } }
       270 < s.clock.timer ∧ s.clock.run < 3 ∧ s.clock.late = none) ∧
      (let s := { ready with clock := { ready.clock with tick := 1271, timer := 1079729, late := some 1000 } }
       s.clock.late = some (s.clock.tick - 271)) := by decide +kernel

/-- A clock with the late window open since tick 1000. -/
def lateAt (tick : Tick) (ref : RefState) : State :=
  { ready with clock := { ready.clock with tick := tick, timer := 271, late := some 1000, ref := ref } }

theorem witness_LateWindowCloses (ref : RefState) :
    ((lateAt 1000 ref).held = false ∧ (lateAt 1000 ref).calm = true ∧ (lateAt 1000 ref).clock.late = some 1000 ∧ 270 < (lateAt 1000 ref).clock.timer ∧
      ((lateAt 1000 ref).clock.tick - 1000).toNat ≤ 270 ∧
      (lateAt 1000 ref).soonest (1000 + 271 - (lateAt 1000 ref).clock.tick).toNat = true) ∧
    (lateAt 1270 ref).clock.late = some 1000 ∧ ((lateAt 1270 ref).clock.tick - 1000).toNat ≤ 270 := by
  cases ref <;> decide +kernel

theorem witness_IdleStepPassesOneTick : ready.held = false ∧ ready.pending = [] ∧ ready.soonest 1 = true := by decide +kernel

/-! ### What a frame event makes due, and outcomes -/

/-- A stack entry of a class, with a window. -/
def selection (cls : SelClass) (tag : Tag) (window : Option Nat) : StackEntry := ⟨cls, 4, 1, tag, window, false⟩

/-- Position 1.0 with a stack. -/
def stacked (upper : List StackEntry) : State := studio.setPos 1 0 { studio.pos 1 0 with upper := upper }

theorem witness_WindowEndRemovesEntry :
    (let s := stacked [selection .network 1 none, selection .regional 2 (some 0), selection .alert 3 (some 7)]
     s.held = false ∧
      (s.pos 1 0).upper = [selection .network 1 none] ++ selection .regional 2 (some 0) :: [selection .alert 3 (some 7)] ∧
      (selection .regional 2 (some 0)).window = some 0 ∧
      ∀ x, x ∈ [selection .network 1 none] ∨ x ∈ [selection .alert 3 (some 7)] → x.window ≠ some 0) ∧
    let s := (stacked [selection .regional 2 (some 0)]).setFeed 1 (.reset .fps25)
    s.held = false ∧ (s.pos 1 0).upper = [] ++ selection .regional 2 (some 0) :: [] ∧ (s.feed 1).running = false ∧
      (studio.feed 1).running = true := by
  refine ⟨⟨rfl, by decide +kernel, rfl, ?_⟩, rfl, by decide +kernel, by decide +kernel, by decide +kernel⟩
  intro x h
  simp only [List.mem_singleton] at h
  rcases h with rfl | rfl <;> decide

/-- Two windows of one stack that end together. -/
theorem witness_WindowEndRemovesEntry_several :
    let s := stacked [selection .network 1 (some 0), selection .regional 2 (some 0), selection .alert 3 (some 7)]
    s.held = false ∧ (s.feed 1).running = true ∧
      ((s.pos 1 0).upper.filter fun e => e.window = some 0).map StackEntry.tag = [1, 2] := by decide +kernel

/-- Position 1.0 searching for source 4. -/
def seeking (wait : Nat) (o : Option Owner) : State :=
  studio.setPos 1 0 { studio.pos 1 0 with base := some 4, slot := .seeking 4 wait o }

theorem witness_ForcedSwitchMovesCursor :
    ∀ o ∈ [none, some ⟨1, 140, true⟩], (seeking 0 o).held = false ∧ ((seeking 0 o).pos 1 0).slot = .seeking 4 0 o := by
  decide +kernel

/-- Feed 1 with a table in carousel slot 3. -/
def carouselled (t : Table) : State := studio.setFeed 1 { studio.feed 1 with carousel := tset (studio.feed 1).carousel 3 (some t) }

theorem witness_DueMakingReloadsCountdown :
    ∀ due ∈ [false, true], let s := carouselled ⟨16, 5, List.replicate 184 0, 0, due⟩
      s.held = false ∧ (s.feed 1).running = true ∧ tget (s.feed 1).carousel 3 = some ⟨16, 5, List.replicate 184 0, 0, due⟩ := by
  decide +kernel

theorem witness_StackFrame :
    let s := { stacked [selection .network 1 (some 2), selection .alert 3 none] with scan := ⟨0, 15, 5⟩ }
    s.list.entries = [] ∧ (s.src s.scan.pointer).table.enabled = false ∧ (s.feed 1).startPending = false ∧
      (∀ y ∈ (s.pos 1 0).upper, y.window ≠ some 0 ∧ y.window ≠ some 1) ∧ ((seeking 2 none).pos 1 0).slot = .seeking 4 2 none := by
  decide +kernel

theorem witness_FeedFrame :
    (let x : Feed := { studio.feed 1 with swapPending := true }
     x.lastSwap.map Prod.fst ≠ some 1080000 ∧ x.swapPending = true ∧ x.startPending = false ∧ x.running = true) ∧
    (let x : Feed := { Feed.reset .fps25 with startPending := true }
     x.startPending = true ∧ ∀ c, tget x.carousel c = none) ∧
    (∀ n ∈ [0, 1, 2, 250], ((carouselled ⟨16, 5, [], n, false⟩).feed 1).running = true) := by decide +kernel

/-- Port 1 with a log of a length. -/
def logged (n : Nat) : State :=
  ready.setPort 1 { ready.port 1 with log := List.replicate n ⟨1, .done, .none, 0, 0, ⟨0, 0, 0, 0⟩⟩ }


theorem witness_OutcomeLogKeepsNewestSixteen : ∀ n ∈ [0, 15, 16], ((logged n).port 1).log.length ≤ 16 := by decide +kernel

theorem witness_EntriesFire :
    take.action = .take ∧
    (let s := stacked [selection .network 1 none, selection .regional 2 none, selection .alert 3 none]
     3 ≤ (s.pos 1 0).upper.length) ∧
    (let s := stacked [selection .regional 1 none, selection .alert 2 none]
     (s.pos take.feed take.position).upper = [selection .regional 1 none] ++ [selection .alert 2 none] ∧
      [selection .regional 1 none].length + [selection .alert 2 none].length < 3 ∧
      (∀ x, x ∈ [selection .regional 1 none] → x.cls.rank ≤ take.cls.rank) ∧
      (∀ x, x ∈ [selection .alert 2 none] → take.cls.rank < x.cls.rank) ∧
      (selection .regional 1 none).owner = take.owner ∧ (selection .regional 1 none).cls = take.cls ∧
      ∀ z, z ∈ [selection .alert 2 none] → ¬(z.owner = take.owner ∧ z.cls = take.cls)) ∧
    (studio.pos take.feed take.position).upper = [] ++ [] ∧
    (∀ x ∈ [(false, 641), (true, 641), (false, 642)],
      let y : Feed := { studio.feed 1 with swapPending := x.1, planB := ⟨#v[x.2, 0, 0, 0, 0, 0, 0, 0], 0⟩ }
      y.lastSwap.map Prod.fst ≠ some studio.clock.frameStart ∧ y.capacity = 641 ∧ y.shadow.total = x.2) ∧
    (∀ k ∈ [CueKind.pulse, .toggle], let e := { take with due := 250, cue := some ⟨3, k, 250⟩ }
      e.cued = false ∧ (e.due + studio.day - studio.now % studio.day) % studio.day = 250) := by decide +kernel

theorem witness_ChangeTaken :
    (studio.pos 1 0).slot = .steady ∧ (seeking 14 none |>.pos 1 0).slot = .seeking 4 14 none ∧
    ((tget (studio.src 4).table.comps 0).isSome ∧ (tget (studio.pos 1 0).ids 0).isSome ∧ some 4 ≠ (studio.pos 1 0).onAirSource) ∧
    ((tget ((seeking 14 none).src 9).table.comps 0).isSome ∧ (tget ((seeking 14 none).pos 1 0).ids 0).isSome ∧
      some 9 ≠ ((seeking 14 none).pos 1 0).onAirSource) ∧
    none ≠ (studio.pos 1 0).onAirSource ∧ none ≠ ((seeking 14 none).pos 1 0).onAirSource ∧
    tget (studio.src 5).table.comps 0 = none ∧ some 5 ≠ (studio.pos 1 0).onAirSource ∧
    some 0 = (studio.pos 1 0).onAirSource ∧ some 0 = ((seeking 14 none).pos 1 0).onAirSource := by decide +kernel

/-- The scan at a source in a state of health. -/
def scanned (i : SrcNo) (health : Health) : State :=
  { (studio.setSrc i { studio.src i with health := health }) with scan := ⟨0, 9, i⟩ }

theorem witness_SourceExamined :
    (ready.src ready.scan.pointer).table.enabled = false ∧
      (∀ i ∈ [(0 : SrcNo), 9], ∀ h ∈ [Health.healthy, .suspect, .faulted],
        ((scanned i h).src (scanned i h).scan.pointer).table.enabled = true ∧
          ((scanned i h).src (scanned i h).scan.pointer).health = h) ∧
      (∀ n ∈ [0, 8099, 8100, 11880, 11881], let x := (judged n 2 0 1 .faulted).src 9
        (x.causes.rate = true ↔ x.table.checks.rate = true ∧
          ((x.table.rateMode ≠ .ceiling ∧ x.n < x.table.low * x.k) ∨
            (x.table.rateMode ≠ .floor ∧ x.table.high * x.k < x.n)))) := by decide +kernel

/-! ### Source ports and rings -/

/-- Two packets' spacing of bytes from a sync byte to a third. -/
def spaced : List Byte := [0x47] ++ List.replicate 187 0 ++ [0x47] ++ List.replicate 187 0 ++ [0x47]

theorem witness_HuntFindsSync :
    ready.held = false ∧ ready.calm = true ∧ (ready.src 6).sync = .hunting ∧ (ready.src 6).bytes = [] ∧ spaced.length = 377 ∧
      spaced[0]? = some 0x47 ∧ spaced[188]? = some 0x47 ∧ spaced[376]? = some 0x47 := by decide +kernel

/-- A candidate of 188 bytes with a $47 at its 101st. -/
def hunted : List Byte := [0x47] ++ List.replicate 99 0 ++ [0x47] ++ List.replicate 87 0

/-- A byte that is no $47 where one is due: the hunt goes on from the $47 at the 101st byte. -/
theorem witness_HuntFindsSync_abandoned :
    hunted.length ≤ 376 ∧ (hunted ++ [0]).drop 100 <:+ hunted ++ [0] ∧ holdsSync ((hunted ++ [0]).drop 100) ∧
      ∀ r, r <:+ hunted ++ [0] → holdsSync r → r.length ≤ ((hunted ++ [0]).drop 100).length := by
  refine ⟨by decide +kernel, List.drop_suffix _ _, by unfold holdsSync; decide +kernel, fun r h => ?_⟩
  have k : ∀ r ∈ (hunted ++ [0]).tails, holdsSync r → r.length ≤ ((hunted ++ [0]).drop 100).length := by
    unfold holdsSync; decide +kernel
  exact k r ((List.mem_tails _ _).2 h)

/-- Source 6 SYNCED, with these bytes of a packet taken and this bad-sync run. -/
def midPacket (bytes : List Byte) (bad : Nat) : State :=
  ready.setSrc 6 { source #v[some 256, none, none, none] with bytes := bytes, badRun := bad }

theorem witness_SyncedPortTakesByte :
    (∀ bad ∈ [0, 1, 2], (midPacket [] bad).held = false ∧ (midPacket [] bad).calm = true ∧ ((midPacket [] bad).src 6).sync = .synced ∧
      ((midPacket [] bad).src 6).bytes = [] ∧ ((midPacket [] bad).src 6).badRun = bad) ∧
    (0x46 : Byte) ≠ 0x47 ∧
    (∀ n ∈ [0, 185], 1 ≤ ((midPacket (0x47 :: List.replicate n 0) 0).src 6).bytes.length ∧
      ((midPacket (0x47 :: List.replicate n 0) 0).src 6).bytes.length ≤ 186) ∧
    ((midPacket (0x46 :: List.replicate 186 0) 0).src 6).bytes.length = 187 ∧
    ((midPacket (0x46 :: List.replicate 186 0) 0).src 6).bytes[0]? ≠ some 0x47 ∧
    (let x := (midPacket (0x47 :: List.replicate 186 0) 0).src 6
     x.bytes.length = 187 ∧ x.bytes[0]? = some 0x47 ∧
      ∀ c, tget x.table.comps c ≠ some ((byteAt x.bytes 1).toNat % 32 * 256 + (byteAt x.bytes 2).toNat)) := by decide +kernel

theorem witness_PacketBytesReadBack : 0 < 8192 ∧ 8191 < 8192 := by decide

/-- A packet of identifier 256 with the entry flag and a clock sample, but for its last byte. -/
def arriving : List Byte := (packetBytes 256 true false 9 (some 7) (List.replicate 179 0x55)).take 187

theorem arriving_packet : arriving ++ [0x55] = packetBytes 256 true false 9 (some 7) (List.replicate 179 0x55) := by decide +kernel

theorem witness_ArrivedPacketStored :
    ∀ ring ∈ [[], List.replicate 512 (packetOf (packetBytes 256 false false 1 none []) 0 3)],
      let s := ready.setSrc 6 { source #v[some 256, none, none, none] with bytes := arriving, ring := ring }
      s.held = false ∧ s.calm = true ∧ (s.src 6).sync = .synced ∧ (s.src 6).bytes = arriving ∧ arriving.length = 187 ∧ 256 < 8192 ∧
        (s.src 6).table.enabled = true ∧ tget (s.src 6).table.comps 0 = some 256 ∧
        (∀ d, d < (0 : CompNo) → tget (s.src 6).table.comps d ≠ some 256) ∧ ∀ f p, (s.pos f p).clearOf 6 := by
  unfold Position.clearOf
  decide +kernel

/-- A packet whose byte 3 carries bits 7 to 4. -/
theorem witness_ArrivedPacketStored_strayBits :
    let b := (arriving.getD 3 0) ||| 0xF0
    (midPacket arriving 0).calm = true ∧ ((midPacket arriving 0).src 6).bytes =
        arriving.getD 0 0 :: arriving.getD 1 0 :: arriving.getD 2 0 :: arriving.getD 3 0 :: arriving.drop 4 ∧
      (arriving.drop 4).length = 183 ∧ (arriving.getD 3 0).toNat % 16 = b.toNat % 16 ∧ b ≠ arriving.getD 3 0 := by decide +kernel

/-- A packet that matches no component, and a null packet. -/
theorem witness_ArrivedPacketStored_discarded :
    (midPacket arriving 0).held = false ∧ (midPacket arriving 0).calm = true ∧ ((midPacket arriving 0).src 6).sync = .synced ∧
      ((midPacket arriving 0).src 6).bytes = arriving ∧ arriving.length = 187 ∧
      (∀ c, tget (source #v[some 257, none, none, none]).table.comps c ≠ some 256) ∧
      (nullPacket.take 187 ++ [0xFF] = nullPacket ∧
        ∀ c, ∀ n ∈ tget ((midPacket (nullPacket.take 187) 0).src 6).table.comps c, n ≤ 8190) := by decide +kernel

/-- Source 0 at the last byte of a packet, with position 1.0 searching for it from source 4. -/
def entering : State :=
  (studio.setSrc 0 { studio.src 0 with bytes := arriving }).setPos 1 0
    { studio.pos 1 0 with onAir := some ⟨4, 0⟩, slot := .seeking 0 3 (some ⟨1, 140, false⟩) }

theorem witness_EntryPointEndsSearch :
    entering.held = false ∧ entering.calm = true ∧ (entering.src 0).sync = .synced ∧ (entering.src 0).bytes.length = 187 ∧
      (entering.src 0).bytes = arriving ∧ (entering.src 0).table.enabled = true ∧
      tget (entering.src 0).table.comps 0 = some 256 ∧ (entering.pos 1 0).slot = .seeking 0 3 (some ⟨1, 140, false⟩) ∧
      (entering.pos 1 0).onAirSource ≠ some 0 ∧ (tget (entering.pos 1 0).ids 0).isSome ∧
      ∀ g q, (g, q) ≠ ((1, 0) : FeedNo × PosNo) → (entering.pos g q).clearOf 0 := by
  unfold Position.clearOf
  decide +kernel

/-- A packet that is no entry point for the search, as its position carries no component 0; the last of a full ring. -/
theorem witness_EntryPointEndsSearch_passedOver :
    ∀ ring ∈ [[], List.replicate 512 (packetOf (packetBytes 256 false false 1 none []) 0 3)],
      let s := (entering.setSrc 0 { entering.src 0 with ring := ring }).setPos 1 0
        { entering.pos 1 0 with ids := #v[none, some 301, none, none] }
      s.held = false ∧ s.calm = true ∧ (s.src 0).sync = .synced ∧ (s.src 0).bytes = arriving ∧ (s.src 0).bytes.length = 187 ∧
        (s.src 0).table.enabled = true ∧ tget (s.src 0).table.comps 0 = some 256 ∧
        (∀ d, d < (0 : CompNo) → tget (s.src 0).table.comps d ≠ some 256) ∧ (s.pos 1 0).slot.target = some 0 ∧
        (∀ f p, (s.pos f p).onAirSource ≠ some 0 ∧ ((s.pos f p).slot.target = some 0 → tget (s.pos f p).ids 0 = none)) := by
  decide +kernel

/-- Two positions that seek the source and a third whose on-air cursor reads its full ring, at the oldest packet. -/
theorem witness_EntryPointEndsSearch_shared :
    let s := ((entering.setSrc 0 { entering.src 0 with
        ring := List.replicate 512 (packetOf (packetBytes 256 false false 1 none []) 0 3) }).setPos 1 1
      { entering.pos 1 0 with slot := .seeking 0 50 none }).setPos 2 7 { entering.pos 1 0 with slot := .steady, onAir := some ⟨0, 512⟩ }
    s.held = false ∧ s.calm = true ∧ (s.src 0).bytes = arriving ∧ tget (s.src 0).table.comps 0 = some 256 ∧
      s.foundAt 0 (packetOf (arriving ++ [0x55]) 0 s.clock.tick) = [(1, 0), (1, 1)] ∧ s.pushedAt 0 = [(2, 7)] ∧
      ∀ p ∈ ([0, 1] : List PosNo), (s.pos 1 p).slot.target = some 0 ∧ (s.pos 1 p).onAirSource ≠ some 0 ∧
        (packetOf (arriving ++ [0x55]) 0 0).entry = true ∧ tget (s.pos 1 p).ids 0 ≠ none := by decide +kernel

/-- Source 0 at the last byte of a packet, with a ring of a length and position 1.0 that carries every component behind by a lag. -/
def lagging (held lag : Nat) : State :=
  (studio.setSrc 0 { studio.src 0 with
    bytes := arriving, ring := List.replicate held (packetOf (packetBytes 256 false false 1 none []) 0 3) }).setPos 1 0
      { studio.pos 1 0 with ids := #v[some 300, some 301, some 302, some 303], onAir := some ⟨0, lag⟩ }

theorem witness_CursorsMeetArrival :
    (∀ x ∈ [(0, 0), (511, 511), (512, 512)], let s := lagging x.1 x.2
      s.held = false ∧ s.calm = true ∧ (s.src 0).sync = .synced ∧ (s.src 0).bytes = arriving ∧ (s.src 0).bytes.length = 187 ∧
        (s.src 0).table.enabled = true ∧ tget (s.src 0).table.comps 0 = some 256 ∧
        (∀ d, d < (0 : CompNo) → tget (s.src 0).table.comps d ≠ some 256) ∧ (s.pos 1 0).onAir = some ⟨0, x.2⟩ ∧
        (s.pos 1 0).slot.target ≠ some 0 ∧ (s.src 0).ring.length = x.1 ∧ ∀ d, (s.pos 1 0).carries d = true) ∧
    ((lagging 512 512).port 0).authority.feedMap.getLsbD 1 = true ∧
    (let s := (lagging 512 512).setPos 1 0 { (lagging 512 512).pos 1 0 with ids := #v[none, some 301, none, none] }
     (s.pos 1 0).onAir = some ⟨0, 512⟩ ∧ (s.pos 1 0).carries 0 = false) ∧
    (lagging 512 511).src 0 = (lagging 512 512).src 0 ∧ ((lagging 512 511).pos 1 0).onAir = some ⟨0, 511⟩ ∧
    (Slot.seeking 4 3 none).target ≠ some 0 := by decide +kernel

/-! ### Slot events -/

theorem witness_SlotEventMovesSlotClock :
    studio.held = false ∧ studio.calm = true ∧ (studio.feed 1).running = true ∧ (studio.feed 1).departure = studio.clock.tick ∧
      (∃ p, (studio.pos 1 p).onAir ≠ none) ∧ (∀ p, (studio.pos 1 p).onAirSource ≠ some 15) := by decide +kernel

theorem witness_TableOrNullSent :
    (let s := (carouselled ⟨8190, 5, List.replicate 184 0, 5, true⟩)
     let s := s.setFeed 1 { s.feed 1 with carouselShare := 1 }
     s.held = false ∧ s.calm = true ∧ (s.feed 1).running = true ∧ (s.feed 1).departure = s.clock.tick ∧ 1 ≤ (s.feed 1).carouselShare ∧
      tget (s.feed 1).carousel 3 = some ⟨8190, 5, List.replicate 184 0, 5, true⟩ ∧
      ∀ d, d < (3 : TableNo) → tget (s.feed 1).carousel d = none) ∧
    (let s := ready.setFeed 1 { Feed.reset .fps25 with running := true }
     s.held = false ∧ s.calm = true ∧ (s.feed 1).running = true ∧ (s.feed 1).departure = s.clock.tick ∧ (s.feed 1).carouselShare = 0 ∧
      ∀ p, (s.pos 1 p).onAir = none) ∧
    (let s := (carouselled ⟨16, 5, [], 5, false⟩)
     let s := (s.setFeed 1 { s.feed 1 with carouselShare := 1 }).setPos 1 0 .reset
     (s.feed 1).departure = s.clock.tick ∧
      (∀ c, (tget (s.feed 1).carousel c).all (fun x => !x.due) = true) ∧ ∀ p, (s.pos 1 p).onAir = none) := by decide +kernel

/-- Position 1.0 behind a stale packet and one at the bound of the stale limit, with another after them, and with a share; position 1.1
behind the stale one alone, its cursor at it. -/
def serving (share : Nat) : State :=
  ((({ studio with clock := { studio.clock with tick := 27000001 } }.setFeed 1
    { studio.feed 1 with departure := 27000001, shares := #v[share, share, 0, 0, 0, 0, 0, 0], sharePtr := 0, sparePtr := 0 }).setSrc 0
      { studio.src 0 with
        ring := [packetOf (packetBytes 256 false false 8 none (List.replicate 184 0)) 0 0,
          packetOf (packetBytes 256 true false 9 (some 7) (List.replicate 179 0)) 0 1,
          packetOf (packetBytes 257 false false 1 none (List.replicate 184 0)) 1 5] }).setPos 1 0
            { studio.pos 1 0 with onAir := some ⟨0, 3⟩ }).setPos 1 1
              { studio.pos 1 1 with ids := #v[none, none, some 310, none], onAir := some ⟨0, 3⟩ }

/-- A slot with cursors attached and no fresh packet. -/
theorem witness_TableOrNullSent_stale :
    let s := { (serving 1).setFeed 1 { (serving 1).feed 1 with departure := 540000000 } with
      clock := { (serving 1).clock with tick := 540000000 } }
    s.held = false ∧ s.calm = true ∧ (s.feed 1).running = true ∧ (s.feed 1).departure = s.clock.tick ∧ (s.feed 1).carouselShare = 0 ∧
      (∀ p, s.leftAt 1 p = []) ∧ s.staleAt 1 0 = 3 ∧ ∃ p, (s.pos 1 p).onAir ≠ none := by decide +kernel

theorem witness_FreshPacketSent :
    ∀ share ∈ [0, 1], let s := serving share
      let k := packetOf (packetBytes 256 true false 9 (some 7) (List.replicate 179 0)) 0 1
      let rest := [packetOf (packetBytes 257 false false 1 none (List.replicate 184 0)) 1 5]
      let left := s.leftAt 1
      s.held = false ∧ s.calm = true ∧ (s.feed 1).running = true ∧ (s.feed 1).departure = s.clock.tick ∧ (s.feed 1).carouselShare = 0 ∧
        (s.pos 1 0).onAir = some ⟨0, 3⟩ ∧ left 0 = k :: rest ∧ tget (s.pos 1 0).ids k.comp = some 300 ∧
        ((1 ≤ tget (s.feed 1).shares 0 ∧ 0 = (s.feed 1).sharePtr + 1 + 7 ∧
            ∀ m, m < 7 → tget (s.feed 1).shares ((s.feed 1).sharePtr + 1 + m) = 0 ∨ left ((s.feed 1).sharePtr + 1 + m) = []) ∨
          ((∀ q, tget (s.feed 1).shares q = 0 ∨ left q = []) ∧ 0 = (s.feed 1).sparePtr + 1 + 7 ∧
            ∀ m, m < 7 → left ((s.feed 1).sparePtr + 1 + m) = [])) := by decide +kernel

/-! ### Control ports -/

/-- Port 2 with a reply list. -/
def listing (list : List Item) : State := ready.setPort 2 { ready.port 2 with replies := list }

/-- A reply being sent, with numbers of waiting requests and BUSY owed behind it. -/
def queue (waiting busy : Nat) : List Item :=
  [.answering []] ++ List.replicate waiting (.waiting ⟨1, 0x06, []⟩) ++ List.replicate busy (.busyOwed 2 0x06)

theorem witness_ReplyListServedInOrder :
    (∀ x ∈ [(3, 0), (4, 0), (4, 3), (4, 4)], let s := listing (queue x.1 x.2)
      s.held = false ∧ s.calm = true ∧ (s.port 2).replies = queue x.1 x.2 ∧ queue x.1 x.2 ≠ [] ∧
        (queue x.1 x.2).countP Item.isWaiting = x.1 ∧ (queue x.1 x.2).countP Item.isBusy = x.2) ∧
    (∃ r, Instr.readTime 2 3 [] = .ofRequest r 2 3 [] ∧ (0x06 : Byte) = reqCode r) ∧
    (∀ q, ([] : List Item).head? ≠ some (.waiting q)) ∧
    queue 1 0 = .answering [] :: .waiting ⟨1, reqCode .readTime, []⟩ :: [] ∧ (ready.port 2).replies = [] ∧
    ∀ code : Byte, ((listing [.busyOwed 2 code]).port 2).replies = .busyOwed 2 code :: [] :=
  ⟨by decide +kernel, ⟨.readTime, rfl, rfl⟩, by simp, rfl, by decide +kernel, fun _ => rfl⟩

/-- The port of a waiting request, with its list emptied. -/
theorem witness_ReplyListServedInOrder_alone : (listing []).awake := by
  unfold State.awake
  decide +kernel

theorem witness_FrameBytesAreTheRequest :
    ready.held = false ∧ ready.calm = true ∧ (ready.port 0).rx = .waiting ∧ ([] : List Byte).length ≤ 240 ∧
      frameBytes 9 0x06 [] = [0xC3, 0x00, 0x02, 0x09, 0x06, 0x30] ++ [0xFE] ∧ (0x06 : Byte) = reqCode .readTime ∧
      (List.replicate 240 (0 : Byte)).length ≤ 240 := by decide +kernel

/-- Port 2 RECEIVING, with these bytes since the start byte. -/
def receiving (bytes : List Byte) : State := ready.setPort 2 { ready.port 2 with rx := .receiving bytes 0 }

/-- The longest frame's bytes up to its check. -/
def longest : List Byte := [0, 242] ++ List.replicate 242 0

set_option maxRecDepth 100000 in
theorem witness_ReceiverJudgesBytes :
    (receiving []).held = false ∧ (receiving []).calm = true ∧ (ready.port 2).rx = .waiting ∧ ((receiving []).port 2).rx = .receiving [] 0 ∧
      ((receiving [0]).port 2).rx = .receiving [0] 0 ∧
      ((0 : Byte).toNat * 256 + (1 : Byte).toNat < 2 ∨ 242 < (0 : Byte).toNat * 256 + (1 : Byte).toNat) ∧
      ((0 : Byte).toNat * 256 + (243 : Byte).toNat < 2 ∨ 242 < (0 : Byte).toNat * 256 + (243 : Byte).toNat) ∧
      (4 ≤ [0, 2, 9, 6].length ∧ [0, 2, 9, 6].length ≤ 244 ∧ natAt [0, 2, 9, 6] 0 2 + 2 = [0, 2, 9, 6].length ∧
        (crc16 [0, 2, 9, 6]).toNat = (0x30 : Byte).toNat * 256 + (0xFE : Byte).toNat ∧
        (crc16 [0, 2, 9, 6]).toNat ≠ (0x30 : Byte).toNat * 256 + (0xFF : Byte).toNat) ∧
      (4 ≤ longest.length ∧ longest.length ≤ 244 ∧ natAt longest 0 2 + 2 = longest.length ∧
        (crc16 longest).toNat = (0xB4 : Byte).toNat * 256 + (0xC4 : Byte).toNat ∧
        (crc16 longest).toNat ≠ (0 : Byte).toNat * 256 + (0 : Byte).toNat) ∧
      (let s := (receiving [0, 2, 9, 6, 0x30]).setPort 2 { (receiving [0, 2, 9, 6, 0x30]).port 2 with replies := queue 3 0 }
       (s.port 2).rx = .receiving ([0, 2, 9, 6] ++ [0x30]) 0 ∧ (s.port 2).replies ≠ [] ∧
        (s.port 2).replies.countP Item.isWaiting < 4) := by decide +kernel

/-- The bytes that are only collected: the first length byte, a good second one at the bounds, and those up to the first check byte. -/
theorem witness_ReceiverJudgesBytes_collected :
    (2 ≤ (0 : Byte).toNat * 256 + (2 : Byte).toNat ∧ (0 : Byte).toNat * 256 + (242 : Byte).toNat ≤ 242) ∧
      (∀ bytes ∈ ([[0, 2], [0, 2, 9, 6]] : List (List Byte)),
        2 ≤ bytes.length ∧ 2 ≤ natAt bytes 0 2 ∧ natAt bytes 0 2 ≤ 242 ∧ bytes.length < natAt bytes 0 2 + 3) ∧
      ∀ x ∈ [(3, 0), (4, 0), (4, 3), (4, 4)],
        let s := (receiving [0, 2, 9, 6, 0x30]).setPort 2 { (receiving [0, 2, 9, 6, 0x30]).port 2 with replies := queue x.1 x.2 }
        s.calm = true ∧ (s.port 2).replies ≠ [] ∧ (s.port 2).replies.countP Item.isWaiting = x.1 ∧
          (s.port 2).replies.countP Item.isBusy = x.2 := by decide +kernel

theorem witness_PortTimersExpire :
    (let s := { receiving [0] with clock := { ready.clock with tick := 1000000 } }
     s.held = false ∧ s.calm = true ∧ (s.port 2).rx = .receiving [0] 0 ∧ s.soonest (0 + 1350001 - s.clock.tick).toNat = true) ∧
    let s := ready.setPort 2 { ready.port 2 with pendingSpeed := some .high }
    s.held = false ∧ (s.port 2).pendingSpeed = some .high ∧ (s.port 2).rx = .waiting ∧ (s.port 2).replies = [] := by
  decide +kernel

theorem witness_ChecksBeforeRequest :
    ready.held = false ∧ ready.calm = true ∧ (ready.port 2).replies = [] ∧ (∀ code ∈ ([0x00, 0x7F, 0x80, 0xFF] : List Byte), ∀ r ∈ allRequests,
      code ≠ reqCode r) ∧ heading.held = false ∧ heading.calm = true ∧ (heading.port 2).replies = [] ∧ heading.loader.state = .loading ∧
      Request.readTime ≠ .readPort ∧ ready.loader.state ≠ .loading ∧ [(0 : Byte)].length ≠ reqLength .readTime ∧
      ([] : List Byte).length ≠ reqLength .setTime := by decide +kernel

/-! ### Requests -/

/-- The premise of every statement about a request on an empty list (`TimeRequestsAnswered`, `ReadEventsEmptiesPendingSet`,
`ClearEntriesRemovesOwn`, `ReadsAnswered` and the others). -/
theorem witness_serves : ∀ p, ready.serves p ∧ studio.serves p := by
  unfold State.serves State.awake
  decide +kernel

theorem witness_SetMaskDisablesThenEnables :
    (1024 ≤ (1024 : BitVec 16).toNat ∨ 1024 ≤ (0 : BitVec 16).toNat) ∧ (1023 : BitVec 16).toNat < 1024 := by decide

theorem witness_OutcomesAndPortRead :
    ready.held = false ∧ ready.calm = true ∧ (ready.port 1).replies = [] ∧ ready.loader.state ≠ .loading ∧ heading.held = false ∧ heading.calm = true ∧
      (heading.port 1).replies = [] := by decide +kernel

/-- An entry at the bounds of what a body spells. -/
def spelt : Entry :=
  { take with due := 16777215, window := 16777215, splice := .entry 255, cue := some ⟨7, .toggle, 255⟩, owner := 0 }

theorem witness_PostEntryAnswered :
    (take.owner = 1 ∧ take.spelled) ∧ spelt.owner = 0 ∧ spelt.spelled ∧
      ({ spelt with action := .cue, position := 0, splice := .immediate, source := 0, window := 0 } : Entry).spelled := by
  refine ⟨⟨rfl, ?_⟩, rfl, ?_, ?_⟩ <;>
    refine ⟨by decide, by decide, ?_, ?_, by decide, by decide, by decide⟩ <;>
    intro x h <;> cases h <;> decide

/-- Bodies of POST ENTRY that no entry spells, each a byte of a body at the first value out of its range. -/
theorem witness_PostEntryAnswered_bodies :
    let a := (ready.port 0).authority
    take.posted.length = 17 ∧ a.feedMap.getLsbD 6 = false ∧ a.classMax.rank < 3 ∧ a.cueMap.getLsbD 8 = false ∧
      (let body := take.posted.set 7 8
       a.feedMap.getLsbD (byteAt body 6).toNat = true ∧ (byteAt body 2).toNat ≤ a.classMax.rank ∧ (byteAt body 14).toNat = 255 ∧
        (byteAt body 8).toNat ≤ 2 ∧ 7 < (byteAt body 7).toNat) ∧
      (∀ x ∈ ([(8, 5), (13, 51), (9, 16), (10, 16), (5, 255)] : List (Nat × Byte)), let body := take.posted.set x.1 x.2
        4 < (byteAt body 8).toNat ∨ 50 < (byteAt body 13).toNat ∨ 15 < (byteAt body 9).toNat ∨ 1048575 < natAt body 10 3 ∨
          (byteAt body 5).toNat = 255) ∧
      (1 < (2 : Byte).toNat ∧ 250 < (251 : Byte).toNat) ∧
      (let e := { take with action := .plan, position := 0, source := 0, window := 0, splice := .immediate }
       let body := (e.posted.set 7 8).set 13 51
       ∀ k, k < 17 → (k = 7 ∨ k = 13 → e.action.stacked = true) → byteAt body k = byteAt e.posted k) := by decide +kernel

theorem witness_EntriesCancelledAndListed :
    (let s := { ready with list := { ready.list with entries := [{ take with owner := 0 }, take] } }
     s.list.entries = [{ take with owner := 0 }] ++ take :: [] ∧ take.owner = 1 ∧ take.tag = 101 ∧
      ∀ x, x ∈ [{ take with owner := 0 }] → ¬(x.owner = 1 ∧ x.tag = 101)) ∧
    ∀ x, x ∈ ready.list.entries → ¬(x.owner = 1 ∧ x.tag = 101) := by decide +kernel

theorem witness_SetPositionApplied :
    (let ids : Vector (Option Nat) 4 := #v[some 1, some 8190, none, none]
     (∀ c, ∀ n ∈ tget ids c, 1 ≤ n ∧ n ≤ 8190) ∧ (∀ w ∈ [1, 50], Splice.entry w = .entry w ∧ 1 ≤ w ∧ w ≤ 50) ∧
      (studio.port 1).authority.configure = false ∧ (studio.port 0).authority.configure = true ∧
      (studio.port 0).authority.feedMap.getLsbD 1 = true ∧ 7 < (8 : Byte).toNat ∧ (7 : PosNo).val = (7 : Byte).toNat ∧
      (studio.feed 1).running = true ∧ (studio.feed 0).running = false ∧
      (present ids).Nodup ∧ (∀ n ∈ present ids, n ∉ studio.feedIds 1 (some 7) none)) ∧
    (¬(present #v[some 5, some 5, none, none]).Nodup ∧ ∃ n ∈ present #v[some 300, none, none, none], n ∈ studio.feedIds 1 (some 7) none) ∧
    (ready.pos 0 7).onAir = none := by decide +kernel

/-- A body of SET POSITION with these flags and one byte changed. -/
def settingBody (flags : Byte) (k : Nat) (b : Byte) : List Byte :=
  ([1, 7, flags] ++ idsBytes #v[some 1, some 8190, none, none] ++ [255, 15, 50]).set k b

theorem witness_SetPositionApplied_bodies :
    (studio.port 0).authority.configure = true ∧ (studio.port 0).authority.feedMap.getLsbD (1 : Byte).toNat = true ∧
      (studio.port 1).authority.configure = false ∧ (studio.port 0).authority.feedMap.getLsbD (6 : Byte).toNat = false ∧
      (settingBody 15 0 1).length = 14 ∧ 7 < (byteAt (settingBody 0 1 8) 1).toNat ∧ 15 < (byteAt (settingBody 0 2 16) 2).toNat ∧
      (1 : Byte).getLsbD 0 = true ∧ natAt (settingBody 1 4 0) 3 2 = 0 ∧ natAt (settingBody 1 6 255) 5 2 = 8191 ∧
      (2 : Byte).getLsbD 1 = true ∧ 15 < (byteAt (settingBody 2 11 16) 11).toNat ∧ (4 : Byte).getLsbD 2 = true ∧
      15 < (byteAt (settingBody 4 12 254) 12).toNat ∧ (8 : Byte).getLsbD 3 = true ∧ 50 < (byteAt (settingBody 8 13 51) 13).toNat ∧
      ∀ k, k < 14 → (3 ≤ k → k ≤ 10 → (byteAt (settingBody 8 4 0) 2).getLsbD 0 = true) →
        byteAt (settingBody 8 4 1) k = byteAt (settingBody 8 4 0) k := by decide +kernel

theorem witness_ReleaseRemovesEntry :
    (∀ f k, (studio.pos f k).upper = []) ∧
    let s := stacked [selection .network 1 none, selection .regional 101 none, selection .alert 3 none]
    (s.pos 1 0).upper = [selection .network 1 none] ++ selection .regional 101 none :: [selection .alert 3 none] ∧
      (selection .regional 101 none).owner = 1 ∧ (selection .regional 101 none).tag = 101 ∧
      (∀ y, y ∈ [selection .network 1 none] → ¬(y.owner = 1 ∧ y.tag = 101)) ∧
      ∀ g q, (g, q) ≠ ((1, 0) : FeedNo × PosNo) → (s.pos g q).upper = [] := by decide +kernel

theorem witness_PositionExamined :
    (studio.port 1).authority.feedMap.getLsbD (1 : Byte).toNat = false ∧ (studio.port 0).authority.feedMap.getLsbD (6 : Byte).toNat = false ∧ (studio.port 0).authority.feedMap.getLsbD 1 = true ∧
      7 < (8 : Byte).toNat ∧ (7 : PosNo).val = (7 : Byte).toNat ∧ (0 : PosNo).val = (0 : Byte).toNat := by decide +kernel

theorem witness_CueLineSet :
    (studio.port 0).authority.cueMap.getLsbD (8 : Byte).toNat = false ∧
      (studio.port 1).authority.cueMap.getLsbD (7 : Byte).toNat = false ∧ (7 : LineNo).val = (7 : Byte).toNat ∧
      (studio.port 0).authority.cueMap.getLsbD 7 = true ∧ (7 : Byte).toNat ≤ 7 ∧ 8 ≤ (8 : Byte).toNat ∧
      ((1 : Byte).getLsbD 0 = true ∧ 1 < (2 : Byte).toNat) ∧ ((2 : Byte).getLsbD 1 = true ∧ 1 < (2 : Byte).toNat) ∧
      (4 : Byte).getLsbD 2 = true ∧ 5 < (6 : Byte).toNat ∧ 7 < (8 : Byte).toNat ∧ 15 < (16 : Byte).toNat := by decide +kernel

theorem witness_CueLineSet_bodies :
    let body : List Byte := [7, 1, 1, 0, 0, 0, 0]
    let other := body.set 4 255
    body.length = 7 ∧ other.length = 7 ∧ other ≠ body ∧
      ∀ k, k < 7 → (4 ≤ k → (byteAt body 1).getLsbD 2 = true) → byteAt other k = byteAt body k := by decide +kernel

/-- A table entry at the bounds of its ranges. -/
def bounded : SourceEntry :=
  { SourceEntry.default with
    enabled := true, comps := #v[some 0, some 8190, none, none], clockComp := some 1, staleLimit := 50, low := 4095, high := 4095,
    tolerance := 15, faultThreshold := 7, recoveryThreshold := 1 }

theorem bounded_inRange : bounded.inRange ∧ SourceEntry.default.inRange := by
  have h : (∀ c, ∀ n ∈ tget bounded.comps c, n ≤ 8190) ∧ ∀ c, ∀ n ∈ tget SourceEntry.default.comps c, n ≤ 8190 := by decide +kernel
  refine ⟨⟨fun c n e => h.1 c n e, ?_, ?_⟩, fun c n e => h.2 c n e, ?_, ?_⟩ <;> decide +kernel

theorem witness_SourceSet :
    bounded.inRange ∧ (studio.port 1).authority.configure = false ∧ (studio.port 0).authority.configure = true ∧
      15 < (16 : Byte).toNat ∧ (15 : SrcNo).val = (15 : Byte).toNat ∧ (present bounded.comps).Nodup ∧
      ¬(present #v[some 5, some 5, none, none]).Nodup ∧ bounded.enabled = true ∧ (studio.src 15).table.enabled = false ∧
      (studio.src 4).table.enabled = true ∧ SourceEntry.default.enabled = false ∧
      (∀ f k, (studio.pos f k).base ≠ some 15 ∧ (studio.pos f k).fallback ≠ some 15 ∧ (studio.pos f k).upper = []) ∧
      ∀ f, (ready.feed f).running = false :=
  ⟨bounded_inRange.1, by decide +kernel⟩

/-- A body of SET SOURCE for source 15 with one byte changed. -/
def tableBody (k : Nat) (b : Byte) : List Byte := ((15 : Byte) :: sourceEntryBytes bounded).set k b

theorem witness_SourceSet_bodies :
    (studio.port 0).authority.configure = true ∧ (tableBody 0 15).length = 21 ∧ 15 < (byteAt (tableBody 0 16) 0).toNat ∧
      natAt (tableBody 6 255) 5 2 = 8191 ∧ 3 < (byteAt (tableBody 11 4) 11).toNat ∧
      natAt (tableBody 11 2) (3 + 2 * (byteAt (tableBody 11 2) 11).toNat) 2 = 65535 ∧ (byteAt (tableBody 12 0) 12).toNat = 0 ∧
      50 < (byteAt (tableBody 12 51) 12).toNat ∧ 2 < (byteAt (tableBody 13 3) 13).toNat ∧ 4095 < natAt (tableBody 14 16) 14 2 ∧
      4095 < natAt (tableBody 16 16) 16 2 ∧
      ((byteAt (tableBody 17 254) 13).toNat = 0 ∧ natAt (tableBody 17 254) 16 2 < natAt (tableBody 17 254) 14 2) ∧
      15 < (byteAt (tableBody 18 16) 18).toNat ∧ (byteAt (tableBody 19 0) 19).toNat = 0 ∧ 7 < (byteAt (tableBody 20 8) 20).toNat ∧
      ((byteAt (tableBody 1 0xF9) 1).toNat % 8 = (byteAt (tableBody 1 0x01) 1).toNat % 8 ∧
        ∀ k, k < 21 → k ≠ 1 → byteAt (tableBody 1 0xF9) k = byteAt (tableBody 1 0x01) k) := by decide +kernel

theorem witness_ReadsAnswered :
    15 < (16 : Byte).toNat ∧ (ready.port 0).authority.feedMap.getLsbD (6 : Byte).toNat = false ∧
      (15 : SrcNo).val = (15 : Byte).toNat ∧ (5 : FeedNo).val = (5 : Byte).toNat ∧
      (ready.port 0).authority.feedMap.getLsbD 5 = true := by decide +kernel

theorem witness_ScanSetAndFaultsAcknowledged :
    (ready.port 1).authority.configure = false ∧ (ready.port 0).authority.configure = true ∧
      ¬((1 : Byte).toNat ≤ (0 : Byte).toNat ∧ (0 : Byte).toNat ≤ 15) ∧
      ¬((0 : Byte).toNat ≤ (16 : Byte).toNat ∧ (16 : Byte).toNat ≤ 15) ∧ (0 : SrcNo).val = (0 : Byte).toNat ∧
      (15 : SrcNo).val = (15 : Byte).toNat ∧ (0 : SrcNo) ≤ 15 := by decide +kernel

theorem witness_PlanEdited :
    let given : Plan := ⟨#v[65535, 4095, 4096, 0, 0, 0, 0, 0], 255⟩
    (∀ k, tget given.shares k < 65536) ∧ given.carousel < 256 := by decide

theorem witness_PlanEdited_bodies :
    let body : List Byte := [5, 2, 2, 0] ++ planBytes ⟨#v[65535, 4095, 4096, 0, 0, 0, 0, 0], 255⟩
    let other := body.set 4 0
    body.length = 21 ∧ other.length = 21 ∧ (ready.port 0).authority.feedMap.getLsbD (byteAt body 0).toNat = true ∧
      (ready.port 0).authority.feedMap.getLsbD (6 : Byte).toNat = false ∧ 1 < (byteAt body 1).toNat ∧ natAt body 2 2 = 512 ∧
      (∀ k, k < 4 → byteAt other k = byteAt body k) ∧ (∀ n, n < 8 → (natAt body 2 2).testBit n = false) ∧
      (natAt body 2 2).testBit 8 = false := by decide +kernel

theorem witness_FeedRequestsAnswered : 4294967295 < 4294967296 ∧ 5 < (6 : Byte).toNat := by decide

theorem witness_FeedStopped :
    (studio.port 1).authority.configure = false ∧ (studio.port 0).authority.configure = true ∧
      (studio.port 0).authority.feedMap.getLsbD 1 = true ∧ (studio.feed 1).running = true ∧ (ready.feed 1).running = false ∧
      ((seeking 14 (some ⟨1, 140, true⟩)).pos 1 0).slot = .seeking 4 14 (some ⟨1, 140, true⟩) := by decide +kernel

theorem witness_TablesLoadedAndDropped :
    65535 < 65536 ∧ (List.replicate 184 (0 : Byte)).length = 184 ∧ (ready.port 1).authority.configure = false ∧
      (ready.port 0).authority.configure = true ∧ (ready.port 0).authority.feedMap.getLsbD 5 = true ∧ 15 < (16 : Byte).toNat ∧
      (15 : TableNo).val = (15 : Byte).toNat ∧ 5 < (6 : Byte).toNat := by decide +kernel

/-! ### Invariants -/

/-- A clock with no load pending is sound where these checks hold. -/
theorem clock_sound {c : Clock} (l : c.load = none) (h : c.tod.valid c.rate = true ∧ c.run ≤ 3 ∧
      (1 ≤ c.timer ∧ c.timer ≤ c.rate.ticks) ∧ (c.atUnderflow = true → c.timer = 1) ∧
      (c.rate.ticks ≤ (c.tick - c.frameStart).toNat + c.untilUnderflow ∧
        (c.tick - c.frameStart).toNat + c.untilUnderflow ≤ c.rate.ticks + 270) ∧
      (c.late.all fun u => u = c.frameStart ∧ (c.tick - u).toNat ≤ 271 ∧ (c.tick - u).toNat + c.untilUnderflow = c.rate.ticks) = true) :
    c.Sound :=
  ⟨h.1, by simp [l], h.2.1, h.2.2.1, h.2.2.2.1, h.2.2.2.2.1, fun u e => by simpa [e] using h.2.2.2.2.2⟩

theorem witness_StepKeepsClockSound :
    studio.clock.Sound ∧ Clock.Sound { studio.clock with tick := 1080000, timer := 1, atUnderflow := true } ∧
      Clock.Sound { studio.clock with tick := 1271, frameStart := 1000, timer := 1079729, late := some 1000 } :=
  ⟨clock_sound rfl (by decide +kernel), clock_sound rfl (by decide +kernel), clock_sound rfl (by decide +kernel)⟩

theorem witness_LoadSound : studio.LoadSound := fun h => absurd h (by decide +kernel)

theorem witness_StepKeepsFeedsSound : (∀ f, (studio.feed f).Sound) ∧ studio.CapacitySound ∧ studio.IdsSound := by
  unfold Feed.Sound State.CapacitySound State.IdsSound
  decide +kernel

theorem witness_StepKeepsStacksSound :
    ∀ f p, ((stacked [selection .network 1 none, selection .regional 2 none, selection .alert 3 (some 7)]).pos f p).StackSound := by
  unfold Position.StackSound
  decide +kernel

/-- A marked entry, its source FAULTED with the fallback permitted, and an unmarked base. -/
theorem witness_StepKeepsStacksSound_marks :
    let s := studio.setSrc 4 { studio.src 4 with health := .faulted, table := { (studio.src 4).table with fallbackPermit := true } }
    (s.setPos 1 0 { Position.reset with fallback := some 0, upper := [{ selection .network 1 none with mark := true }] }).MarksSound := by
  unfold State.MarksSound State.markDue
  decide +kernel

theorem witness_StepKeepsSlotsSound : ∀ f p, (studio.pos f p).SlotSound (studio.feed f).running := by
  have h : ∀ f p, (studio.pos f p).slot = .steady ∧
      (if (studio.feed f).running then (studio.pos f p).onAirSource = (studio.pos f p).effective
        else (studio.pos f p).onAir = none) := by decide +kernel
  intro f p
  unfold Position.SlotSound
  rw [(h f p).1]
  have k := (h f p).2
  cases e : (studio.feed f).running <;> rw [e] at k <;> exact k

theorem witness_StepKeepsListSound :
    listed.LoadSound ∧ listed.list.Sound ∧ listed.clock.Sound ∧
      State.ListOrdered { ready with list := { ready.list with
        entries := [{ take with late := true, due := 2159999 }, { take with due := 1 }, { take with due := 1080000 }] } } := by
  refine ⟨fun h => absurd h (by decide +kernel), by unfold SwitchList.Sound; decide +kernel, clock_sound rfl (by decide +kernel),
    [{ take with late := true, due := 2159999 }], [{ take with due := 1 }, { take with due := 1080000 }], rfl, ?_⟩
  decide +kernel

theorem witness_StepKeepsPortsSound : ∀ p, ((listing (queue 4 4)).port p).Sound := by
  unfold ControlPort.Sound
  decide +kernel

theorem witness_StepKeepsSourcesSound : (∀ i, (studio.src i).Sound) ∧ (lagging 512 512).RingsSound ∧ (serving 1).RingsSound := by
  unfold Source.Sound State.RingsSound
  decide +kernel

theorem witness_StepKeepsSourcesSound_scan : Scan.Sound ⟨0, 9, 9⟩ ∧ Scan.Sound ⟨15, 15, 15⟩ := by
  unfold Scan.Sound
  decide

theorem witness_StepKeepsTagsDistinct :
    ∀ p, ({ stacked [selection .regional 7 none] with list := { ready.list with entries := [take] } } : State).liveTags p |>.Nodup := by
  decide +kernel

theorem witness_step_answers : ∃ t, step studio = .next t := ⟨studio.idle, rfl⟩

end Sys2Proof.Tests
end

section
/-! SUPPORT. A request on a port that serves it, and what CLEAR ENTRIES does to the switch list (R34). -/

namespace Sys2Proof.Machine

/-! ### A request on an idle port -/

/-- A request's reply has $80 added to its code (R152). -/
@[simp] theorem replyCode_reqCode (r : Request) : replyCode (reqCode r) = reqCode r + 0x80 :=
  if_pos (Laws.RequestCode.code_names r).1

/-- Past the three checks the request reaches its owner (R153). -/
theorem execute_reqCode (r : Request) (p : PortNo) (body : List Byte) (s : State)
    (hload : s.loader.state ≠ .loading ∨ r = .readPort) (hlen : body.length = reqLength r) :
    execute p (reqCode r) body s = perform r p body s := by
  have ready : ¬(s.loader.state = .loading ∧ r ≠ .readPort) := fun h => hload.elim (· h.1) h.2
  simp [execute, (Laws.RequestCode.code_names r).2, ready, hlen]

/-- A port written twice holds what was written last. -/
@[simp] theorem State.setPort_setPort (s : State) (p : PortNo) (x y : ControlPort) :
    (s.setPort p x).setPort p y = s.setPort p y := by
  simp [State.setPort, tset]

/-- Writing back what a port holds changes nothing. -/
@[simp] theorem State.setPort_port (s : State) (p : PortNo) : s.setPort p (s.port p) = s := by
  simp [State.setPort, State.port]

/-- A reply list written twice holds what was written last. -/
@[simp] theorem State.setReplies_setReplies (s : State) (p : PortNo) (l l' : List Item) :
    (s.setReplies p l).setReplies p l' = s.setReplies p l' := by
  simp [State.setReplies]

/-- A frame accepted on an empty reply list is executed at once, from the state in which it waits, and answered (R151, R152). -/
theorem acceptFrame_of_idle (s : State) (p : PortNo) (q : Frame) (h : (s.port p).replies = []) :
    s.acceptFrame p q =
      (execute p q.code q.body (s.setReplies p [.waiting q])).1.setReplies p
        [.answering (frameBytes q.sequence (replyCode q.code) (execute p q.code q.body (s.setReplies p [.waiting q])).2)] := by
  simp [State.acceptFrame, h, State.handleHead, Config.replyPlaces]

theorem State.answered_eq (s : State) (p : PortNo) (r : Request) (sequence : Byte) (body : List Byte) :
    s.answered p r sequence body = s.setReplies p [.answering (frameBytes sequence (reqCode r + 0x80) body)] := rfl

/-- The command of a request of the right length, on a port that serves it: its owner takes the request and its reply is being sent. -/
theorem exec_ofRequest_serves (r : Request) (p : PortNo) (sequence : Byte) (body : List Byte) (s : State)
    (h : s.serves p) (hlen : body.length = reqLength r) :
    exec (.ofRequest r p sequence body) s =
      .next ((perform r p body (s.setReplies p [.waiting ⟨sequence, reqCode r, body⟩])).1.answered p r sequence
        (perform r p body (s.setReplies p [.waiting ⟨sequence, reqCode r, body⟩])).2) := by
  obtain ⟨awake, hload, idle⟩ := h
  have owner := execute_reqCode r p body (s.setReplies p [.waiting ⟨sequence, reqCode r, body⟩]) (.inl hload) hlen
  rw [exec_ofRequest_awake r p sequence body s awake, acceptFrame_of_idle s p _ idle]
  simp only [owner, replyCode_reqCode, State.answered_eq]

/-- What a reply list holds does not matter once a request is answered. -/
@[simp] theorem State.answered_setReplies (s : State) (p : PortNo) (l : List Item) (r : Request) (sequence : Byte)
    (body : List Byte) : (s.setReplies p l).answered p r sequence body = s.answered p r sequence body := by
  simp [State.answered_eq]

/-! ### The list without a port's entries -/

/-- The list without the entries of a port (R34). -/
def SwitchList.without (l : SwitchList) (p : PortNo) : SwitchList :=
  { l with entries := l.entries.filter fun e => e.owner ≠ p }

/-- The others keep their order. -/
theorem SwitchList.without_sublist (l : SwitchList) (p : PortNo) : (l.without p).entries.Sublist l.entries :=
  List.filter_sublist

@[simp] theorem SwitchList.mem_without (l : SwitchList) (p : PortNo) (e : Entry) :
    e ∈ (l.without p).entries ↔ e ∈ l.entries ∧ e.owner ≠ p := by
  simp [SwitchList.without]

theorem SwitchList.count_without_same (l : SwitchList) (p : PortNo) : (l.without p).count p = 0 := by
  simp [SwitchList.count]

theorem SwitchList.count_without_other (l : SwitchList) {p q : PortNo} (h : q ≠ p) : (l.without p).count q = l.count q := by
  have kept : ∀ e : Entry, (e.owner = q ∧ e.owner ≠ p) ↔ e.owner = q :=
    fun e => and_iff_left_of_imp fun owned => owned ▸ h
  simp only [SwitchList.count, SwitchList.without, List.filter_filter, ← Bool.decide_and, kept]

/-- An entry either is the port's or stays. -/
theorem SwitchList.length_eq_count_add_without (l : SwitchList) (p : PortNo) :
    l.entries.length = l.count p + (l.without p).entries.length := by
  simpa [SwitchList.count, SwitchList.without] using
    l.entries.length_eq_length_filter_add fun e => decide (e.owner = p)

/-- What CLEAR ENTRIES answers as the number removed is how much shorter the list is. -/
theorem SwitchList.count_eq_length_sub (l : SwitchList) (p : PortNo) :
    l.count p = l.entries.length - (l.without p).entries.length := by
  have := l.length_eq_count_add_without p
  omega

/-! ### CLEAR ENTRIES -/

/-- CLEAR ENTRIES writes the list alone: the port's reply list stays as it is (R34). -/
theorem reqClearEntries_setReplies (p : PortNo) (b : List Byte) (s : State) (l : List Item) :
    reqClearEntries p b (s.setReplies p l) =
      (({ s with list := s.list.without p } : State).setReplies p l, [0x00, nat8 (s.list.count p)]) := rfl

/-- CLEAR ENTRIES on a port that serves it takes the port's entries out of the list and answers their number (R34). -/
theorem exec_clearEntries_serves (p : PortNo) (sequence : Byte) (s : State) (h : s.serves p) :
    exec (.clearEntries p sequence []) s =
      .next ({ s with list := s.list.without p }.answered p .clearEntries sequence [0x00, nat8 (s.list.count p)]) := by
  have answer := exec_ofRequest_serves .clearEntries p sequence [] s h rfl
  simpa only [Instr.ofRequest, perform, reqClearEntries_setReplies, State.answered_setReplies] using answer

/-- Settles O40: the list loses exactly the port's entries, and the port's receive state stays as it is. -/
theorem clearEntriesRemovesOwn : Obligations.ClearEntriesRemovesOwn := by
  intro s p sequence h
  refine ⟨(s.port p).rx, id, { s with list := s.list.without p }, ?answered, ?frame, s.list.without_sublist p,
    s.list.mem_without p, fun q hq => s.list.count_without_other hq, s.list.count_without_same p⟩
  case answered => rw [exec_clearEntries_serves p sequence s h, s.list.count_eq_length_sub p, nat8]
  case frame =>
    have unchanged : s.setPort p { s.port p with rx := (s.port p).rx } = s := s.setPort_port p
    rw [unchanged, SwitchList.without]

end Sys2Proof.Machine
end

section
/-! SUPPORT. What the Transition Unit does with a change of effective source, one equation per row of its table (R59, R60), and where a
position reads after it. -/

namespace Sys2Proof.Machine

/-! ### Packets freed, positions and records -/

/-- Packets freed from the oldest end, in the statements' words (R91). -/
theorem Freed.trimmedTo {s : State} {w : Vector Source 16} (h : Freed s.sources w) (j : SrcNo) :
    (s.src j).trimmedTo (tget w j) := by
  obtain ⟨n, hn⟩ := h j
  rw [Source.trimmedTo, hn]
  exact ⟨rfl, List.drop_suffix _ _⟩

/-- A position written beside ports that are replaced whole: what they were told before does not matter. -/
theorem OnlyPorts.setPos_with {s u : State} (h : OnlyPorts s u) (f : FeedNo) (p : PosNo) (y : Position) (w : Vector Source 16)
    (ports : Vector ControlPort 4) :
    { u.setPos f p y with sources := w, ports := ports } = { s.setPos f p y with sources := w, ports := ports } := by
  obtain ⟨_, rfl, _⟩ := h
  rfl

/-- Only packets freed: the state is the same but for its sources. -/
theorem OnlySources.eq {s t : State} (h : OnlySources s t) : t = { s with sources := t.sources } := by
  obtain ⟨_, rfl, _⟩ := h
  rfl

/-- A position written and packets freed, then a record of an owner: it is made from the ports and the time of day, which both stay. -/
theorem OnlySources.ownerDone_eq {s t : State} {f : FeedNo} {p : PosNo} {x : Position} (h : OnlySources (s.setPos f p x) t)
    (o : Option Owner) (flags : OutcomeFlags) :
    t.ownerDone f p o flags =
      { s.setPos f p x with
        sources := (t.ownerDone f p o flags).sources
        ports := (s.ownerDone f p o flags).ports } := by
  obtain ⟨_, rfl, _⟩ := h
  cases o <;> rfl

/-! ### Where a position reads -/

/-- A search put to a slot writes the slot, and frees packets. -/
theorem State.seek_writes (s : State) (f : FeedNo) (p : PosNo) (i : SrcNo) (w : Nat) (o : Option Owner) :
    OnlySources (s.setPos f p { s.pos f p with slot := .seeking i w o }) (s.seek f p i w o) :=
  (trim_frame _ i).trans (trimOpt_frame _ (s.pos f p).slot.target)

/-- A move of the on-air cursor writes slot, cursor and marks, and frees packets. -/
theorem State.moveOnAir_writes (s : State) (f : FeedNo) (p : PosNo) (c : Option Cursor) (m : BitVec 4) :
    OnlySources (s.setPos f p { s.pos f p with slot := .steady, onAir := c, marks := m }) (s.moveOnAir f p c m) :=
  (trimOpt_frame _ (c.map Cursor.source)).trans
    ((trimOpt_frame _ (s.pos f p).onAirSource).trans (trimOpt_frame _ (s.pos f p).slot.target))

/-- A change made at once puts the cursor at the write point with all marks, or detaches it and keeps them (R62, R69). -/
theorem State.switchNow_writes (s : State) (f : FeedNo) (p : PosNo) (t : Option SrcNo) :
    OnlySources (s.setPos f p { s.pos f p with
        slot := .steady, onAir := t.map (⟨·, 0⟩), marks := if t = none then (s.pos f p).marks else 0xF })
      (s.switchNow f p t) := by
  cases t with
  | none => exact s.moveOnAir_writes f p none (s.pos f p).marks
  | some i => exact s.moveOnAir_writes f p (some ⟨i, 0⟩) 0xF

/-! ### The wait of a search -/

/-- What ports are told does not change the wait of a search. -/
theorem OnlyPorts.searchWait {s u : State} (h : OnlyPorts s u) (f : FeedNo) (p : PosNo) (t : Option SrcNo) (policy : Splice) :
    u.searchWait f p t policy = s.searchWait f p t policy := by
  obtain ⟨_, rfl, _⟩ := h
  rfl

/-- The wait of an ENTRY whose target and position both have a key component (R61). -/
theorem State.searchWait_keyed (s : State) (f : FeedNo) (p : PosNo) (i : SrcNo) (w : Nat)
    (hcomp : (tget (s.src i).table.comps 0).isSome) (hid : (tget (s.pos f p).ids 0).isSome) :
    s.searchWait f p (some i) (.entry w) = some w := by
  have keyed : s.keyless f p i = false := by
    simp only [State.keyless, Option.isNone_eq_false_iff.2 hcomp, Option.isNone_eq_false_iff.2 hid, Bool.or_false]
  simp [State.searchWait, keyed]

/-- A change to dark, an IMMEDIATE one and an ENTRY without a key component ask for no search (R53, R61). -/
theorem State.searchWait_eq_none (s : State) (f : FeedNo) (p : PosNo) (t : Option SrcNo) (policy : Splice)
    (h : t = none ∨ policy = .immediate ∨
      ∃ i, t = some i ∧ (tget (s.src i).table.comps 0 = none ∨ tget (s.pos f p).ids 0 = none)) :
    s.searchWait f p t policy = none := by
  cases policy with
  | immediate => rfl
  | entry w =>
    rcases h with rfl | himm | ⟨i, rfl, hkey⟩
    · rfl
    · cases himm
    · have keyless : s.keyless f p i = true := by
        rcases hkey with hkey | hkey <;> simp [State.keyless, hkey]
      simp [State.searchWait, keyless]

/-! ### The table of the Transition Unit -/

section
variable {s : State} {f : FeedNo} {p : PosNo} {t : Option SrcNo} {policy : Splice}

/-- R59: a STEADY slot already reads the source. -/
theorem State.takeChange_steady_onAir (o : Option Owner) (hslot : (s.pos f p).slot = .steady)
    (hair : t = (s.pos f p).onAirSource) : s.takeChange f p t policy o = s.ownerDone f p o .none := by
  simp only [State.takeChange, hslot, if_pos hair]

/-- R59: a search begins. -/
theorem State.takeChange_steady_search {i : SrcNo} {w : Nat} (o : Option Owner) (hslot : (s.pos f p).slot = .steady)
    (hair : some i ≠ (s.pos f p).onAirSource) (hwait : s.searchWait f p (some i) policy = some w) :
    s.takeChange f p (some i) policy o = s.seek f p i w o := by
  simp only [State.takeChange, hslot, if_neg hair, hwait]

/-- R59: the change is made at once. -/
theorem State.takeChange_steady_now (o : Option Owner) (hslot : (s.pos f p).slot = .steady)
    (hair : t ≠ (s.pos f p).onAirSource) (hwait : s.searchWait f p t policy = none) :
    s.takeChange f p t policy o = (s.switchNow f p t).ownerDone f p o .none := by
  simp only [State.takeChange, hslot, if_neg hair, hwait]

variable {j : SrcNo} {v : Nat} {old : Option Owner}

/-- R60: the change goes back to the source on air, and the search ends. -/
theorem State.takeChange_seeking_onAir (o : Option Owner) (hslot : (s.pos f p).slot = .seeking j v old)
    (hair : t = (s.pos f p).onAirSource) :
    s.takeChange f p t policy o =
      (((s.ownerDone f p old ⟨false, false, false, false, true⟩).setPos f p { s.pos f p with slot := .steady }).trim j).ownerDone
        f p o .none := by
  simp only [State.takeChange, hslot, if_pos hair, OutcomeFlags.none]

/-- R60: the search is retargeted on the wait it has. -/
theorem State.takeChange_seeking_search {i : SrcNo} {w : Nat} (o : Option Owner) (hslot : (s.pos f p).slot = .seeking j v old)
    (hair : some i ≠ (s.pos f p).onAirSource) (hwait : s.searchWait f p (some i) policy = some w) :
    s.takeChange f p (some i) policy o =
      (s.ownerDone f p old ⟨false, false, false, false, true⟩).seek f p i v o := by
  simp only [State.takeChange, hslot, if_neg hair, (ownerDone_frame _ _ _ _ _).searchWait, hwait, OutcomeFlags.none]

/-- R60: the search ends, and the change is made at once. -/
theorem State.takeChange_seeking_now (o : Option Owner) (hslot : (s.pos f p).slot = .seeking j v old)
    (hair : t ≠ (s.pos f p).onAirSource) (hwait : s.searchWait f p t policy = none) :
    s.takeChange f p t policy o =
      ((s.ownerDone f p old ⟨false, false, false, false, true⟩).switchNow f p t).ownerDone f p o .none := by
  simp only [State.takeChange, hslot, if_neg hair, (ownerDone_frame _ _ _ _ _).searchWait, hwait, OutcomeFlags.none]

end

/-- A change taken frees packets at most. -/
theorem State.takeChange_trimmed (s : State) (f : FeedNo) (p : PosNo) (t : Option SrcNo) (policy : Splice) (o : Option Owner)
    (j : SrcNo) : (s.src j).trimmedTo (tget (s.takeChange f p t policy o).sources j) := by
  obtain ⟨_, w, _, taken, _, freed, _⟩ := takeChange_frame s f p t policy o
  rw [taken]
  exact freed.trimmedTo j

/-- Settles O18: the six rows of the table, each by its equation and by what a search, a move of the cursor and a record write. On a
SEEKING slot the record of the overtaken search comes first, and the row acts on the state after it. -/
theorem changeTaken : Obligations.ChangeTaken := by
  intro s f p t policy o
  have told := fun old => ownerDone_frame s f p old ⟨false, false, false, false, true⟩
  refine ⟨(s.takeChange f p t policy o).sources, s.takeChange_trimmed f p t policy o, ?search, ?now, ?onAir⟩
  case search =>
    rintro i rfl hcomp hid w rfl hair
    have hwait := s.searchWait_keyed f p i w hcomp hid
    refine ⟨fun hslot => ?_, fun j v old hslot => ?_⟩
    · rw [State.takeChange_steady_search o hslot hair hwait]
      exact (s.seek_writes f p i w o).eq
    · rw [State.takeChange_seeking_search o hslot hair hwait, ← (told old).setPos_with, ← (told old).pos]
      exact (State.seek_writes _ f p i v o).eq
  case now =>
    intro hnow hair
    have hwait := s.searchWait_eq_none f p t policy hnow
    refine ⟨fun hslot => ?_, fun j v old hslot => ?_⟩
    · have row := (s.switchNow_writes f p t).ownerDone_eq o .none
      rw [← hslot] at row
      rw [State.takeChange_steady_now o hslot hair hwait]
      exact row
    · rw [State.takeChange_seeking_now o hslot hair hwait, ← (told old).setPos_with, ← (told old).pos]
      exact (State.switchNow_writes _ f p t).ownerDone_eq o .none
  case onAir =>
    intro hair
    refine ⟨fun hslot => State.takeChange_steady_onAir o hslot hair, fun j v old hslot => ?_⟩
    rw [State.takeChange_seeking_onAir o hslot hair, ← (told old).setPos_with]
    exact (trim_frame _ j).ownerDone_eq o .none

end Sys2Proof.Machine
end

section
/-! SUPPORT. SET MASK and READ EVENTS: the two sets of notices of a port, and the attention line that follows them (R156 to R158). -/

namespace Sys2Proof.Machine

/-! ### A port that a request writes -/

/-- A port's receive state left as it stands. -/
theorem State.setPort_same_rx (s : State) (p : PortNo) : s.setPort p { s.port p with rx := (s.port p).rx } = s :=
  s.setPort_port p

/-! ### Words and sets in a body -/

/-- The number in two bytes, the most significant first (R170). -/
theorem natAt_two (b : List Byte) (i : Nat) (high low : Byte) (h : (b.drop i).take 2 = [high, low]) :
    natAt b i 2 = high.toNat * 256 + low.toNat := by
  simp [natAt, h]

/-- The two bytes of a 16-bit word hold its number. -/
theorem toNat_bytes_of_word (w : BitVec 16) :
    (w.extractLsb' 8 8).toNat * 256 + (w.extractLsb' 0 8).toNat = w.toNat := by
  have := w.isLt
  simp only [BitVec.extractLsb'_toNat, Nat.shiftRight_eq_div_pow]
  omega

/-- The mask with one set of kinds taken out and then another put in (R157). -/
def maskAfter (mask : NoticeSet) (off on : BitVec 16) : NoticeSet :=
  (mask &&& ~~~(BitVec.ofNat 10 off.toNat)) ||| BitVec.ofNat 10 on.toNat

/-- A kind is in the new mask if it is enabled, or was there and is not disabled. -/
theorem getLsbD_maskAfter (mask : NoticeSet) (off on : BitVec 16) {k : Nat} (hk : k < 10) :
    (maskAfter mask off on).getLsbD k = (on.getLsbD k || (mask.getLsbD k && !off.getLsbD k)) := by
  have bit (w : BitVec 16) : (BitVec.ofNat 10 w.toNat).getLsbD k = w.getLsbD k := by
    simp [hk]
  simp only [maskAfter, BitVec.getLsbD_or, BitVec.getLsbD_and, BitVec.getLsbD_not, bit, hk, decide_true, Bool.true_and,
    Bool.or_comm]

/-! ### The attention line -/

/-- The line is high while a kind is pending that the mask holds (R156). -/
theorem ControlPort.attention_iff (x : ControlPort) :
    x.attention = true ↔ ∃ k, x.mask.getLsbD k = true ∧ x.notices.getLsbD k = true := by
  have low : x.notices &&& x.mask = 0#10 ↔ ∀ k, x.mask.getLsbD k = true → x.notices.getLsbD k = false := by
    refine ⟨fun empty k masked => ?_, fun none => BitVec.eq_of_getLsbD_eq fun k _ => ?_⟩
    · have bit : (x.notices &&& x.mask).getLsbD k = false := by simp [empty]
      simpa [masked] using bit
    · cases masked : x.mask.getLsbD k <;> simp [masked, none k]
  simp [ControlPort.attention, low]

/-- With no kind pending the line is low, whatever the mask holds. -/
theorem ControlPort.attention_of_no_notices (x : ControlPort) (h : x.notices = 0) : x.attention = false := by
  simp [ControlPort.attention, h]

/-! ### SET MASK -/

/-- The body of SET MASK: the disable set and the enable set (12.3). -/
def maskBody (off on : BitVec 16) : List Byte :=
  [off.extractLsb' 8 8, off.extractLsb' 0 8, on.extractLsb' 8 8, on.extractLsb' 0 8]

@[simp] theorem natAt_maskBody_off (off on : BitVec 16) : natAt (maskBody off on) 0 2 = off.toNat :=
  (natAt_two _ _ _ _ rfl).trans (toNat_bytes_of_word off)

@[simp] theorem natAt_maskBody_on (off on : BitVec 16) : natAt (maskBody off on) 2 2 = on.toNat :=
  (natAt_two _ _ _ _ rfl).trans (toNat_bytes_of_word on)

/-- A bit that is no kind of R155, in either set, refuses the request (R157). -/
theorem reqSetMask_refused (p : PortNo) (off on : BitVec 16) (s : State) (h : 1024 ≤ off.toNat ∨ 1024 ≤ on.toNat) :
    reqSetMask p (maskBody off on) s = (s, [0x04]) := by
  simp only [reqSetMask, natAt_maskBody_off, natAt_maskBody_on, if_pos h, refuse, resultByte]

/-- Two sets of kinds are taken: the mask alone is written, and the answer holds it and the pending set (R157). -/
theorem reqSetMask_taken (p : PortNo) (off on : BitVec 16) (s : State) (l : List Item)
    (hoff : off.toNat < 1024) (hon : on.toNat < 1024) :
    reqSetMask p (maskBody off on) (s.setReplies p l) =
      ((s.setPort p { s.port p with mask := maskAfter (s.port p).mask off on }).setReplies p l,
        [0x00] ++ natBytes 2 (maskAfter (s.port p).mask off on).toNat ++ natBytes 2 (s.port p).notices.toNat) := by
  have inRange : ¬(1024 ≤ off.toNat ∨ 1024 ≤ on.toNat) := by omega
  simp [reqSetMask, inRange, accept, resultByte, noticeBytes, maskAfter, State.setReplies]

section
variable {s : State} {p : PortNo} (h : s.serves p) (sequence : Byte) {off on : BitVec 16}
include h

theorem exec_setMask_refused (range : 1024 ≤ off.toNat ∨ 1024 ≤ on.toNat) :
    exec (.setMask p sequence (maskBody off on)) s = .next (s.answered p .setMask sequence [0x04]) := by
  have answer := exec_ofRequest_serves .setMask p sequence (maskBody off on) s h rfl
  simpa only [Instr.ofRequest, perform, reqSetMask_refused p off on _ range, State.answered_setReplies] using answer

theorem exec_setMask_taken (hoff : off.toNat < 1024) (hon : on.toNat < 1024) :
    exec (.setMask p sequence (maskBody off on)) s =
      .next ((s.setPort p { s.port p with mask := maskAfter (s.port p).mask off on }).answered p .setMask sequence
        ([0x00] ++ natBytes 2 (maskAfter (s.port p).mask off on).toNat ++ natBytes 2 (s.port p).notices.toNat)) := by
  have answer := exec_ofRequest_serves .setMask p sequence (maskBody off on) s h rfl
  simpa only [Instr.ofRequest, perform, reqSetMask_taken p off on _ _ hoff hon, State.answered_setReplies] using answer

end

/-- Settles O35: the new mask is `maskAfter`, read bit by bit, and the port's receive state stays as it is. -/
theorem setMaskDisablesThenEnables : Obligations.SetMaskDisablesThenEnables := by
  intro s p sequence off on h
  refine ⟨(s.port p).rx, id, ?_⟩
  rw [State.setPort_same_rx]
  refine ⟨exec_setMask_refused h sequence, fun hoff hon => ⟨maskAfter (s.port p).mask off on, ?mask, ?taken, ?line⟩⟩
  case mask => exact fun k => getLsbD_maskAfter _ off on
  case taken => exact exec_setMask_taken h sequence hoff hon
  case line => exact ControlPort.attention_iff _

/-! ### READ EVENTS -/

/-- READ EVENTS answers the pending set and the mask, and writes the pending set alone (R158). -/
theorem reqReadEvents_setReplies (p : PortNo) (b : List Byte) (s : State) (l : List Item) :
    reqReadEvents p b (s.setReplies p l) =
      ((s.setPort p { s.port p with notices := 0 }).setReplies p l,
        [0x00] ++ natBytes 2 (s.port p).notices.toNat ++ natBytes 2 (s.port p).mask.toNat) := by
  simp [reqReadEvents, accept, resultByte, noticeBytes, State.setReplies]

theorem exec_readEvents_serves (p : PortNo) (sequence : Byte) (s : State) (h : s.serves p) :
    exec (.readEvents p sequence []) s =
      .next ((s.setPort p { s.port p with notices := 0 }).answered p .readEvents sequence
        ([0x00] ++ natBytes 2 (s.port p).notices.toNat ++ natBytes 2 (s.port p).mask.toNat)) := by
  have answer := exec_ofRequest_serves .readEvents p sequence [] s h rfl
  simpa only [Instr.ofRequest, perform, reqReadEvents_setReplies, State.answered_setReplies] using answer

/-- Settles O36: the pending set is emptied, so the line is low, and the port's receive state stays as it is. -/
theorem readEventsEmptiesPendingSet : Obligations.ReadEventsEmptiesPendingSet := by
  intro s p sequence h
  refine ⟨(s.port p).rx, id, ?_⟩
  rw [State.setPort_same_rx]
  exact ⟨exec_readEvents_serves p sequence s h, ControlPort.attention_of_no_notices _ rfl⟩

end Sys2Proof.Machine
end

section
/-! SUPPORT. What a step is made of, said once for a property that speaks of the clock, the scan or the ports: it is kept by every step
if each event keeps it and so does the time that passes while no event is due. -/

namespace Sys2Proof.Machine

/-- A property of states kept by every event that a step is made of, and by the time between them. -/
structure Preserved (P : State → Prop) : Prop where
  /-- It does not speak of the queue. -/
  queue : ∀ s q, P s → P { s with pending := q }
  reset : ∀ r q, P (State.heldAt r q)
  release : ∀ (s : State) b, P (s.release b)
  header : ∀ s b, P s → P (s.headerByte b)
  sections : ∀ s b, P s → P (s.readSections b)
  time : ∀ s d, s.soonest d = true → P s → P (s.advance d)
  timed : ∀ s o e, P s → P (s.takeTimed o e)
  pulse : ∀ s o, P s → P (s.pulse o)
  byte : ∀ s i b, P s → P (s.takeByte i b)
  received : ∀ s p b fr, P s → P (s.receive p b fr)
  accepted : ∀ s p q, P s → P (s.acceptFrame p q)
  replied : ∀ s p, P s → P (s.replyDone p)

/-- Where no event is due at this tick, none comes sooner than in one tick. -/
theorem State.soonest_one (s : State) (h : (allTimed.find? fun e => s.dueIn e == some 0) = none) : s.soonest 1 = true := by
  rw [List.find?_eq_none] at h
  unfold State.soonest
  rw [List.all_eq_true]
  intro e he
  cases hd : s.dueIn e with
  | none => rfl
  | some d =>
    have : d ≠ 0 := by rintro rfl; exact h e he (by simp [hd])
    exact decide_eq_true (Nat.one_le_iff_ne_zero.2 this)

namespace Preserved

variable {P : State → Prop} (K : Preserved P) {s t : State}
include K

theorem runTimed (s : State) (e : TimedEvent) (o : FrameOrder) (h : P s) : P (s.runTimed e o) := by
  unfold State.runTimed
  split
  · split
    · exact K.timed _ _ _ (K.time _ _ ‹_› h)
    · exact h
  · exact h

theorem settle (s : State) (h : P s) : P s.settle :=
  foldl_keeps P _ (fun s e => K.runTimed s e _) _ s h

theorem idle (s : State) (h : P s) : P s.idle := by
  unfold State.idle
  split
  · exact h
  · split
    · exact K.timed _ _ _ h
    · exact K.time _ _ (s.soonest_one ‹_›) h

theorem readHeader (s : State) (b : List Byte) (h : P s) : P (s.readHeader b) :=
  foldl_keeps P _ K.header _ s h

theorem act {f : State → State} (hf : ∀ s, P s → P (f s)) (h : P s) (e : s.act f = .next t) : P t := by
  unfold State.act at e
  injection e with e
  subst e
  split
  · exact h
  · exact hf _ (K.settle s h)

theorem actPiece {k : TimedEvent} (h : P s) (e : s.actPiece k = .next t) : P t := by
  unfold State.actPiece at e
  injection e with e
  subst e
  split
  · exact h
  · exact K.runTimed s _ _ h

/-- Every command keeps the property. -/
theorem exec (c : Instr) (h : P s) (e : Machine.exec c s = .next t) : P t := by
  cases c <;> unfold Machine.exec at e
  case resetAssert => injection e with e; subst e; exact K.reset _ _
  case resetRelease =>
    injection e with e; subst e
    split
    · exact K.release s _
    · exact h
  case imageHeaderRead => exact K.act (fun s => K.readHeader s _) h e
  case imageReadComplete => exact K.act (fun s => K.sections s _) h e
  case lineSpeedChange => exact K.actPiece h e
  case windowEnd => exact K.actPiece h e
  case forcedSwitch => exact K.actPiece h e
  case carouselDueMaking => exact K.actPiece h e
  case flywheelUnderflow => exact K.act (fun s => K.runTimed s _ _) h e
  case lateWindowExpiry => exact K.act (fun s => K.runTimed s _ _) h e
  case slotEvent => exact K.act (fun s => K.runTimed s _ _) h e
  case byteGapExpiry => exact K.act (fun s => K.runTimed s _ _) h e
  case houseReferencePulse => exact K.act (fun s => K.pulse s _) h e
  case packetArrival => exact K.act (fun s => K.byte s _ _) h e
  case sourcePortByte => exact K.act (fun s => K.byte s _ _) h e
  case controlFrame => exact K.act (fun s => K.received s _ _ _) h e
  case controlPortByte => exact K.act (fun s => K.received s _ _ _) h e
  case replySent => exact K.act (fun s => K.replied s _) h e
  all_goals exact K.act (fun s => K.accepted s _ _) h e

/-- Every step keeps the property. -/
theorem step (h : P s) (e : Machine.step s = .next t) : P t := by
  unfold Machine.step at e
  split at e
  · injection e with e; subst e; exact K.idle s h
  · exact K.exec _ (K.queue s _ h) e

end Preserved

/-! ### Requests and the control port lines -/

/-- A property that does not speak of the ports and that every request keeps. -/
structure KeptByRequests (P : State → Prop) : Prop where
  ports : ∀ s u, P s → P { s with ports := u }
  request : ∀ r p b s, s.loader.state ≠ .loading ∨ r = .readPort → P s → P (perform r p b s).1

namespace KeptByRequests

variable {P : State → Prop} (K : KeptByRequests P)
include K

theorem setPort (s : State) (p : PortNo) (x : ControlPort) (h : P s) : P (s.setPort p x) := K.ports s _ h

theorem told {s t : State} (o : OnlyPorts s t) (h : P s) : P t := by
  obtain ⟨_, rfl, _⟩ := o; exact K.ports s _ h

theorem executed (p : PortNo) (c : Byte) (b : List Byte) (s : State) (h : P s) : P (execute p c b s).1 := by
  unfold execute
  split; · exact h
  split; · exact h
  split; · exact h
  rename_i r _ hr _
  exact K.request r p b s (by rw [not_and_or, not_ne_iff] at hr; exact hr) h

theorem handled (s : State) (p : PortNo) (h : P s) : P (s.handleHead p) := by
  unfold State.handleHead
  split
  · exact K.setPort _ _ _ (K.executed _ _ _ s h)
  · exact h

theorem accepted (s : State) (p : PortNo) (q : Frame) (h : P s) : P (s.acceptFrame p q) := by
  unfold State.acceptFrame
  dsimp only
  split_ifs
  · exact K.handled _ _ (K.setPort s _ _ h)
  · exact K.setPort s _ _ h
  · exact K.setPort s _ _ h
  · exact K.setPort s _ _ h

theorem replied (s : State) (p : PortNo) (h : P s) : P (s.replyDone p) := by
  unfold State.replyDone
  split
  · exact h
  · exact K.handled _ _ (K.setPort s _ _ h)

theorem frameWhole (s : State) (p : PortNo) (b : List Byte) (h : P s) : P (s.frameWhole p b) := by
  unfold State.frameWhole
  dsimp only
  split
  · exact K.accepted _ _ _ (K.setPort s _ _ h)
  · exact K.setPort s _ _ h

theorem received (s : State) (p : PortNo) (b : Byte) (fr : Bool) (h : P s) : P (s.receive p b fr) := by
  unfold State.receive
  dsimp only
  split
  · split
    · exact K.setPort s _ _ h
    · exact h
  · split_ifs
    · exact K.setPort s _ _ h
    · exact K.setPort s _ _ h
    · exact K.setPort s _ _ h
    · exact K.setPort s _ _ h
    · exact K.frameWhole s p _ h

theorem speed (s : State) (p : PortNo) (h : P s) : P (s.changeSpeed p) := by
  unfold State.changeSpeed
  dsimp only
  split
  · split
    · exact K.setPort s _ _ h
    · exact h
  · exact h

theorem gap (s : State) (p : PortNo) (h : P s) : P (s.gapExpired p) := by
  unfold State.gapExpired
  split
  · exact h
  · exact K.setPort s _ _ h

end KeptByRequests

/-! ### What most requests leave alone -/

theorem OnlyPorts.work {s t : State} (h : OnlyPorts s t) : OnlyWork s t := h.moves.stacks.work

/-- Every request but one that sets the time or writes the list leaves clock and list alone. -/
theorem perform_work (r : Request) (p : PortNo) (b : List Byte) (s : State)
    (h : r ≠ .setTime ∧ r ≠ .postEntry ∧ r ≠ .cancelEntry ∧ r ≠ .clearEntries) : OnlyWork s (perform r p b s).1 := by
  obtain ⟨htime, hpost, hcancel, hclear⟩ := h
  cases r
  case setTime => exact absurd rfl htime
  case postEntry => exact absurd rfl hpost
  case cancelEntry => exact absurd rfl hcancel
  case clearEntries => exact absurd rfl hclear
  case readPort => exact (reqReadPort_frame p b s).work
  case readEvents => exact (reqReadEvents_frame p b s).work
  case setMask => exact (reqSetMask_frame p b s).work
  case readOutcomes => exact (reqReadOutcomes_frame p b s).work
  case readTime => exact (reqReadTime_frame p b s).work
  case listEntries => exact (reqListEntries_frame p b s).work
  case setPosition => exact (reqSetPosition_frame p b s).work
  case release => exact (reqRelease_frame p b s).work
  case examinePosition => exact (reqExaminePosition_frame p b s).work
  case setCueLine => obtain ⟨_, h⟩ := reqSetCueLine_frame p b s; exact ⟨_, _, _, _, _, _, h, .rfl' _⟩
  case setSource => exact reqSetSource_frame p b s
  case readSource => exact (reqReadSource_frame p b s).work
  case setScan => obtain ⟨_, h⟩ := reqSetScan_frame p b s; exact ⟨_, _, _, _, _, _, h, .rfl' _⟩
  case ackFaults => exact (reqAckFaults_frame p b s).work
  case readHealth => exact (reqReadHealth_frame p b s).work
  case editPlan => exact (reqEditPlan_frame p b s).work
  case swapPlan => exact (reqSwapPlan_frame p b s).work
  case setFeedRate => exact (reqSetFeedRate_frame p b s).work
  case startFeed => exact (reqStartFeed_frame p b s).work
  case stopFeed => exact reqStopFeed_frame p b s
  case readPlan => exact (reqReadPlan_frame p b s).work
  case readFeed => exact (reqReadFeed_frame p b s).work
  case loadTable => exact (reqLoadTable_frame p b s).work
  case dropTable => exact (reqDropTable_frame p b s).work

theorem OnlyWork.clock {s t : State} (h : OnlyWork s t) : t.clock = s.clock := by
  obtain ⟨_, _, _, _, _, _, rfl, _⟩ := h; rfl

theorem OnlyWork.list {s t : State} (h : OnlyWork s t) : t.list = s.list := by
  obtain ⟨_, _, _, _, _, _, rfl, _⟩ := h; rfl

theorem OnlyPorts.clock {s t : State} (h : OnlyPorts s t) : t.clock = s.clock := h.work.clock

theorem OnlyList.clock {s t : State} (h : OnlyList s t) : t.clock = s.clock := by
  obtain ⟨_, rfl⟩ := h; rfl

/-- Every request but SET TIME leaves the clock alone. -/
theorem perform_clock (r : Request) (p : PortNo) (b : List Byte) (s : State) (h : r ≠ .setTime) :
    (perform r p b s).1.clock = s.clock := by
  by_cases hpost : r = .postEntry
  · subst hpost; exact (reqPostEntry_frame p b s).clock
  by_cases hcancel : r = .cancelEntry
  · subst hcancel; exact (reqCancelEntry_frame p b s).clock
  by_cases hclear : r = .clearEntries
  · subst hclear; exact (reqClearEntries_frame p b s).clock
  exact (perform_work r p b s ⟨h, hpost, hcancel, hclear⟩).clock

end Sys2Proof.Machine
end

section
/-! SUPPORT. The station clock stays sound (R3, R4, R6, R7, R11, R13). -/

namespace Sys2Proof.Machine

/-! ### Tick counts -/

/-- Ticks that pass lengthen a span of ticks, below 2^40. -/
theorem toNat_add_sub (a b : Tick) (d : Nat) (h : (a - b).toNat + d < 2 ^ 40) :
    (a + BitVec.ofNat 40 d - b).toNat = (a - b).toNat + d := by
  have e : a + BitVec.ofNat 40 d - b = (a - b) + BitVec.ofNat 40 d := by
    rw [BitVec.sub_eq_add_neg, BitVec.sub_eq_add_neg, BitVec.add_assoc, BitVec.add_comm (BitVec.ofNat 40 d), ← BitVec.add_assoc]
  rw [e, BitVec.toNat_add, BitVec.toNat_ofNat]
  omega

/-- The ticks left of a span. -/
theorem toNat_deadline (a u : Tick) (n : Nat) (h : (a - u).toNat ≤ n) (hn : n < 2 ^ 40) :
    (u + BitVec.ofNat 40 n - a).toNat = n - (a - u).toNat := by
  have := a.isLt
  have := u.isLt
  simp only [BitVec.toNat_sub, BitVec.toNat_add, BitVec.toNat_ofNat] at h ⊢
  omega

/-! ### Times of day -/

/-- The time of day one frame on is a time of day (R10). -/
theorem TimeOfDay.advance_valid {t : TimeOfDay} {r : FrameRate} (h : t.valid r = true) : (t.advance r).valid r = true := by
  have hfps : 0 < r.fps := by cases r <;> decide
  simp only [TimeOfDay.valid, Bool.and_eq_true, decide_eq_true_eq] at h ⊢
  unfold TimeOfDay.advance
  split_ifs <;> simp <;> omega

/-! ### The clock -/

theorem FrameRate.ticks_bounds (r : FrameRate) : 900000 ≤ r.ticks ∧ r.ticks ≤ 1080000 := by
  cases r <;> decide

theorem Clock.sound_reset (r : FrameRate) : (Clock.reset r).Sound := by
  cases r <;> simp [Clock.Sound, Clock.reset, TimeOfDay.valid, FrameRate.ticks, FrameRate.fps, Clock.untilUnderflow]

/-- Time passes on a sound clock as long as no underflow and no end of the late window comes sooner. -/
theorem Clock.sound_advance (s : State) (d : Nat) (quiet : s.soonest d = true) (h : s.clock.Sound) : (s.advance d).clock.Sound := by
  have due : ∀ e, e ∈ allTimed → ∀ n, s.dueIn e = some n → d ≤ n := by
    intro e he n hn
    simpa [hn] using List.all_eq_true.1 quiet e he
  have under : d ≤ s.clock.untilUnderflow := due .underflow (by simp [allTimed]) _ rfl
  obtain ⟨htod, hload, hrun, ⟨htimer, htimer'⟩, hat, ⟨hlow, hhigh⟩, hlate⟩ := h
  have hticks := s.clock.rate.ticks_bounds
  have span := toNat_add_sub s.clock.tick s.clock.frameStart d (by omega)
  have until' : (s.advance d).clock.untilUnderflow = s.clock.untilUnderflow - d := by
    simp only [Clock.untilUnderflow, State.advance_clock_atUnderflow, State.advance_clock_timer] at under ⊢
    cases hu : s.clock.atUnderflow <;> simp only [hu, if_true, Bool.true_or, Bool.false_or, Bool.false_eq_true, if_false] at under ⊢
    · split
      · simp_all
      · simp_all; omega
    · omega
  refine ⟨by simpa using htod, by simpa using hload, by simpa using hrun, ?timer, ?under, ?span, ?late⟩
  case timer => simp only [State.advance_clock_timer, State.advance_clock_rate]; omega
  case under =>
    simp only [State.advance_clock_atUnderflow, State.advance_clock_timer, Bool.or_eq_true, decide_eq_true_eq]
    rintro (hu | hu)
    · have := hat hu; omega
    · omega
  case span =>
    rw [until']
    simp only [State.advance_clock_tick, State.advance_clock_rate, State.advance_clock_frameStart, span]
    omega
  case late =>
    intro u hu
    rw [State.advance_clock_late] at hu
    obtain ⟨rfl, hopen, hsum⟩ := hlate u hu
    have close : d ≤ 271 - (s.clock.tick - s.clock.frameStart).toNat := by
      rw [← toNat_deadline s.clock.tick s.clock.frameStart 271 hopen (by norm_num)]
      exact due .lateExpiry (by simp [allTimed]) _ (by simp [State.dueIn, hu, Config.windowTicks])
    rw [until']
    simp only [State.advance_clock_tick, State.advance_clock_rate, State.advance_clock_frameStart, span]
    exact ⟨trivial, by omega, by omega⟩

/-- The clock's part of a frame event (R10, R11). -/
theorem State.clockFrame_clock (s : State) :
    s.clockFrame.clock =
      { s.clock with
        frameStart := s.clock.tick, tod := s.clock.load.getD (s.clock.tod.advance s.clock.rate), load := none } := by
  unfold State.clockFrame
  cases h : s.clock.load with
  | none => simp [h]
  | some t => exact (raiseAll_frame _ _).clock

/-- A frame event leaves a sound clock: its times are valid, the timer has just been reloaded, and the late window is closed or opens
now. -/
theorem Clock.sound_frameEvent (s : State) (o : FrameOrder) (htod : s.clock.tod.valid s.clock.rate = true)
    (hload : ∀ t, s.clock.load = some t → t.valid s.clock.rate = true) (hrun : s.clock.run ≤ 3)
    (htimer : s.clock.timer = s.clock.rate.ticks) (hat : s.clock.atUnderflow = false)
    (hlate : ∀ u, s.clock.late = some u → u = s.clock.tick) : (s.frameEvent o).clock.Sound := by
  have hticks := s.clock.rate.ticks_bounds
  rw [frameEvent_clock, State.clockFrame_clock]
  refine ⟨?tod, by simp, hrun, ?timer, by simp [hat], ?span, ?late⟩
  case tod =>
    cases h : s.clock.load with
    | none => exact TimeOfDay.advance_valid htod
    | some t => exact hload t h
  case timer => simp only [htimer]; omega
  case span => simp [Clock.untilUnderflow, hat, htimer]
  case late =>
    intro u hu
    obtain rfl := hlate u hu
    simp [Clock.untilUnderflow, hat, htimer]

/-- What the lock of the reference makes of the clock (R8). -/
theorem State.lockReference_clock (s : State) : s.lockReference.clock = { s.clock with ref := .locked } := by
  unfold State.lockReference
  dsimp only
  split
  · exact (raiseAll_frame _ _).clock
  · rfl

/-- What the expiry of the late window makes of the clock (R6). -/
theorem State.expireLate_clock (s : State) :
    s.expireLate.clock = { s.clock with late := none, ref := if s.clock.ref = .locked then .flywheel else s.clock.ref } := by
  unfold State.expireLate
  dsimp only
  split
  · exact (raiseAll_frame _ _).clock
  · rfl

theorem Clock.sound_expireLate (s : State) (h : s.clock.Sound) : s.expireLate.clock.Sound := by
  obtain ⟨htod, hload, hrun, htimer, hat, hspan, _⟩ := h
  rw [State.expireLate_clock]
  exact ⟨htod, hload, hrun, htimer, hat, hspan, by simp⟩

/-- A pulse is judged with the late window closed or still open: one before its 271st tick, or none. -/
theorem Clock.sound_judgePulse (s : State) (o : FrameOrder) (h : s.clock.Sound)
    (open' : s.clock.late.isSome → s.clock.inLateWindow = true) : (s.judgePulse o).clock.Sound := by
  obtain ⟨htod, hload, hrun, ⟨htimer, htimer'⟩, hat, ⟨hlow, hhigh⟩, hlate⟩ := h
  have hticks := s.clock.rate.ticks_bounds
  have early : s.clock.untilUnderflow ≤ s.clock.timer := by unfold Clock.untilUnderflow; split <;> omega
  unfold State.judgePulse
  split
  · have closed : s.clock.late = none := by
      cases hl : s.clock.late with
      | none => rfl
      | some u => have := hlate u hl; simp only [Config.windowTicks] at *; omega
    apply Clock.sound_frameEvent
    case hload => simpa [State.lockReference_clock, State.reloadTimer, State.setRun] using hload
    all_goals simp [State.lockReference_clock, State.reloadTimer, State.setRun, htod, closed]
  · split
    · rename_i hin
      obtain ⟨u, hu⟩ : ∃ u, s.clock.late = some u := by
        cases hl : s.clock.late with
        | none => simp [Clock.inLateWindow, hl] at hin
        | some u => exact ⟨u, rfl⟩
      obtain ⟨rfl, -, -⟩ := hlate u hu
      have near : (s.clock.tick - s.clock.frameStart).toNat ≤ 270 := by
        simp only [Clock.inLateWindow, hu, Config.windowTicks] at hin
        exact of_decide_eq_true hin
      simp only [State.lockReference_clock, State.reloadTimer, State.setRun]
      refine ⟨htod, hload, by simp, by simp only; omega, by simp, ?_, by simp⟩
      simp only [Clock.untilUnderflow, Bool.false_eq_true, if_false]
      omega
    · split
      · exact ⟨htod, hload, by simp only [State.setRun]; omega, ⟨htimer, htimer'⟩, hat, ⟨hlow, hhigh⟩, hlate⟩
      · have closed : s.clock.late = none := by
          cases hl : s.clock.late with
          | none => rfl
          | some u => exact absurd (open' (by simp [hl])) ‹_›
        apply Clock.sound_frameEvent
        case hload =>
          simpa [State.lockReference_clock, State.reloadTimer, State.setRun, (raiseAll_frame _ _).clock] using hload
        all_goals simp [State.lockReference_clock, State.reloadTimer, State.setRun, (raiseAll_frame _ _).clock, htod, closed]

theorem Clock.sound_pulse (s : State) (o : FrameOrder) (h : s.clock.Sound) : (s.pulse o).clock.Sound := by
  unfold State.pulse
  split
  · exact Clock.sound_judgePulse _ o (Clock.sound_expireLate s h) (by simp [State.expireLate_clock])
  · rename_i hopen
    exact Clock.sound_judgePulse s o h (by simpa using hopen)

theorem Clock.sound_underflow (s : State) (o : FrameOrder) (h : s.clock.Sound) : (s.underflow o).clock.Sound := by
  obtain ⟨htod, hload, hrun, -⟩ := h
  exact Clock.sound_frameEvent _ o htod hload hrun rfl rfl (by rintro u ⟨⟩; rfl)

/-- The second state differs from the first at most in one port. -/
def OnlyPort (s t : State) (p : PortNo) : Prop := ∃ x, t = s.setPort p x

theorem OnlyPort.clock {s t : State} {p : PortNo} (h : OnlyPort s t p) : t.clock = s.clock := by
  obtain ⟨_, rfl⟩ := h; rfl

theorem changeSpeed_port (s : State) (p : PortNo) : OnlyPort s (s.changeSpeed p) p := by
  unfold State.changeSpeed
  dsimp only
  split
  · split
    · exact ⟨_, rfl⟩
    · exact ⟨s.port p, by simp⟩
  · exact ⟨s.port p, by simp⟩

theorem gapExpired_port (s : State) (p : PortNo) : OnlyPort s (s.gapExpired p) p := by
  unfold State.gapExpired
  split
  · exact ⟨s.port p, by simp⟩
  · exact ⟨_, rfl⟩

/-- A timed event but an underflow and the end of the late window leaves the clock alone. -/
theorem State.takeTimed_clock (s : State) (o : FrameOrder) (e : TimedEvent) (hlate : e ≠ .lateExpiry) (hunder : e ≠ .underflow) :
    (s.takeTimed o e).clock = s.clock := by
  cases e
  case windowEnd => exact (endWindows_frame _ _ _).work.clock
  case forcedSwitch => exact (forceSwitch_frame _ _ _).stacks.work.clock
  case dueMaking => exact (makeDue_frame _ _ _).work.clock
  case lineSpeed p => exact (changeSpeed_port s p).clock
  case lateExpiry => exact absurd rfl hlate
  case slot => exact (slotEvent_frame _ _).work.clock
  case byteGap p => exact (gapExpired_port s p).clock
  case underflow => exact absurd rfl hunder

/-- SET TIME puts a valid time of day as the pending load, or nothing (R12). -/
theorem Clock.sound_setTime (p : PortNo) (b : List Byte) (s : State) (h : s.clock.Sound) : (reqSetTime p b s).1.clock.Sound := by
  unfold reqSetTime
  dsimp only
  split
  · rename_i valid
    obtain ⟨htod, -, hrun, htimer, hat, hspan, hlate⟩ := h
    exact ⟨htod, by rintro t ⟨⟩; exact valid, hrun, htimer, hat, hspan, hlate⟩
  · exact h

theorem Clock.soundKeptByRequests : KeptByRequests fun s => s.clock.Sound where
  ports _ _ h := h
  request r p b s _ h := by
    by_cases hr : r = .setTime
    · subst hr; exact Clock.sound_setTime p b s h
    · rw [perform_clock r p b s hr]; exact h

/-- The end of a load leaves the clock alone. -/
theorem State.readSections_clock (s : State) (b : List Byte) : (s.readSections b).clock = s.clock := by
  unfold State.readSections
  dsimp only
  split_ifs
  · rfl
  · unfold State.verdict
    split
    · rfl
    · split
      · split
        · obtain ⟨_, _, _, _, _, _, _, h⟩ := applyImage_frame _ _; rw [h]
        · rfl
      · rfl
  · rfl

theorem State.headerByte_clock (s : State) (b : Byte) : (s.headerByte b).clock = s.clock := by
  obtain ⟨_, _, h⟩ := headerByte_frame s b; rw [h]

theorem Clock.soundPreserved : Preserved fun s => s.clock.Sound where
  queue _ _ h := h
  reset r _ := Clock.sound_reset r
  release s b := Clock.sound_reset _
  header s b h := by rw [State.headerByte_clock]; exact h
  sections s b h := by rw [State.readSections_clock]; exact h
  time := Clock.sound_advance
  timed s o e h := by
    by_cases hlate : e = .lateExpiry
    · subst hlate; exact Clock.sound_expireLate s h
    by_cases hunder : e = .underflow
    · subst hunder; exact Clock.sound_underflow s o h
    rw [State.takeTimed_clock s o e hlate hunder]; exact h
  pulse := Clock.sound_pulse
  byte s i b h := by rw [(takeByte_frame s i b).work.clock]; exact h
  received := Clock.soundKeptByRequests.received
  accepted := Clock.soundKeptByRequests.accepted
  replied := Clock.soundKeptByRequests.replied

/-- Settles O52: each event keeps the clock sound, and so does time that runs on no further than the next underflow or the end of the
late window. -/
theorem stepKeepsClockSound : Obligations.StepKeepsClockSound :=
  fun _ _ h e => Clock.soundPreserved.step h e

end Sys2Proof.Machine
end

section
/-! SUPPORT. Every control port stays sound (R149, R151, R152, R159). -/

namespace Sys2Proof.Machine

/-! ### The application of an image, block by block -/

theorem State.applyImage_ports (s : State) (m : Image) : (s.applyImage m).ports = (s.applyPorts m).ports := by
  unfold State.applyImage
  dsimp only
  obtain ⟨_, h5⟩ := applyLines_frame _ m
  obtain ⟨_, h4⟩ := applyTables_frame _ m
  obtain ⟨_, h3⟩ := applyFeeds_frame _ m
  obtain ⟨_, h2⟩ := applyPositions_frame _ m
  obtain ⟨_, h1⟩ := applySources_frame _ m
  rw [h5, h4, h3, h2, h1]

/-- What the section bytes bring: nothing outside the read, no verdict before the last of them, and then the load's end without or with
an image that passes (R164 to R169). -/
theorem State.readSections_cases (s : State) (b : List Byte) :
    s.readSections b = s ∨
    s.loader.phase = .sections ∧
      ((∃ l : Loader, l.phase = .sections ∧ l.state = s.loader.state ∧ s.readSections b = { s with loader := l }) ∨
      (∃ l : Loader, l.phase = .ended ∧ s.readSections b = { s with loader := l, scan := ⟨0, 15, 0⟩ }) ∨
      ∃ (l : Loader) (m : Image), l.phase = .ended ∧ l.state = .ready ∧ imageOf l.store = some m ∧ m.passes s.clock.rate = true ∧
        s.readSections b = { s with loader := l }.applyImage m) := by
  unfold State.readSections
  dsimp only
  split_ifs with hphase hlast
  · exact .inl rfl
  · have hphase := not_ne_iff.1 hphase
    refine .inr ⟨hphase, .inr ?_⟩
    unfold State.verdict
    split
    · exact .inl ⟨_, rfl, rfl⟩
    · split
      · split
        · exact .inr ⟨_, _, rfl, rfl, ‹_›, ‹_›, rfl⟩
        · exact .inl ⟨_, rfl, rfl⟩
      · exact .inl ⟨_, rfl, rfl⟩
  · have hphase := not_ne_iff.1 hphase
    let read := b.take s.loader.remaining
    exact .inr ⟨hphase, .inl ⟨{ s.loader with
      store := s.loader.store ++ read
      crc := crc32Feed s.loader.crc read
      remaining := s.loader.remaining - read.length }, hphase, rfl, rfl⟩⟩

/-! ### Items -/

@[simp] theorem Item.isWaiting_waiting (q : Frame) : (Item.waiting q).isWaiting = true := rfl
@[simp] theorem Item.isWaiting_answering (b : List Byte) : (Item.answering b).isWaiting = false := rfl
@[simp] theorem Item.isWaiting_busyOwed (x y : Byte) : (Item.busyOwed x y).isWaiting = false := rfl
@[simp] theorem Item.isBusy_waiting (q : Frame) : (Item.waiting q).isBusy = false := rfl
@[simp] theorem Item.isBusy_answering (b : List Byte) : (Item.answering b).isBusy = false := rfl
@[simp] theorem Item.isBusy_busyOwed (x y : Byte) : (Item.busyOwed x y).isBusy = true := rfl

/-! ### A port on which the head of the reply list is still to be handled -/

/-- A port sound but for the head of its reply list, which may be a waiting request. -/
def ControlPort.Listed (x : ControlPort) : Prop :=
  x.log.length ≤ Config.logPlaces ∧ (x.replies.filter Item.isWaiting).length ≤ Config.replyPlaces ∧
    (x.replies.filter Item.isBusy).length ≤ Config.replyPlaces ∧ x.badFrames ≤ 65535 ∧
    (x.replies.tail.all fun i => !i.isAnswering) = true

/-- Every port is sound. -/
def State.PortsSound (s : State) : Prop := ∀ p, (s.port p).Sound

theorem ControlPort.Sound.listed {x : ControlPort} (h : x.Sound) : x.Listed := by
  obtain ⟨hlog, hwait, hbusy, hbad, -, htail⟩ := h
  exact ⟨hlog, hwait, hbusy, hbad, htail⟩

/-- What a port is told leaves it sound. -/
theorem ControlPort.Sound.told {x : ControlPort} {l : List Outcome} {n m : NoticeSet} (h : x.Sound)
    (hl : l.length ≤ Config.logPlaces) : ({ x with log := l, notices := n, mask := m } : ControlPort).Sound :=
  ⟨hl, h.2⟩

theorem Told.sound {u v : Vector ControlPort 4} (h : Told u v) {p : PortNo} (hp : (tget u p).Sound) : (tget v p).Sound := by
  obtain ⟨l, n, m, hv, hl⟩ := h p
  rw [hv]
  exact hp.told (hl hp.1)

theorem Told.listed {u v : Vector ControlPort 4} (h : Told u v) {p : PortNo} (hp : (tget u p).Listed) : (tget v p).Listed := by
  obtain ⟨l, n, m, hv, hl⟩ := h p
  rw [hv]
  exact ⟨hl hp.1, hp.2⟩

theorem OnlyBlocks.told {s t : State} (h : OnlyBlocks s t) : Told s.ports t.ports := by
  obtain ⟨_, _, _, _, _, _, _, _, rfl, h⟩ := h; exact h

theorem OnlyBlocks.portsSound {s t : State} (h : OnlyBlocks s t) (hs : s.PortsSound) : t.PortsSound :=
  fun p => h.told.sound (hs p)

/-- A port replaced by a sound one. -/
theorem State.PortsSound.setPort {s : State} (h : s.PortsSound) (p : PortNo) {x : ControlPort} (hx : x.Sound) :
    (s.setPort p x).PortsSound := by
  intro q
  rw [State.port_setPort]
  split
  · exact hx
  · exact h q

/-- The head handled: a waiting request becomes the reply being sent (R152). -/
theorem State.portsSound_handleHead (s : State) (p : PortNo) (h : ∀ q, q ≠ p → (s.port q).Sound) (hp : (s.port p).Listed) :
    (s.handleHead p).PortsSound := by
  unfold State.handleHead
  split
  · rename_i q rest hq
    have told := (execute_frame p q.code q.body s).told
    obtain ⟨hlog, hwait, hbusy, hbad, htail⟩ := told.listed hp
    obtain ⟨l, n, m, hport, -⟩ := told p
    intro k
    rw [State.setReplies_port]
    split
    · have replies : ((execute p q.code q.body s).1.port p).replies = .waiting q :: rest := by
        have : (s.port p).replies = .waiting q :: rest := ‹_›
        unfold State.port
        rw [hport]
        exact this
      unfold State.port at replies
      rw [replies] at hwait hbusy htail
      refine ⟨hlog, ?_, ?_, hbad, rfl, htail⟩
      · simp [List.filter_cons] at hwait ⊢; omega
      · simpa [List.filter_cons] using hbusy
    · exact told.sound (h k (Ne.symm ‹_›))
  · rename_i hhead
    intro k
    by_cases e : k = p
    · subst e
      obtain ⟨hlog, hwait, hbusy, hbad, htail⟩ := hp
      refine ⟨hlog, hwait, hbusy, hbad, ?_, htail⟩
      cases hr : (s.port k).replies with
      | nil => rfl
      | cons i rest =>
        cases i with
        | waiting q => exact absurd hr (hhead q rest)
        | answering _ => rfl
        | busyOwed _ _ => rfl
    · exact h k e

theorem State.portsSound_receiveError (s : State) (p : PortNo) (h : s.PortsSound) : (s.receiveError p).PortsSound := by
  obtain ⟨hlog, hwait, hbusy, -, hhead, htail⟩ := h p
  exact h.setPort p ⟨hlog, hwait, hbusy, by simp [sat16], hhead, htail⟩

/-- An item joins a list that is not empty. -/
theorem State.portsSound_append (s : State) (p : PortNo) (i : Item) (h : s.PortsSound) (hne : (s.port p).replies ≠ [])
    (hi : i.isAnswering = false)
    (hw : (((s.port p).replies ++ [i]).filter Item.isWaiting).length ≤ Config.replyPlaces)
    (hb : (((s.port p).replies ++ [i]).filter Item.isBusy).length ≤ Config.replyPlaces) :
    (s.setReplies p ((s.port p).replies ++ [i])).PortsSound := by
  obtain ⟨hlog, -, -, hbad, hhead, htail⟩ := h p
  refine h.setPort p ⟨hlog, hw, hb, hbad, ?_, ?_⟩
  · obtain ⟨a, l, e⟩ := List.exists_cons_of_ne_nil hne
    simpa [e] using hhead
  · obtain ⟨a, l, e⟩ := List.exists_cons_of_ne_nil hne
    simp [e, hi] at htail ⊢
    exact htail

/-- A frame joins the reply list, or is a receive error (R151). -/
theorem State.portsSound_acceptFrame (s : State) (p : PortNo) (q : Frame) (h : s.PortsSound) : (s.acceptFrame p q).PortsSound := by
  obtain ⟨hlog, hwait, hbusy, hbad, hhead, htail⟩ := h p
  unfold State.acceptFrame
  dsimp only
  split
  · rename_i room
    split
    · rename_i hempty
      rw [List.isEmpty_iff] at hempty
      apply State.portsSound_handleHead
      · intro k hk
        simpa [Ne.symm hk] using h k
      · simp [hempty, ControlPort.Listed, hlog, hbad, List.filter_cons, Config.replyPlaces]
    · rename_i hne
      refine s.portsSound_append p _ h (by simpa using hne) rfl ?_ ?_
      · simp [List.filter_cons]; omega
      · simpa [List.filter_cons] using hbusy
  · split
    · rename_i full room
      refine s.portsSound_append p _ h ?_ rfl ?_ ?_
      · intro e; simp [e, Config.replyPlaces] at full
      · simpa [List.filter_cons] using hwait
      · simp [List.filter_cons]; omega
    · exact s.portsSound_receiveError p h

/-- The reply at the head leaves, and the new head is handled (R152). -/
theorem State.portsSound_replyDone (s : State) (p : PortNo) (h : s.PortsSound) : (s.replyDone p).PortsSound := by
  obtain ⟨hlog, hwait, hbusy, hbad, hhead, htail⟩ := h p
  unfold State.replyDone
  split
  · exact h
  · rename_i i rest e
    apply State.portsSound_handleHead
    · intro k hk
      simpa [Ne.symm hk] using h k
    · rw [e] at hwait hbusy htail
      have sub : rest.Sublist (i :: rest) := List.sublist_cons_self i rest
      rw [State.setReplies_port, if_pos rfl]
      refine ⟨hlog, ((sub.filter _).length_le).trans hwait, ((sub.filter _).length_le).trans hbusy, hbad, ?_⟩
      rw [List.tail_cons, List.all_eq_true] at htail
      exact List.all_eq_true.2 fun x hx => htail x (List.mem_of_mem_tail hx)

/-- The receiver's own fields play no part in a port's soundness. -/
theorem State.PortsSound.setRx {s : State} (h : s.PortsSound) (p : PortNo) (r : Rx) :
    (s.setPort p { s.port p with rx := r }).PortsSound := h.setPort p (h p)

theorem State.portsSound_receive (s : State) (p : PortNo) (b : Byte) (fr : Bool) (h : s.PortsSound) :
    (s.receive p b fr).PortsSound := by
  unfold State.receive
  dsimp only
  split
  · split
    · exact h.setRx p _
    · exact h
  · split_ifs
    · exact s.portsSound_receiveError p h
    · exact h.setRx p _
    · exact s.portsSound_receiveError p h
    · exact h.setRx p _
    · unfold State.frameWhole
      dsimp only
      split
      · exact State.portsSound_acceptFrame _ p _ (h.setRx p _)
      · exact s.portsSound_receiveError p h

theorem State.portsSound_changeSpeed (s : State) (p : PortNo) (h : s.PortsSound) : (s.changeSpeed p).PortsSound := by
  unfold State.changeSpeed
  dsimp only
  split
  · split
    · exact h.setPort p (h p)
    · exact h
  · exact h

theorem State.portsSound_gapExpired (s : State) (p : PortNo) (h : s.PortsSound) : (s.gapExpired p).PortsSound := by
  unfold State.gapExpired
  split
  · exact h
  · exact s.portsSound_receiveError p h

/-- A record of the ports section writes authority, quota and speed (R168). -/
theorem State.applyPort_port (s : State) (p q : PortNo) (r : PortRecord) :
    (s.applyPort p r).port q =
      if p = q then
        { s.port p with
          authority := r.authority, pendingSpeed := if r.speed = (s.port p).speed then none else some r.speed }
      else s.port q :=
  s.port_setPort p q _

theorem State.portsSound_applyPort (s : State) (r : PortNo × PortRecord) (h : s.PortsSound) :
    (s.applyPort r.1 r.2).PortsSound := by
  intro q
  rw [State.applyPort_port]
  split
  · exact h r.1
  · exact h q

theorem State.portsSound_applyPorts (s : State) (m : Image) (h : s.PortsSound) : (s.applyPorts m).PortsSound :=
  foldl_keeps State.PortsSound _ State.portsSound_applyPort _ s h

theorem State.portsSound_readSections (s : State) (b : List Byte) (h : s.PortsSound) : (s.readSections b).PortsSound := by
  obtain e | ⟨-, ⟨_, -, -, e⟩ | ⟨_, -, e⟩ | ⟨l, m, -, -, -, -, e⟩⟩ := s.readSections_cases b
  · rw [e]; exact h
  · rw [e]; exact h
  · rw [e]; exact h
  · intro p
    have sound := State.portsSound_applyPorts { s with loader := l } m h p
    rw [e]
    unfold State.port at sound ⊢
    rw [State.applyImage_ports]
    exact sound

theorem State.portsSound_heldAt (r : FrameRate) (q : List Instr) : (State.heldAt r q).PortsSound := by
  intro p
  fin_cases p <;> simp [State.heldAt, State.port, tget, ControlPort.reset, ControlPort.Sound]

theorem State.portsSound_takeTimed (s : State) (o : FrameOrder) (e : TimedEvent) (h : s.PortsSound) :
    (s.takeTimed o e).PortsSound := by
  cases e
  case windowEnd => exact (endWindows_frame _ _ _).work.blocks.portsSound h
  case forcedSwitch => exact (forceSwitch_frame _ _ _).stacks.work.blocks.portsSound h
  case dueMaking => exact (makeDue_frame _ _ _).work.blocks.portsSound h
  case lineSpeed p => exact s.portsSound_changeSpeed p h
  case lateExpiry => exact (expireLate_frame s).portsSound h
  case slot => exact (slotEvent_frame _ _).work.blocks.portsSound h
  case byteGap p => exact s.portsSound_gapExpired p h
  case underflow => exact (underflow_frame s o).portsSound h

theorem State.portsSoundPreserved : Preserved State.PortsSound where
  queue _ _ h := h
  reset := State.portsSound_heldAt
  release s b := by rw [State.release]; exact State.portsSound_heldAt (.ofFrsel b) s.pending
  header s b h := by obtain ⟨_, _, e⟩ := headerByte_frame s b; rw [e]; exact h
  sections := State.portsSound_readSections
  time s d _ h := by intro p; rw [State.advance_port]; exact h p
  timed := State.portsSound_takeTimed
  pulse s o h := (pulse_frame s o).portsSound h
  byte s i b h := (takeByte_frame s i b).work.blocks.portsSound h
  received := State.portsSound_receive
  accepted := State.portsSound_acceptFrame
  replied := State.portsSound_replyDone

/-- Settles O57: an item joins the reply list within its bounds, and what comes to the head is handled at once. -/
theorem stepKeepsPortsSound : Obligations.StepKeepsPortsSound :=
  fun _ _ h e => State.portsSoundPreserved.step h e

end Sys2Proof.Machine
end

section
/-! SUPPORT. What the rings hold (R91 to R93): while a cursor is attached to a ring, as many packets as the largest lag; and the events
that move cursors keep it so. -/

namespace Sys2Proof.Machine

/-! ### Every number -/

theorem mem_allFeeds (f : FeedNo) : f ∈ allFeeds := by fin_cases f <;> decide
theorem mem_allPlaces (p : PosNo) : p ∈ allPlaces := by fin_cases p <;> decide
theorem mem_allSources (i : SrcNo) : i ∈ allSources := by fin_cases i <;> decide
theorem mem_allPorts (p : PortNo) : p ∈ allPorts := by fin_cases p <;> decide

theorem mem_allPositions (f : FeedNo) (p : PosNo) : (f, p) ∈ allPositions := by
  simp [allPositions, mem_allFeeds, mem_allPlaces]

/-! ### Lags -/

/-- A cursor of a position is attached to the ring of a source at a lag (R92); a preview cursor stands at lag 0. -/
def Position.readsAt (x : Position) (i : SrcNo) (l : Nat) : Prop := x.onAir = some ⟨i, l⟩ ∨ x.slot.target = some i ∧ l = 0

theorem State.mem_lags (s : State) (i : SrcNo) (l : Nat) : l ∈ s.lags i ↔ ∃ f p, (s.pos f p).readsAt i l := by
  unfold State.lags Position.readsAt
  simp only [List.mem_flatMap, Prod.exists, List.mem_append]
  refine exists_congr fun f => exists_congr fun p => (and_iff_right (mem_allPositions f p)).trans (or_congr ?_ ?_)
  · cases h : (s.pos f p).onAir with
    | none => simp
    | some c =>
      obtain ⟨j, k⟩ := c
      by_cases e : j = i
      · simp [e, eq_comm]
      · simp [e]
  · by_cases e : (s.pos f p).slot.target = some i <;> simp [e]

theorem State.lags_congr {s t : State} (h : t.positions = s.positions) (i : SrcNo) : t.lags i = s.lags i := by
  unfold State.lags State.pos
  rw [h]

theorem foldl_max_le (l : List Nat) (a n : Nat) : l.foldl max a ≤ n ↔ a ≤ n ∧ ∀ x ∈ l, x ≤ n := by
  induction l generalizing a with
  | nil => simp
  | cons x l ih => simp [ih, and_assoc]

/-- The backlog is the least bound of the lags. -/
theorem State.backlog_le (s : State) (i : SrcNo) (n : Nat) : s.backlog i ≤ n ↔ ∀ l ∈ s.lags i, l ≤ n := by
  simp [State.backlog, foldl_max_le]

theorem State.le_backlog (s : State) (i : SrcNo) {l : Nat} (h : l ∈ s.lags i) : l ≤ s.backlog i :=
  (s.backlog_le i _).1 le_rfl l h

/-! ### Rings in part -/

/-- The rings are sound but for those of some sources, and no lag is larger than what its ring holds. -/
def State.RingsBut (s : State) (bad : SrcNo → Prop) : Prop :=
  (∀ f p i l, (s.pos f p).readsAt i l → l ≤ (s.src i).ring.length) ∧
    ∀ i, ¬bad i → s.lags i ≠ [] → (s.src i).ring.length = s.backlog i

theorem State.ringsSound_iff (s : State) : s.RingsSound ↔ s.RingsBut fun _ => False := by
  refine ⟨fun h => ⟨fun f p i l hl => ?_, fun i _ => h i⟩, fun h i => h.2 i id⟩
  have mem := (s.mem_lags i l).2 ⟨f, p, hl⟩
  rw [h i (List.ne_nil_of_mem mem)]
  exact s.le_backlog i mem

theorem State.RingsBut.mono {s : State} {bad bad' : SrcNo → Prop} (h : s.RingsBut bad) (sub : ∀ i, bad i → bad' i) :
    s.RingsBut bad' :=
  ⟨h.1, fun i hi => h.2 i (mt (sub i) hi)⟩

/-- Only positions and rings play a part. -/
theorem State.RingsBut.congr {s t : State} {bad : SrcNo → Prop} (h : s.RingsBut bad) (hp : t.positions = s.positions)
    (hr : ∀ i, (t.src i).ring = (s.src i).ring) : t.RingsBut bad := by
  refine ⟨fun f p i l hl => ?_, fun i hi hne => ?_⟩
  · rw [hr]
    unfold State.pos at hl
    rw [hp] at hl
    exact h.1 f p i l hl
  · rw [hr]
    unfold State.backlog
    rw [State.lags_congr hp] at hne ⊢
    exact h.2 i hi hne

theorem State.RingsBut.told {s t : State} {bad : SrcNo → Prop} (h : s.RingsBut bad) (o : OnlyPorts s t) : t.RingsBut bad := by
  obtain ⟨_, rfl, _⟩ := o; exact h.congr rfl fun _ => rfl

theorem State.trim_positions (s : State) (x : SrcNo) : (s.trim x).positions = s.positions := by
  obtain ⟨_, h, _⟩ := trim_frame s x; rw [h]

theorem State.trim_pos (s : State) (x : SrcNo) (f : FeedNo) (p : PosNo) : (s.trim x).pos f p = s.pos f p := by
  unfold State.pos; rw [State.trim_positions]

/-- What a trim leaves in a ring (R91). -/
theorem State.trim_ring (s : State) (x i : SrcNo) :
    ((s.trim x).src i).ring =
      if i = x ∧ s.lags x ≠ [] then (s.src i).ring.drop ((s.src i).ring.length - s.backlog i) else (s.src i).ring := by
  unfold State.trim
  by_cases hx : s.lags x = []
  · simp [hx]
  · rw [if_neg (by simpa using hx), State.src_setSrc]
    by_cases e : x = i
    · subst e; simp [hx]
    · simp [e, Ne.symm e]

/-- A trim mends its own ring, and no lag becomes larger than its ring (R91). -/
theorem State.RingsBut.trim {s : State} {bad : SrcNo → Prop} (h : s.RingsBut bad) (x : SrcNo) :
    (s.trim x).RingsBut fun i => bad i ∧ i ≠ x := by
  have cover : ∀ i, s.backlog i ≤ (s.src i).ring.length := by
    intro i
    rw [State.backlog_le]
    intro l hl
    obtain ⟨f, p, hr⟩ := (s.mem_lags i l).1 hl
    exact h.1 f p i l hr
  have lags : ∀ i, (s.trim x).lags i = s.lags i := State.lags_congr (s.trim_positions x)
  refine ⟨fun f p i l hl => ?_, fun i hi hne => ?_⟩
  · rw [State.trim_pos] at hl
    have hmem := s.le_backlog i ((s.mem_lags i l).2 ⟨f, p, hl⟩)
    have := cover i
    rw [State.trim_ring]
    split
    · rw [List.length_drop]; omega
    · omega
  · have hb : (s.trim x).backlog i = s.backlog i := by unfold State.backlog; rw [lags]
    rw [lags] at hne
    rw [hb, State.trim_ring]
    have := cover i
    split
    · rw [List.length_drop]; omega
    · rename_i hk
      exact h.2 i (fun hbad => hi ⟨hbad, fun e => hk ⟨e, e ▸ hne⟩⟩) hne

theorem State.RingsBut.trimOpt {s : State} {bad : SrcNo → Prop} (h : s.RingsBut bad) (o : Option SrcNo) :
    (s.trimOpt o).RingsBut fun i => bad i ∧ o ≠ some i := by
  cases o with
  | none => exact h.mono fun i hi => ⟨hi, by simp⟩
  | some x => exact (h.trim x).mono fun i hi => ⟨hi.1, by simpa [eq_comm] using hi.2⟩

/-- A position replaced: the rings on which its cursors stand otherwise than before may be wrong. -/
theorem State.RingsBut.setPos {s : State} {bad bad' : SrcNo → Prop} (h : s.RingsBut bad) (f : FeedNo) (p : PosNo) (y : Position)
    (cover : ∀ i l, y.readsAt i l → l ≤ (s.src i).ring.length)
    (same : ∀ i, ¬bad' i → ¬bad i ∧ ∀ l, y.readsAt i l ↔ (s.pos f p).readsAt i l) : (s.setPos f p y).RingsBut bad' := by
  refine ⟨fun g q i l hl => ?_, fun i hi hne => ?_⟩
  · rw [State.setPos_src]
    rw [State.pos_setPos] at hl
    split at hl
    · exact cover i l hl
    · exact h.1 g q i l hl
  · obtain ⟨hbad, hsame⟩ := same i hi
    have mem : ∀ l, l ∈ (s.setPos f p y).lags i ↔ l ∈ s.lags i := by
      intro l
      rw [State.mem_lags, State.mem_lags]
      refine exists_congr fun g => exists_congr fun q => ?_
      rw [State.pos_setPos]
      split
      · rename_i e; obtain ⟨rfl, rfl⟩ := e; exact hsame l
      · exact Iff.rfl
    have ne : s.lags i ≠ [] := by
      obtain ⟨l, hl⟩ := List.exists_mem_of_ne_nil _ hne
      exact List.ne_nil_of_mem ((mem l).1 hl)
    rw [State.setPos_src, h.2 i hbad ne]
    apply le_antisymm
    · rw [State.backlog_le]; exact fun l hl => State.le_backlog _ i ((mem l).2 hl)
    · rw [State.backlog_le]; exact fun l hl => State.le_backlog _ i ((mem l).1 hl)

/-- A position replaced by one whose cursors stand as before. -/
theorem State.RingsBut.setPos_same {s : State} {bad : SrcNo → Prop} (h : s.RingsBut bad) (f : FeedNo) (p : PosNo) (y : Position)
    (hair : y.onAir = (s.pos f p).onAir) (hslot : y.slot.target = (s.pos f p).slot.target) : (s.setPos f p y).RingsBut bad := by
  have same : ∀ i l, y.readsAt i l ↔ (s.pos f p).readsAt i l := by
    intro i l; unfold Position.readsAt; rw [hair, hslot]
  exact h.setPos f p y (fun i l hl => h.1 f p i l ((same i l).1 hl)) fun i hi => ⟨hi, same i⟩

theorem Position.readsAt_onAir {x : Position} {i : SrcNo} {l : Nat} (h : x.onAir = some ⟨i, l⟩) : x.onAirSource = some i := by
  simp [Position.onAirSource, h]

/-- A move of the on-air cursor mends every ring that it leaves or joins (R58, R91). -/
theorem State.RingsBut.moveOnAir {s : State} {bad : SrcNo → Prop} (h : s.RingsBut bad) (f : FeedNo) (p : PosNo) (c : Option Cursor)
    (m : BitVec 4) (hc : ∀ k, c = some k → k.lag ≤ (s.src k.source).ring.length) : (s.moveOnAir f p c m).RingsBut bad := by
  have moved := h.setPos (bad' := fun i => bad i ∨ c.map Cursor.source = some i ∨ (s.pos f p).onAirSource = some i ∨
      (s.pos f p).slot.target = some i) f p { s.pos f p with slot := .steady, onAir := c, marks := m } ?cover ?same
  case cover =>
    rintro i l (hl | ⟨hl, -⟩)
    · exact hc ⟨i, l⟩ hl
    · simp [Slot.target] at hl
  case same =>
    intro i hi
    simp only [not_or] at hi
    obtain ⟨hbad, hnew, hold, htarget⟩ := hi
    refine ⟨hbad, fun l => ⟨?_, ?_⟩⟩
    · rintro (hl | ⟨hl, -⟩)
      · exact absurd (by simp [show c = some ⟨i, l⟩ from hl]) hnew
      · simp [Slot.target] at hl
    · rintro (hl | ⟨hl, -⟩)
      · exact absurd (Position.readsAt_onAir hl) hold
      · exact absurd hl htarget
  refine (((moved.trimOpt (c.map Cursor.source)).trimOpt (s.pos f p).onAirSource).trimOpt (s.pos f p).slot.target).mono ?_
  rintro i ⟨⟨⟨hbad | hi | hi | hi, h1⟩, h2⟩, h3⟩
  · exact hbad
  · exact absurd hi h1
  · exact absurd hi h2
  · exact absurd hi h3

theorem State.RingsBut.switchNow {s : State} {bad : SrcNo → Prop} (h : s.RingsBut bad) (f : FeedNo) (p : PosNo) (t : Option SrcNo) :
    (s.switchNow f p t).RingsBut bad := by
  cases t with
  | none => exact h.moveOnAir f p none _ (by simp)
  | some i => exact h.moveOnAir f p (some ⟨i, 0⟩) _ (by rintro k ⟨⟩; exact Nat.zero_le _)

theorem State.RingsBut.seek {s : State} {bad : SrcNo → Prop} (h : s.RingsBut bad) (f : FeedNo) (p : PosNo) (t : SrcNo) (w : Nat)
    (o : Option Owner) : (s.seek f p t w o).RingsBut bad := by
  have moved := h.setPos (bad' := fun i => bad i ∨ i = t ∨ (s.pos f p).slot.target = some i) f p
      { s.pos f p with slot := .seeking t w o } ?cover ?same
  case cover =>
    rintro i l (hl | ⟨-, rfl⟩)
    · exact h.1 f p i l (.inl hl)
    · exact Nat.zero_le _
  case same =>
    intro i hi
    simp only [not_or] at hi
    obtain ⟨hbad, hnew, htarget⟩ := hi
    refine ⟨hbad, fun l => or_congr Iff.rfl (and_congr ?_ Iff.rfl)⟩
    exact iff_of_false (by simpa [Slot.target] using Ne.symm hnew) htarget
  refine ((moved.trim t).trimOpt (s.pos f p).slot.target).mono ?_
  rintro i ⟨⟨hbad | hi | hi, h1⟩, h2⟩
  · exact hbad
  · exact absurd hi h1
  · exact absurd hi h2

theorem State.RingsBut.takeChange {s : State} {bad : SrcNo → Prop} (h : s.RingsBut bad) (f : FeedNo) (p : PosNo) (t : Option SrcNo)
    (policy : Splice) (o : Option Owner) : (s.takeChange f p t policy o).RingsBut bad := by
  unfold State.takeChange
  dsimp only
  split
  · split
    · exact h.told (ownerDone_frame _ _ _ _ _)
    · split
      · exact h.seek _ _ _ _ _
      · exact (h.switchNow _ _ _).told (ownerDone_frame _ _ _ _ _)
  · rename_i target wait old hslot
    have told := ownerDone_frame s f p old { OutcomeFlags.none with superseded := true }
    have h1 := h.told told
    split
    · refine State.RingsBut.told ?_ (ownerDone_frame _ _ _ _ _)
      have moved := h1.setPos (bad' := fun i => bad i ∨ i = target) f p { s.pos f p with slot := .steady } ?cover ?same
      case cover =>
        rintro i l (hl | ⟨hl, -⟩)
        · exact h1.1 f p i l (.inl (by rw [told.pos]; exact hl))
        · simp [Slot.target] at hl
      case same =>
        intro i hi
        simp only [not_or] at hi
        refine ⟨hi.1, fun l => ?_⟩
        rw [told.pos]
        refine or_congr Iff.rfl (and_congr ?_ Iff.rfl)
        simp [hslot, Slot.target, Ne.symm hi.2]
      refine (moved.trim target).mono ?_
      rintro i ⟨hbad | hi, h2⟩
      · exact hbad
      · exact absurd hi h2
    · split
      · exact h1.seek _ _ _ _ _
      · exact (h1.switchNow _ _ _).told (ownerDone_frame _ _ _ _ _)

theorem State.RingsBut.handOver {s : State} {bad : SrcNo → Prop} (h : s.RingsBut bad) (f : FeedNo) (p : PosNo) (b : Option SrcNo)
    (policy : Splice) (o : Option Owner) : (s.handOver f p b policy o).RingsBut bad := by
  unfold State.handOver
  split
  · exact h.takeChange f p _ policy o
  · exact h

theorem State.RingsBut.forceSwitch {s : State} {bad : SrcNo → Prop} (h : s.RingsBut bad) (f : FeedNo) (p : PosNo) :
    (s.forceSwitch f p).RingsBut bad := by
  unfold State.forceSwitch
  split
  · exact (h.switchNow f p (some _)).told (ownerDone_frame _ _ _ _ _)
  · exact h

theorem State.RingsBut.restPosition {s : State} {bad : SrcNo → Prop} (h : s.RingsBut bad) (f : FeedNo) (p : PosNo) :
    (s.restPosition f p).RingsBut bad :=
  (h.moveOnAir f p none 0 (by simp)).told (ownerDone_frame _ _ _ _ _)

theorem State.RingsBut.attachPosition {s : State} {bad : SrcNo → Prop} (h : s.RingsBut bad) (f : FeedNo) (p : PosNo) :
    (s.attachPosition f p).RingsBut bad := by
  unfold State.attachPosition
  split
  · exact h.switchNow f p (some _)
  · exact h.moveOnAir f p none 0 (by simp)

/-! ### The stacks -/

theorem State.RingsBut.outcomes {α : Type} {s : State} {bad : SrcNo → Prop} (h : s.RingsBut bad) (g : State → α → State)
    (hg : ∀ s a, OnlyPorts s (g s a)) (l : List α) : (l.foldl g s).RingsBut bad :=
  h.told (foldl_rel OnlyPorts OnlyPorts.rfl' OnlyPorts.trans g hg l s)

theorem State.RingsBut.endWindows {s : State} {bad : SrcNo → Prop} (h : s.RingsBut bad) (f : FeedNo) (p : PosNo) :
    (s.endWindows f p).RingsBut bad := by
  refine State.RingsBut.outcomes (State.RingsBut.handOver ?_ f p _ _ _) _ (fun s _ => addOutcome_frame s _ _) _
  exact h.setPos_same f p _ rfl rfl

theorem State.RingsBut.judgePosition {s : State} {bad : SrcNo → Prop} (h : s.RingsBut bad) (f : FeedNo) (p : PosNo)
    (k : Option SrcNo → Bool) : (s.judgePosition f p k).RingsBut bad := by
  refine State.RingsBut.handOver ?_ f p _ _ _
  exact h.setPos_same f p _ rfl rfl

/-- What the judging of one position's marks keeps, a change of a source's health keeps (R51). -/
theorem healthChanged_keeps (P : State → Prop) (judge : ∀ s f p k, P s → P (State.judgePosition s f p k)) (s : State) (i : SrcNo)
    (h : P s) : P (s.healthChanged i) := by
  unfold State.healthChanged
  generalize allPositions = l
  induction l generalizing s with
  | nil => exact h
  | cons fp l ih => rw [List.foldl_cons]; exact ih _ (judge _ _ _ _ h)

/-- So does a change of its fallback permit (R51, R86). -/
theorem permitChanged_keeps (P : State → Prop) (judge : ∀ s f p k, P s → P (State.judgePosition s f p k)) (s : State) (i : SrcNo)
    (h : P s) : P (s.permitChanged i) := by
  unfold State.permitChanged
  generalize allPositions = l
  induction l generalizing s with
  | nil => exact h
  | cons fp l ih => rw [List.foldl_cons]; exact ih _ (judge _ _ _ _ h)

theorem State.RingsBut.healthChanged {s : State} {bad : SrcNo → Prop} (h : s.RingsBut bad) (i : SrcNo) :
    (s.healthChanged i).RingsBut bad :=
  healthChanged_keeps (State.RingsBut · bad) (fun _ f p k h => h.judgePosition f p k) s i h

theorem State.RingsBut.permitChanged {s : State} {bad : SrcNo → Prop} (h : s.RingsBut bad) (i : SrcNo) :
    (s.permitChanged i).RingsBut bad :=
  permitChanged_keeps (State.RingsBut · bad) (fun _ f p k h => h.judgePosition f p k) s i h

theorem State.RingsBut.entryStacked {s : State} {bad : SrcNo → Prop} (h : s.RingsBut bad) (e : Entry) (b : Option SrcNo) (k : Bool) :
    (s.entryStacked e b k).RingsBut bad := by
  unfold State.entryStacked
  split
  · exact h.takeChange _ _ _ _ _
  · exact h.told (addOutcome_frame _ _ _)

theorem State.RingsBut.feeds {s t : State} {bad : SrcNo → Prop} (h : s.RingsBut bad) (o : OnlyFeeds s t) : t.RingsBut bad := by
  obtain ⟨_, _, rfl, _⟩ := o; exact h.congr rfl fun _ => rfl

theorem State.RingsBut.fire {s : State} {bad : SrcNo → Prop} (h : s.RingsBut bad) (e : Entry) : (s.fire e).RingsBut bad := by
  unfold State.fire
  split
  · unfold State.fireTake
    dsimp only
    split
    · exact h.told (addOutcome_frame _ _ _)
    · refine State.RingsBut.entryStacked ?_ _ _ _
      exact h.setPos_same _ _ _ rfl rfl
  · unfold State.fireReturn
    dsimp only
    split
    · refine State.RingsBut.entryStacked ?_ _ _ _
      exact h.setPos_same _ _ _ rfl rfl
    · exact h.told (addOutcome_frame _ _ _)
  · refine State.RingsBut.entryStacked ?_ _ _ _
    exact h.setPos_same _ _ _ rfl rfl
  · exact h.feeds (firePlan_frame _ _)
  · exact h.told (addOutcome_frame _ _ _)

theorem State.RingsBut.passEntries {bad : SrcNo → Prop} (b : Bool) (l : List Entry) {s : State} (h : s.RingsBut bad) :
    (passEntries b l s).1.RingsBut bad := by
  have cue : ∀ (s : State) (e : Entry) (k : Bool), s.RingsBut bad → (s.applyCue e k).1.RingsBut bad := by
    intro s e k h
    unfold State.applyCue
    split
    · split
      · exact h.congr rfl fun _ => rfl
      · exact h
    · exact h
  induction l generalizing s with
  | nil => exact h
  | cons e l ih =>
    unfold Machine.passEntries
    split
    · exact ih ((cue _ _ _ h).fire _)
    · exact ih (h.told (addOutcome_frame _ _ _))
    · exact ih (cue _ _ _ h)

theorem State.RingsBut.pass {s : State} {bad : SrcNo → Prop} (h : s.RingsBut bad) (b : Bool) : (s.pass b).RingsBut bad :=
  (h.passEntries b _).congr rfl fun _ => rfl

/-! ### Sources and feeds -/

/-- A source replaced by one with the same ring. -/
theorem State.RingsBut.setSrc {s : State} {bad : SrcNo → Prop} (h : s.RingsBut bad) (i : SrcNo) (x : Source)
    (hx : x.ring = (s.src i).ring) : (s.setSrc i x).RingsBut bad := by
  refine h.congr rfl fun j => ?_
  rw [State.src_setSrc]
  split
  · rename_i e; rw [hx, e]
  · rfl

theorem State.RingsBut.healthMoved {s : State} {bad : SrcNo → Prop} (h : s.RingsBut bad) (i : SrcNo) (b : Health) :
    (s.healthMoved i b).RingsBut bad := by
  unfold State.healthMoved
  dsimp only
  split
  · exact h
  · apply State.RingsBut.healthChanged
    split_ifs
    · exact h.told (raiseAll_frame _ _)
    · exact h.told (raiseAll_frame _ _)
    · exact h
    · exact h

theorem State.RingsBut.examine {s : State} {bad : SrcNo → Prop} (h : s.RingsBut bad) : s.examine.RingsBut bad := by
  have judged : (if (s.src s.scan.pointer).table.enabled then
      (s.setSrc s.scan.pointer ((s.src s.scan.pointer).examined s.clock.tod)).healthMoved s.scan.pointer (s.src s.scan.pointer).health
      else s.setSrc s.scan.pointer (s.src s.scan.pointer).resetInterval).RingsBut bad := by
    split
    · refine State.RingsBut.healthMoved ?_ _ _
      exact h.setSrc _ _ rfl
    · exact h.setSrc _ _ rfl
  exact judged.congr rfl fun _ => rfl

theorem State.RingsBut.setFeed {s : State} {bad : SrcNo → Prop} (h : s.RingsBut bad) (f : FeedNo) (x : Feed) :
    (s.setFeed f x).RingsBut bad := h.congr rfl fun _ => rfl

theorem State.RingsBut.takeStart {s : State} {bad : SrcNo → Prop} (h : s.RingsBut bad) (f : FeedNo) : (s.takeStart f).RingsBut bad := by
  unfold State.takeStart
  split
  · exact foldl_keeps (State.RingsBut · bad) _ (fun _ p h => h.attachPosition f p) _ _ (h.setFeed f _)
  · exact h

theorem State.RingsBut.stopNow {s : State} {bad : SrcNo → Prop} (h : s.RingsBut bad) (f : FeedNo) : (s.stopNow f).RingsBut bad :=
  foldl_keeps (State.RingsBut · bad) _ (fun _ p h => h.restPosition f p) _ _ (h.setFeed f _)

theorem State.RingsBut.frameTask {s : State} {bad : SrcNo → Prop} (h : s.RingsBut bad) (k : FrameTask) : (s.frameTask k).RingsBut bad := by
  cases k with
  | windowEnd f p => exact h.endWindows f p
  | forcedSwitch f p => exact h.forceSwitch f p
  | dueMaking f c => exact h.feeds (makeDue_frame s f c)
  | swap f => exact h.feeds (takeSwap_frame s f)
  | start f => exact h.takeStart f

theorem Slot.countWait_target (x : Slot) : x.countWait.target = x.target := by cases x <;> rfl

theorem State.counts_pos (s : State) (f : FeedNo) (p : PosNo) : s.counts.pos f p = (s.pos f p).countFrame := by
  simp [State.counts, State.pos]

theorem State.counts_src (s : State) (i : SrcNo) : s.counts.src i = (s.src i).countFrame := by
  simp [State.counts, State.src]

theorem State.counts_feed (s : State) (f : FeedNo) : s.counts.feed f = (s.feed f).countCarousel := by
  simp [State.counts, State.feed]

theorem State.counts_line (s : State) (l : LineNo) : s.counts.line l = (s.line l).endPulse := by
  simp [State.counts, State.line]

/-- Cursors that stand as before, on rings as before, position by position. -/
theorem State.RingsBut.of_reads {s t : State} {bad : SrcNo → Prop} (h : s.RingsBut bad)
    (hp : ∀ f p i l, (t.pos f p).readsAt i l ↔ (s.pos f p).readsAt i l) (hr : ∀ i, (t.src i).ring = (s.src i).ring) :
    t.RingsBut bad := by
  have mem : ∀ i l, l ∈ t.lags i ↔ l ∈ s.lags i := by
    intro i l; rw [State.mem_lags, State.mem_lags]; simp only [hp]
  refine ⟨fun f p i l hl => ?_, fun i hi hne => ?_⟩
  · rw [hr]; exact h.1 f p i l ((hp f p i l).1 hl)
  · have ne : s.lags i ≠ [] := by
      obtain ⟨l, hl⟩ := List.exists_mem_of_ne_nil _ hne
      exact List.ne_nil_of_mem ((mem i l).1 hl)
    rw [hr, h.2 i hi ne]
    apply le_antisymm
    · rw [State.backlog_le]; exact fun l hl => State.le_backlog _ i ((mem i l).2 hl)
    · rw [State.backlog_le]; exact fun l hl => State.le_backlog _ i ((mem i l).1 hl)

theorem State.RingsBut.counts {s : State} {bad : SrcNo → Prop} (h : s.RingsBut bad) : s.counts.RingsBut bad := by
  refine h.of_reads (fun f p i l => ?_) fun i => ?_
  · rw [State.counts_pos]
    unfold Position.readsAt Position.countFrame
    rw [Slot.countWait_target]
    rfl
  · rw [State.counts_src]; rfl

end Sys2Proof.Machine
end

section
/-! SUPPORT. The store of a packet, the slot event and the requests keep what the rings hold, and every source stays sound (R91 to R93, R96,
R99 to R102). -/

namespace Sys2Proof.Machine

/-! ### A fold that changes each item once -/

/-- A fold over distinct numbers, each of whose steps replaces the item of its number and leaves the rest that plays a part. -/
theorem foldl_each {K V A : Type} [DecidableEq K] (get : State → K → V) (rest : State → A) (new : A → K → V → V)
    (g : State → K → State) (hget : ∀ s k j, get (g s k) j = if k = j then new (rest s) k (get s k) else get s j)
    (hrest : ∀ s k, rest (g s k) = rest s) (l : List K) (hl : l.Nodup) (s : State) :
    rest (l.foldl g s) = rest s ∧ ∀ j, get (l.foldl g s) j = if j ∈ l then new (rest s) j (get s j) else get s j := by
  induction l generalizing s with
  | nil => exact ⟨rfl, fun j => rfl⟩
  | cons k l ih =>
    obtain ⟨hk, hl⟩ := List.nodup_cons.1 hl
    obtain ⟨hr, hj⟩ := ih hl (g s k)
    rw [List.foldl_cons]
    refine ⟨hr.trans (hrest s k), fun j => ?_⟩
    rw [hj, hrest, hget]
    by_cases e : k = j
    · subst e; simp [hk]
    · simp [e, Ne.symm e]

theorem nodup_allPositions : allPositions.Nodup := by decide

/-! ### Room in a ring -/

theorem unread_length_le (ring : List Packet) (lag : Nat) : (unread ring lag).length ≤ lag := by
  unfold unread; rw [List.length_drop]; omega

theorem passOver_le (p : Position) (ring : List Packet) (lag : Nat) : passOver p ring lag ≤ lag :=
  ((List.dropWhile_suffix _).length_le).trans (unread_length_le ring lag)

/-- A position after the pushes of a full ring (R94). -/
def Position.afterPush (x : Position) (i : SrcNo) (ring : List Packet) : Position :=
  if x.isPushed i ring.length then x.pushed ring else x

theorem State.pushCursor_pos (s : State) (i : SrcNo) (f g : FeedNo) (p q : PosNo) :
    (s.pushCursor i f p).pos g q =
      if f = g ∧ p = q then (s.pos f p).afterPush i (s.src i).ring else s.pos g q := by
  unfold State.pushCursor Position.afterPush
  dsimp only
  split
  · rw [(raiseForFeed_frame _ _ _).pos, State.setSrc_pos, State.pos_setPos]
  · split
    · rename_i e; obtain ⟨rfl, rfl⟩ := e; rfl
    · rfl

theorem OnlySources.pos {s t : State} (h : OnlySources s t) (f : FeedNo) (p : PosNo) : t.pos f p = s.pos f p := by
  obtain ⟨_, rfl, _⟩ := h; rfl

theorem OnlyPorts.src {s t : State} (h : OnlyPorts s t) (i : SrcNo) : t.src i = s.src i := by
  obtain ⟨_, rfl, _⟩ := h; rfl

theorem State.pushCursor_ring (s : State) (i j : SrcNo) (f : FeedNo) (p : PosNo) :
    ((s.pushCursor i f p).src j).ring = (s.src j).ring := by
  unfold State.pushCursor
  dsimp only
  split
  · rw [(raiseForFeed_frame _ _ _).src, State.src_setSrc]
    split
    · rename_i e; rw [← e]
    · rfl
  · rfl

/-- Every cursor at the oldest packet of a full ring pushed (R94). -/
def State.pushAll (s : State) (i : SrcNo) : State := allPositions.foldl (fun s fp => s.pushCursor i fp.1 fp.2) s

theorem State.pushAll_ring (s : State) (i j : SrcNo) : ((s.pushAll i).src j).ring = (s.src j).ring := by
  unfold State.pushAll
  generalize allPositions = l
  induction l generalizing s with
  | nil => rfl
  | cons fp l ih => rw [List.foldl_cons, ih, State.pushCursor_ring]

theorem State.pushAll_pos (s : State) (i : SrcNo) (f : FeedNo) (p : PosNo) :
    (s.pushAll i).pos f p = (s.pos f p).afterPush i (s.src i).ring := by
  have each := (foldl_each (fun s (fp : FeedNo × PosNo) => s.pos fp.1 fp.2) (fun s => (s.src i).ring)
    (fun ring _ x => x.afterPush i ring) (fun s fp => s.pushCursor i fp.1 fp.2)
    (fun s k j => by simp only [State.pushCursor_pos, Prod.ext_iff])
    (fun s k => s.pushCursor_ring i i k.1 k.2) allPositions nodup_allPositions s).2 (f, p)
  rwa [if_pos (mem_allPositions f p)] at each

theorem State.makeRoom_eq (s : State) (i : SrcNo) :
    s.makeRoom i =
      if (s.src i).ring.length < Config.ringPlaces then s
      else (s.pushAll i).setSrc i { (s.pushAll i).src i with
        ring := ((s.pushAll i).src i).ring.drop (((s.pushAll i).src i).ring.length + 1 - Config.ringPlaces) } := rfl

/-- A position once room is made in a ring (R94). -/
def Position.afterRoom (x : Position) (i : SrcNo) (ring : List Packet) : Position :=
  if ring.length < Config.ringPlaces then x else x.afterPush i ring

theorem State.makeRoom_pos (s : State) (i : SrcNo) (f : FeedNo) (p : PosNo) :
    (s.makeRoom i).pos f p = (s.pos f p).afterRoom i (s.src i).ring := by
  rw [State.makeRoom_eq]
  unfold Position.afterRoom
  split
  · rfl
  · rw [State.setSrc_pos, State.pushAll_pos]

theorem State.makeRoom_ring (s : State) (i j : SrcNo) :
    ((s.makeRoom i).src j).ring =
      if j = i then (s.src i).ring.drop ((s.src i).ring.length + 1 - Config.ringPlaces) else (s.src j).ring := by
  rw [State.makeRoom_eq]
  split
  · split
    · rename_i h e
      subst e
      rw [Nat.sub_eq_zero_of_le h, List.drop_zero]
    · rfl
  · rw [State.src_setSrc]
    by_cases e : i = j
    · subst e; simp only [if_true, State.pushAll_ring]
    · simp only [e, Ne.symm e, if_false, State.pushAll_ring]

/-- After room is made no cursor lags more than the ring still holds. -/
theorem Position.readsAt_afterRoom {x : Position} {i : SrcNo} {ring : List Packet} {l : Nat} (full : ring.length ≤ Config.ringPlaces)
    (cover : ∀ l, x.readsAt i l → l ≤ ring.length) (h : (x.afterRoom i ring).readsAt i l) :
    l ≤ ring.length - (ring.length + 1 - Config.ringPlaces) := by
  unfold Position.afterRoom Position.afterPush at h
  split at h
  · have := cover l h; omega
  · split at h
    · rename_i pushed
      unfold Position.pushed at h
      split at h
      · rcases h with h | ⟨-, rfl⟩
        · obtain rfl : passOver x ring (ring.length - 1) = l := by
            have := congrArg (Option.map Cursor.lag) h; simpa using this
          have := passOver_le x ring (ring.length - 1)
          omega
        · omega
      · have := cover l h; simp_all [Position.isPushed]
    · rename_i stays
      rcases h with h | ⟨-, rfl⟩
      · simp [Position.isPushed, h] at stays
        omega
      · omega

/-- On other rings the cursors stand as before. -/
theorem Position.readsAt_afterRoom_other {x : Position} {i j : SrcNo} {ring : List Packet} {l : Nat} (hj : j ≠ i) :
    (x.afterRoom i ring).readsAt j l ↔ x.readsAt j l := by
  unfold Position.afterRoom Position.afterPush
  split
  · rfl
  · split
    · rename_i pushed
      unfold Position.pushed
      cases hc : x.onAir with
      | none => rfl
      | some c =>
        obtain ⟨k, lag⟩ := c
        simp only [Position.isPushed, hc, Bool.and_eq_true, decide_eq_true_eq] at pushed
        unfold Position.readsAt
        simp [hc, pushed.1, Ne.symm hj]
    · rfl

/-! ### The store -/

/-- A stored packet lengthens the lags on its ring by at most one. -/
theorem Position.readsAt_offered {x : Position} {i : SrcNo} {k : Packet} {l n : Nat} (cover : ∀ l, x.readsAt i l → l ≤ n)
    (h : (x.offered i k).readsAt i l) : l ≤ n + 1 := by
  unfold Position.offered at h
  split at h
  · rename_i c hc
    split at h
    · rename_i hi
      have := cover c.lag (.inl (by rw [hc, ← hi]))
      split at h
      · have := cover l h; omega
      · rcases h with h | ⟨-, rfl⟩
        · have e : c.lag + 1 = l := by
            have := congrArg (Option.map Cursor.lag) h; simpa using this
          omega
        · omega
    · have := cover l h; omega
  · have := cover l h; omega

theorem Position.readsAt_offered_other {x : Position} {i j : SrcNo} {k : Packet} {l : Nat} (hj : j ≠ i) :
    (x.offered i k).readsAt j l ↔ x.readsAt j l := by
  unfold Position.offered
  cases hc : x.onAir with
  | none => rfl
  | some c =>
    dsimp only
    split
    · rename_i hi
      split
      · rfl
      · unfold Position.readsAt
        simp only [hc, Option.some.injEq]
        refine or_congr (iff_of_false ?_ ?_) Iff.rfl
        · exact fun e => hj ((show c.source = j from congrArg Cursor.source e).symm.trans hi)
        · exact fun e => hj ((show c.source = j from congrArg Cursor.source e).symm.trans hi)
    · rfl

/-- Cursors and packets changed on one ring alone. -/
theorem State.RingsBut.onRing {s t : State} {bad : SrcNo → Prop} (h : s.RingsBut bad) (i : SrcNo)
    (reads : ∀ f p j l, j ≠ i → ((t.pos f p).readsAt j l ↔ (s.pos f p).readsAt j l))
    (rings : ∀ j, j ≠ i → (t.src j).ring = (s.src j).ring)
    (cover : ∀ f p l, (t.pos f p).readsAt i l → l ≤ (t.src i).ring.length) : t.RingsBut fun j => bad j ∨ j = i := by
  refine ⟨fun f p j l hl => ?_, fun j hj hne => ?_⟩
  · by_cases e : j = i
    · subst e; exact cover f p l hl
    · rw [rings j e]; exact h.1 f p j l ((reads f p j l e).1 hl)
  · obtain ⟨hbad, e⟩ := not_or.1 hj
    have mem : ∀ l, l ∈ t.lags j ↔ l ∈ s.lags j := by
      intro l; rw [State.mem_lags, State.mem_lags]; simp only [reads _ _ j l e]
    have ne : s.lags j ≠ [] := by
      obtain ⟨l, hl⟩ := List.exists_mem_of_ne_nil _ hne
      exact List.ne_nil_of_mem ((mem l).1 hl)
    rw [rings j e, h.2 j hbad ne]
    apply le_antisymm
    · rw [State.backlog_le]; exact fun l hl => State.le_backlog _ j ((mem l).2 hl)
    · rw [State.backlog_le]; exact fun l hl => State.le_backlog _ j ((mem l).1 hl)

/-- A packet written at the write point, once room is made, and offered to the on-air cursors (R90). -/
def State.written (s : State) (i : SrcNo) (k : Packet) : State :=
  let s := s.makeRoom i
  let s := s.setSrc i ((s.src i).write k)
  { s with positions := tmap (tmap fun p : Position => p.offered i k) s.positions }

/-- The searches that a packet just stored ends (R64). -/
def State.endSearches (s : State) (i : SrcNo) (k : Packet) : State :=
  allPositions.foldl (fun s fp => if (s.pos fp.1 fp.2).finds i k then s.entrySwitch fp.1 fp.2 else s) s

theorem State.store_eq (s : State) (i : SrcNo) (k : Packet) : s.store i k = ((s.written i k).endSearches i k).trim i := rfl

theorem State.written_pos (s : State) (i : SrcNo) (k : Packet) (f : FeedNo) (p : PosNo) :
    (s.written i k).pos f p = ((s.pos f p).afterRoom i (s.src i).ring).offered i k := by
  rw [← State.makeRoom_pos]
  simp [State.written, State.pos, State.setSrc]

theorem State.written_ring (s : State) (i j : SrcNo) (k : Packet) :
    ((s.written i k).src j).ring =
      if j = i then (s.src i).ring.drop ((s.src i).ring.length + 1 - Config.ringPlaces) ++ [k] else (s.src j).ring := by
  change (((s.makeRoom i).setSrc i (((s.makeRoom i).src i).write k)).src j).ring = _
  rw [State.src_setSrc]
  by_cases e : i = j
  · subst e
    simp only [if_true, Source.write, State.makeRoom_ring]
  · simp only [e, Ne.symm e, if_false, State.makeRoom_ring]

theorem State.RingsBut.written {s : State} (h : s.RingsBut fun _ => False) (i : SrcNo) (k : Packet)
    (full : (s.src i).ring.length ≤ Config.ringPlaces) : (s.written i k).RingsBut fun j => j = i := by
  refine (h.onRing i (fun f p j l hj => ?_) (fun j hj => ?_) fun f p l hl => ?_).mono fun j hj => hj.resolve_left id
  · rw [State.written_pos, Position.readsAt_offered_other hj, Position.readsAt_afterRoom_other hj]
  · rw [State.written_ring, if_neg hj]
  · rw [State.written_pos] at hl
    rw [State.written_ring, if_pos rfl, List.length_append, List.length_drop]
    exact Position.readsAt_offered
      (fun l hl => Position.readsAt_afterRoom full (fun l hl => h.1 f p i l hl) hl) hl

theorem Position.finds_target {x : Position} {i : SrcNo} {k : Packet} (h : x.finds i k = true) : x.slot.target = some i := by
  simp only [Position.finds, Bool.and_eq_true, decide_eq_true_eq] at h
  exact h.1.1.1

theorem State.moveOnAir_pos (s : State) (f : FeedNo) (p : PosNo) (c : Option Cursor) (m : BitVec 4) :
    (s.moveOnAir f p c m).pos f p = { s.pos f p with slot := .steady, onAir := c, marks := m } := by
  rw [(s.moveOnAir_writes f p c m).pos, State.pos_setPos, if_pos ⟨rfl, rfl⟩]

/-- The search that a position ends puts its cursor one packet before the write point (R64). -/
theorem State.RingsBut.entrySwitch {s : State} {i : SrcNo} (h : s.RingsBut fun j => j = i) (f : FeedNo) (p : PosNo)
    (target : (s.pos f p).slot.target = some i) (held : 1 ≤ (s.src i).ring.length) :
    (s.entrySwitch f p).RingsBut (fun j => j = i) ∧ 1 ≤ ((s.entrySwitch f p).src i).ring.length := by
  unfold State.entrySwitch
  split
  · rename_i t w o hslot
    obtain rfl : t = i := by simpa [hslot, Slot.target] using target
    have moved := h.moveOnAir f p (some ⟨t, 1⟩) 0xF (by rintro k ⟨⟩; exact held)
    have told := ownerDone_frame (s.moveOnAir f p (some ⟨t, 1⟩) 0xF) f p o .none
    refine ⟨moved.told told, ?_⟩
    rw [told.src]
    exact moved.1 f p t 1 (.inl (by rw [State.moveOnAir_pos]))
  · rename_i hslot
    simp [hslot, Slot.target] at target

theorem State.RingsBut.endSearches {s : State} {i : SrcNo} (h : s.RingsBut fun j => j = i) (k : Packet)
    (held : 1 ≤ (s.src i).ring.length) : (s.endSearches i k).RingsBut fun j => j = i := by
  refine (foldl_keeps (fun s : State => s.RingsBut (fun j => j = i) ∧ 1 ≤ (s.src i).ring.length) _ (fun s fp hs => ?_)
    allPositions s ⟨h, held⟩).1
  split
  · exact hs.1.entrySwitch fp.1 fp.2 (Position.finds_target ‹_›) hs.2
  · exact hs

theorem State.RingsBut.store {s : State} (h : s.RingsBut fun _ => False) (i : SrcNo) (k : Packet)
    (full : (s.src i).ring.length ≤ Config.ringPlaces) : (s.store i k).RingsBut fun _ => False := by
  rw [State.store_eq]
  have held : 1 ≤ ((s.written i k).src i).ring.length := by
    rw [State.written_ring, if_pos rfl, List.length_append]; exact Nat.le_add_left _ _
  exact (((h.written i k full).endSearches k held).trim i).mono fun j hj => hj.2 hj.1

theorem State.RingsBut.arrive {s : State} (h : s.RingsBut fun _ => False) (i : SrcNo) (b : List Byte)
    (full : (s.src i).ring.length ≤ Config.ringPlaces) : (s.arrive i b).RingsBut fun _ => False := by
  unfold State.arrive
  dsimp only
  split
  · split
    · have ring : ∀ k, ((s.src i).checkContinuity k).ring = (s.src i).ring := by
        intro k; unfold Source.checkContinuity; dsimp only; split <;> rfl
      refine State.RingsBut.store ?_ i _ ?_
      · exact h.setSrc i _ (ring _)
      · rw [State.src_setSrc, if_pos rfl, ring]; exact full
    · exact h
  · exact h

theorem Source.huntByte_ring (x : Source) (b : Byte) : (x.huntByte b).ring = x.ring := by
  unfold Source.huntByte; dsimp only; split <;> rfl

theorem Source.syncByte_ring (x : Source) (b : Byte) : (x.syncByte b).ring = x.ring := by
  unfold Source.syncByte Source.loseSync; split_ifs <;> rfl

theorem State.RingsBut.takeByte {s : State} (h : s.RingsBut fun _ => False) (i : SrcNo) (b : Byte)
    (full : (s.src i).ring.length ≤ Config.ringPlaces) : (s.takeByte i b).RingsBut fun _ => False := by
  unfold State.takeByte
  dsimp only
  split
  · exact h.setSrc i _ (Source.huntByte_ring _ b)
  · split
    · have put := h.setSrc i { s.src i with bytes := [] } rfl
      split
      · exact put.arrive i _ (by rw [State.src_setSrc, if_pos rfl]; exact full)
      · exact put
    · exact h.setSrc i _ (Source.syncByte_ring _ b)

/-! ### The slot event -/

theorem dropStale_length (p : Position) (d : Tick) (limit : Nat) (l : List Packet) :
    (dropStale p d limit l).2.length ≤ l.length := by
  induction l with
  | nil => exact le_rfl
  | cons k l ih =>
    unfold dropStale
    dsimp only
    split_ifs
    · exact ih.trans (Nat.le_succ _)
    · exact ih.trans (Nat.le_succ _)
    · exact le_rfl

/-- An on-air cursor moved on in its ring: only that ring may have to be freed of packets. -/
theorem State.RingsBut.moveOn {s : State} {bad : SrcNo → Prop} (h : s.RingsBut bad) (f : FeedNo) (p : PosNo) (y : Position)
    (c : Cursor) (n : Nat) (hc : (s.pos f p).onAir = some c) (hn : n ≤ c.lag) (hair : y.onAir = some { c with lag := n })
    (hslot : y.slot = (s.pos f p).slot) : (s.setPos f p y).RingsBut fun i => bad i ∨ i = c.source := by
  refine h.setPos f p y ?_ ?_
  · rintro i l (hl | ⟨-, rfl⟩)
    · rw [hair] at hl
      obtain ⟨rfl, rfl⟩ := Cursor.mk.inj (Option.some.inj hl)
      exact hn.trans (h.1 f p c.source c.lag (.inl hc))
    · exact Nat.zero_le _
  · intro i hi
    obtain ⟨hbad, hi⟩ := not_or.1 hi
    refine ⟨hbad, fun l => ?_⟩
    unfold Position.readsAt
    rw [hair, hslot, hc]
    refine or_congr (iff_of_false ?_ ?_) Iff.rfl
    · exact fun e => hi (show c.source = i from congrArg Cursor.source (Option.some.inj e)).symm
    · exact fun e => hi (show c.source = i from congrArg Cursor.source (Option.some.inj e)).symm

theorem State.RingsBut.discardStale {s : State} {bad : SrcNo → Prop} (h : s.RingsBut bad) (f : FeedNo) (p : PosNo) :
    (s.discardStale f p).RingsBut bad := by
  unfold State.discardStale
  dsimp only
  split
  · rename_i c hc
    have moved := h.moveOn f p { s.pos f p with onAir := some { c with
      lag := (dropStale (s.pos f p) (s.feed f).departure (s.staleTicks c.source) (unread (s.src c.source).ring c.lag)).2.length } }
      c _ hc ((dropStale_length _ _ _ _).trans (unread_length_le _ _)) rfl rfl
    refine State.RingsBut.mono (bad := fun i => (bad i ∨ i = c.source) ∧ i ≠ c.source) ?_ ?_
    · apply State.RingsBut.trim
      apply State.RingsBut.setFeed
      exact moved.setSrc c.source _ rfl
    · rintro i ⟨hbad | hi, h1⟩
      · exact hbad
      · exact absurd hi h1
  · exact h

theorem State.RingsBut.sendFrom {s : State} {bad : SrcNo → Prop} (h : s.RingsBut bad) (f : FeedNo) (p : PosNo) :
    (s.sendFrom f p).RingsBut bad := by
  unfold State.sendFrom
  dsimp only
  split
  · rename_i c k hc _
    split
    · have moved := h.moveOn f p ((s.pos f p).served c (s.src c.source).ring k) c _ hc
        ((passOver_le _ _ _).trans (Nat.sub_le _ _)) rfl rfl
      refine (State.RingsBut.trim (moved.setFeed f _) c.source).mono ?_
      rintro i ⟨hbad | hi, h1⟩
      · exact hbad
      · exact absurd hi h1
    · exact h
  · exact h

theorem State.RingsBut.slotEvent {s : State} {bad : SrcNo → Prop} (h : s.RingsBut bad) (f : FeedNo) : (s.slotEvent f).RingsBut bad := by
  unfold State.slotEvent
  dsimp only
  have stale := foldl_keeps (State.RingsBut · bad) _ (fun _ p h => h.discardStale f p) allPlaces s h
  refine State.RingsBut.setFeed ?_ f _
  unfold State.fillSlot
  split
  · exact stale.setFeed f _
  · exact (stale.setFeed f _).sendFrom f _
  · exact (stale.setFeed f _).sendFrom f _
  · exact stale.setFeed f _

/-! ### Requests -/

theorem State.withSettings_slot (s : State) (f : FeedNo) (p : PosNo) (flags : Byte)
    (v : Vector (Option Nat) 4 × Option SrcNo × Option SrcNo × Splice) : (s.withSettings f p flags v).slot = (s.pos f p).slot := by
  unfold State.withSettings State.judged; dsimp only; split_ifs <;> rfl

/-- The on-air cursor after SET POSITION: it passes over what is no longer carried (R40). -/
theorem State.withSettings_onAir (s : State) (f : FeedNo) (p : PosNo) (flags : Byte)
    (v : Vector (Option Nat) 4 × Option SrcNo × Option SrcNo × Splice) :
    (s.withSettings f p flags v).onAir =
      if flags.getLsbD 0 then (s.pos f p).onAir.map fun c =>
        { c with lag := (passOver
          ({ s.pos f p with ids := v.1, base := v.2.1, fallback := v.2.2.1, policy := v.2.2.2 } : Position) (s.src c.source).ring
            c.lag) }
      else (s.pos f p).onAir := by
  unfold State.withSettings State.judged; dsimp only; split_ifs <;> rfl

/-- SET POSITION's part before the change is handed over. -/
theorem State.RingsBut.withSettings {s : State} (h : s.RingsBut fun _ => False) (f : FeedNo) (p : PosNo) (flags : Byte)
    (v : Vector (Option Nat) 4 × Option SrcNo × Option SrcNo × Splice) :
    ((s.setPos f p (s.withSettings f p flags v)).trimOpt (s.pos f p).onAirSource).RingsBut fun _ => False := by
  have air := s.withSettings_onAir f p flags v
  have slot := s.withSettings_slot f p flags v
  cases hc : (s.pos f p).onAir with
  | none =>
    have none' : (s.withSettings f p flags v).onAir = none := by rw [air, hc]; split <;> rfl
    exact ((h.setPos_same f p _ (none'.trans hc.symm) (by rw [slot])).trimOpt _).mono fun i hi => hi.1
  | some c =>
    obtain ⟨n, hn, e⟩ : ∃ n, n ≤ c.lag ∧ (s.withSettings f p flags v).onAir = some { c with lag := n } := by
      rw [air, hc]
      split
      · exact ⟨_, passOver_le _ _ _, rfl⟩
      · exact ⟨c.lag, le_rfl, rfl⟩
    refine ((h.moveOn f p _ c n hc hn e slot).trimOpt _).mono ?_
    rintro i ⟨hbad | rfl, h1⟩
    · exact hbad
    · exact h1 (by simp [Position.onAirSource, hc])

theorem Source.withTable_ring (x : Source) (t : SourceEntry) : (x.withTable t).ring = x.ring := by
  unfold Source.withTable; dsimp only; split_ifs <;> rfl

/-- What RELEASE makes of the state (R48). -/
theorem reqRelease_cases (p : PortNo) (b : List Byte) (s : State) :
    (reqRelease p b s).1 = s ∨ ∃ f k, (reqRelease p b s).1 =
      (s.setPos f k { s.pos f k with upper := (s.pos f k).upper.eraseP fun e => e.named p (BitVec.ofNat 16 (natAt b 0 2)) }).handOver
        f k (s.pos f k).effective (s.pos f k).policy none := by
  unfold reqRelease
  dsimp only
  split
  · exact .inl rfl
  · exact .inr ⟨_, _, rfl⟩

/-- What SET POSITION makes of the state (R39, R40). -/
theorem reqSetPosition_cases (p : PortNo) (b : List Byte) (s : State) :
    (reqSetPosition p b s).1 = s ∨ ∃ f k v, positionValues (s.pos f k) b = some v ∧
      ¬((byteAt b 2).getLsbD 1 = true ∧ (s.feed f).running = true) ∧
      ¬((byteAt b 2).getLsbD 0 = true ∧ distinctFrom v.1 (s.feedIds f (some k) none) = false) ∧
      (reqSetPosition p b s).1 =
        ((s.setPos f k (s.withSettings f k (byteAt b 2) v)).trimOpt (s.pos f k).onAirSource).handOver f k (s.pos f k).effective
          ((s.withSettings f k (byteAt b 2) v).markPolicy (requestPolicy (byteAt b 2) (s.pos f k).policy v.2.2.2)) none := by
  unfold reqSetPosition
  dsimp only
  split; · exact .inl rfl
  split; · exact .inl rfl
  split; · exact .inl rfl
  split; · exact .inl rfl
  split; · exact .inl rfl
  split; · exact .inl rfl
  rename_i hstate hids
  exact .inr ⟨_, _, _, ‹_›, by simpa using hstate, by simpa using hids, rfl⟩

/-- What SET SOURCE makes of the state (R85 to R87). -/
theorem reqSetSource_cases (p : PortNo) (b : List Byte) (s : State) :
    (reqSetSource p b s).1 = s ∨ ∃ i t,
      (((s.src i).table.enabled ≠ t.enabled ∧
          (reqSetSource p b s).1 = (s.setSrc i ((s.src i).withTable t)).healthChanged i) ∨
        ((s.src i).table.enabled = t.enabled ∧
          (reqSetSource p b s).1 = (s.setSrc i ((s.src i).withTable t)).permitChanged i) ∨
        ((s.src i).table.enabled = t.enabled ∧ (s.src i).table.fallbackPermit = t.fallbackPermit ∧
          (reqSetSource p b s).1 = s.setSrc i ((s.src i).withTable t))) := by
  unfold reqSetSource
  dsimp only
  split; · exact .inl rfl
  split
  · rename_i i t _ _
    split
    · exact .inl rfl
    · refine .inr ⟨i, t, ?_⟩
      rw [accept_state]
      split_ifs with henabled hpermit
      · exact .inl ⟨henabled, rfl⟩
      · exact .inr (.inl ⟨not_ne_iff.1 henabled, rfl⟩)
      · exact .inr (.inr ⟨not_ne_iff.1 henabled, not_ne_iff.1 hpermit, rfl⟩)
  · exact .inl rfl

/-- What STOP FEED makes of the state (R124). -/
theorem reqStopFeed_cases (p : PortNo) (b : List Byte) (s : State) :
    (reqStopFeed p b s).1 = s ∨ ∃ f, ((s.feed f).running = true ∧ (reqStopFeed p b s).1 = s.stopNow f) ∨
      (reqStopFeed p b s).1 = s.setFeed f { s.feed f with startPending := false } := by
  unfold reqStopFeed
  dsimp only
  split
  · exact .inl rfl
  · rename_i f _
    split_ifs with running
    · exact .inr ⟨f, .inl ⟨running, accept_state _ _⟩⟩
    · exact .inr ⟨f, .inr (accept_state _ _)⟩
    · exact .inl rfl

/-- The second state has the positions and the sources of the first. -/
def SameReading (s t : State) : Prop := t.positions = s.positions ∧ t.sources = s.sources

theorem OnlyPorts.reading {s t : State} (h : OnlyPorts s t) : SameReading s t := by obtain ⟨_, rfl, _⟩ := h; exact ⟨rfl, rfl⟩
theorem OnlyFeeds.reading {s t : State} (h : OnlyFeeds s t) : SameReading s t := by obtain ⟨_, _, rfl, _⟩ := h; exact ⟨rfl, rfl⟩
theorem OnlyClock.reading {s t : State} (h : OnlyClock s t) : SameReading s t := by obtain ⟨_, rfl⟩ := h; exact ⟨rfl, rfl⟩
theorem OnlyList.reading {s t : State} (h : OnlyList s t) : SameReading s t := by obtain ⟨_, rfl⟩ := h; exact ⟨rfl, rfl⟩
theorem OnlyLines.reading {s t : State} (h : OnlyLines s t) : SameReading s t := by obtain ⟨_, rfl⟩ := h; exact ⟨rfl, rfl⟩
theorem OnlyScan.reading {s t : State} (h : OnlyScan s t) : SameReading s t := by obtain ⟨_, rfl⟩ := h; exact ⟨rfl, rfl⟩

/-- The requests that write positions or sources. -/
def writesReading : Request → Bool
  | .setPosition => true
  | .release => true
  | .setSource => true
  | .ackFaults => true
  | .stopFeed => true
  | _ => false

/-- Every other request leaves positions and sources alone. -/
theorem perform_reading (r : Request) (p : PortNo) (b : List Byte) (s : State) (h : writesReading r = false) :
    SameReading s (perform r p b s).1 := by
  cases r
  case setPosition => cases h
  case release => cases h
  case setSource => cases h
  case ackFaults => cases h
  case stopFeed => cases h
  case readPort => exact (reqReadPort_frame p b s).reading
  case readEvents => exact (reqReadEvents_frame p b s).reading
  case setMask => exact (reqSetMask_frame p b s).reading
  case readOutcomes => exact (reqReadOutcomes_frame p b s).reading
  case setTime => exact (reqSetTime_frame p b s).reading
  case readTime => exact (reqReadTime_frame p b s).reading
  case postEntry => exact (reqPostEntry_frame p b s).reading
  case cancelEntry => exact (reqCancelEntry_frame p b s).reading
  case clearEntries => exact (reqClearEntries_frame p b s).reading
  case listEntries => exact (reqListEntries_frame p b s).reading
  case examinePosition => exact (reqExaminePosition_frame p b s).reading
  case setCueLine => exact (reqSetCueLine_frame p b s).reading
  case readSource => exact (reqReadSource_frame p b s).reading
  case setScan => exact (reqSetScan_frame p b s).reading
  case readHealth => exact (reqReadHealth_frame p b s).reading
  case editPlan => exact (reqEditPlan_frame p b s).reading
  case swapPlan => exact (reqSwapPlan_frame p b s).reading
  case setFeedRate => exact (reqSetFeedRate_frame p b s).reading
  case startFeed => exact (reqStartFeed_frame p b s).reading
  case readPlan => exact (reqReadPlan_frame p b s).reading
  case readFeed => exact (reqReadFeed_frame p b s).reading
  case loadTable => exact (reqLoadTable_frame p b s).reading
  case dropTable => exact (reqDropTable_frame p b s).reading

theorem State.RingsBut.reading {s t : State} {bad : SrcNo → Prop} (h : s.RingsBut bad) (o : SameReading s t) : t.RingsBut bad :=
  h.congr o.1 fun i => by unfold State.src; rw [o.2]

theorem State.RingsBut.request (r : Request) (p : PortNo) (b : List Byte) {s : State} (h : s.RingsBut fun _ => False) :
    (perform r p b s).1.RingsBut fun _ => False := by
  cases r
  case setPosition =>
    obtain e | ⟨f, k, v, -, -, -, e⟩ := reqSetPosition_cases p b s <;> rw [perform, e]
    · exact h
    · exact (h.withSettings f k _ v).handOver f k _ _ _
  case release =>
    obtain e | ⟨f, k, e⟩ := reqRelease_cases p b s <;> rw [perform, e]
    · exact h
    · refine State.RingsBut.handOver ?_ _ _ _ _ _
      exact h.setPos_same _ _ _ rfl rfl
  case setSource =>
    obtain e | ⟨i, t, ⟨-, e⟩ | ⟨-, e⟩ | ⟨-, -, e⟩⟩ := reqSetSource_cases p b s <;> rw [perform, e]
    · exact h
    all_goals have put := h.setSrc i ((s.src i).withTable t) (Source.withTable_ring _ t)
    · exact put.healthChanged i
    · exact put.permitChanged i
    · exact put
  case ackFaults =>
    refine foldl_keeps (State.RingsBut · fun _ => False) _ (fun s i h => ?_) allSources s h
    split
    · exact h.setSrc i _ rfl
    · exact h
  case stopFeed =>
    obtain e | ⟨f, ⟨-, e⟩ | e⟩ := reqStopFeed_cases p b s <;> rw [perform, e]
    · exact h
    · exact h.stopNow f
    · exact h.setFeed f _
  all_goals exact h.reading (perform_reading _ p b s (by decide))

end Sys2Proof.Machine
end

section
/-! SUPPORT. Every source stays sound, and the scan pointer in its range (R91, R96, R99 to R102). -/

namespace Sys2Proof.Machine

/-! ### A pass of the list -/

/-- What the firing of an entry keeps, and what does not speak of list, lines and ports, a pass of the list keeps (R24, R31). -/
theorem pass_keeps (P : State → Prop) (lines : ∀ s l, P s → P { s with lines := l }) (list : ∀ s l, P s → P { s with list := l })
    (ports : ∀ s u, P s → P { s with ports := u }) (fire : ∀ s e, P s → P (s.fire e)) (s : State) (b : Bool) (h : P s) :
    P (s.pass b) := by
  have cue : ∀ (s : State) (e : Entry) (k : Bool), P s → P (s.applyCue e k).1 := by
    intro s e k h
    unfold State.applyCue
    split
    · split
      · exact lines s _ h
      · exact h
    · exact h
  have entries : ∀ (l : List Entry) (s : State), P s → P (passEntries b l s).1 := by
    intro l
    induction l with
    | nil => exact fun s h => h
    | cons e l ih =>
      intro s h
      unfold passEntries
      split
      · exact ih _ (fire _ _ (cue _ _ _ h))
      · exact ih _ (ports _ _ h)
      · exact ih _ (cue _ _ _ h)
  exact list _ _ (entries _ _ h)

/-! ### Packets freed -/

/-- The second state has the sources of the first but for packets freed from the oldest end of their rings. -/
def SourcesFreed (s t : State) : Prop := Freed s.sources t.sources

theorem SourcesFreed.rfl' (s : State) : SourcesFreed s s := Freed.rfl' _

theorem SourcesFreed.trans {s t u : State} (a : SourcesFreed s t) (b : SourcesFreed t u) : SourcesFreed s u := Freed.trans a b

theorem OnlyStacks.freed {s t : State} (h : OnlyStacks s t) : SourcesFreed s t := by obtain ⟨_, _, _, rfl, h, _⟩ := h; exact h
theorem OnlyMoves.freed {s t : State} (h : OnlyMoves s t) : SourcesFreed s t := h.stacks.freed
theorem OnlyReading.freed {s t : State} (h : OnlyReading s t) : SourcesFreed s t := h.moves.freed
theorem OnlyFeeds.freed {s t : State} (h : OnlyFeeds s t) : SourcesFreed s t := by obtain ⟨_, _, rfl, _⟩ := h; exact .rfl' _

theorem setFeed_freed (s : State) (f : FeedNo) (x : Feed) : SourcesFreed s (s.setFeed f x) := .rfl' _

theorem fire_freed (s : State) (e : Entry) : SourcesFreed s (s.fire e) := by
  unfold State.fire
  split
  · exact (fireTake_frame s e).freed
  · exact (fireReturn_frame s e).freed
  · exact (fireBase_frame s e).freed
  · exact (firePlan_frame s e).freed
  · exact (addOutcome_frame s _ _).moves.freed

theorem takeStart_freed (s : State) (f : FeedNo) : SourcesFreed s (s.takeStart f) := by
  unfold State.takeStart
  split
  · exact (setFeed_freed s f _).trans
      (foldl_rel SourcesFreed SourcesFreed.rfl' SourcesFreed.trans _ (fun s p => (attachPosition_frame s f p).freed) _ _)
  · exact .rfl' s

theorem stopNow_freed (s : State) (f : FeedNo) : SourcesFreed s (s.stopNow f) :=
  (setFeed_freed s f _).trans
    (foldl_rel SourcesFreed SourcesFreed.rfl' SourcesFreed.trans _ (fun s p => (restPosition_frame s f p).freed) _ _)

theorem frameTask_freed (s : State) (k : FrameTask) : SourcesFreed s (s.frameTask k) := by
  cases k with
  | windowEnd f p => exact (endWindows_frame s f p).freed
  | forcedSwitch f p => exact (forceSwitch_frame s f p).freed
  | dueMaking f c => exact (makeDue_frame s f c).freed
  | swap f => exact (takeSwap_frame s f).freed
  | start f => exact takeStart_freed s f

/-! ### Every source sound -/

/-- Every source is sound. -/
def State.SourcesSound (s : State) : Prop := ∀ i, (s.src i).Sound

theorem SourcesFreed.sound {s t : State} (h : SourcesFreed s t) (hs : s.SourcesSound) : t.SourcesSound := by
  intro i
  obtain ⟨n, e⟩ := h i
  have sound := hs i
  unfold State.src at sound ⊢
  rw [e]
  exact ⟨(List.length_drop.le.trans (Nat.sub_le _ _)).trans sound.1, sound.2⟩

theorem State.SourcesSound.setSrc {s : State} (h : s.SourcesSound) (i : SrcNo) {x : Source} (hx : x.Sound) :
    (s.setSrc i x).SourcesSound := by
  intro j
  rw [State.src_setSrc]
  split
  · exact hx
  · exact h j

theorem sat16_le (n : Nat) : sat16 n ≤ 65535 := Nat.min_le_right _ _

theorem Source.Sound.resetInterval {x : Source} (h : x.Sound) : x.resetInterval.Sound := by
  obtain ⟨hring, hover, hstale, hcont, -, -, -, hbad, hgood⟩ := h
  exact ⟨hring, hover, hstale, hcont, Nat.zero_le _, Nat.zero_le _, Nat.zero_le _, hbad, hgood⟩

theorem Source.Sound.countFrame {x : Source} (h : x.Sound) : x.countFrame.Sound := by
  obtain ⟨hring, hover, hstale, hcont, hn, he, -, hbad, hgood⟩ := h
  exact ⟨hring, hover, hstale, hcont, hn, he, Nat.min_le_right _ _, hbad, hgood⟩

theorem Source.Sound.examined {x : Source} (h : x.Sound) (tod : TimeOfDay) : (x.examined tod).Sound := by
  obtain ⟨hring, hover, hstale, hcont, -⟩ := h
  have counts : ∀ (b : Bool) n, (if b then sat7 n else 0) ≤ 7 ∧ (if b then 0 else sat7 n) ≤ 7 := by
    intro b n; cases b <;> simp [sat7]
  exact ⟨hring, hover, hstale, hcont, Nat.zero_le _, Nat.zero_le _, Nat.zero_le _, (counts _ _).1, (counts _ _).2⟩

theorem Source.Sound.withTable {x : Source} (h : x.Sound) (t : SourceEntry) : (x.withTable t).Sound := by
  obtain ⟨hring, hover, hstale, hcont, hn, he, hk, hbad, hgood⟩ := h
  unfold Source.withTable
  dsimp only
  split_ifs
  · exact ⟨hring, hover, hstale, hcont, hn, he, hk, Nat.zero_le _, Nat.zero_le _⟩
  · exact ⟨hring, hover, hstale, hcont, Nat.zero_le _, Nat.zero_le _, Nat.zero_le _, Nat.zero_le _, Nat.zero_le _⟩
  · exact ⟨hring, hover, hstale, hcont, hn, he, hk, hbad, hgood⟩

theorem Source.Sound.checkContinuity {x : Source} (h : x.Sound) (k : Packet) : (x.checkContinuity k).Sound := by
  obtain ⟨hring, hover, hstale, hcont, hn, he, hk, hbad, hgood⟩ := h
  unfold Source.checkContinuity
  dsimp only
  split
  · exact ⟨hring, hover, hstale, sat16_le _, hn, sat16_le _, hk, hbad, hgood⟩
  · exact ⟨hring, hover, hstale, hcont, hn, he, hk, hbad, hgood⟩

theorem Source.Sound.huntByte {x : Source} (h : x.Sound) (b : Byte) : (x.huntByte b).Sound := by
  unfold Source.huntByte
  dsimp only
  split
  · exact h
  · exact h

theorem Source.Sound.syncByte {x : Source} (h : x.Sound) (b : Byte) : (x.syncByte b).Sound := by
  unfold Source.syncByte Source.loseSync
  split_ifs
  · exact h
  · exact h
  · exact h
  · exact h

theorem State.SourcesSound.examine {s : State} (h : s.SourcesSound) : s.examine.SourcesSound := by
  unfold State.examine
  dsimp only
  split
  · have put := h.setSrc s.scan.pointer ((h s.scan.pointer).examined s.clock.tod)
    exact (healthMoved_frame _ _ _).freed.sound put
  · exact h.setSrc _ (h _).resetInterval

theorem State.SourcesSound.told {s t : State} (h : s.SourcesSound) (o : OnlyPorts s t) : t.SourcesSound := o.moves.freed.sound h

theorem State.SourcesSound.pushCursor {s : State} (h : s.SourcesSound) (i : SrcNo) (f : FeedNo) (p : PosNo) :
    (s.pushCursor i f p).SourcesSound := by
  unfold State.pushCursor
  dsimp only
  split
  · obtain ⟨hring, -, hrest⟩ := h i
    refine State.SourcesSound.told ?_ (raiseForFeed_frame _ _ _)
    refine State.SourcesSound.setSrc ?_ i ⟨hring, sat16_le _, hrest⟩
    exact h
  · exact h

theorem State.SourcesSound.pushAll {s : State} (h : s.SourcesSound) (i : SrcNo) : (s.pushAll i).SourcesSound := by
  unfold State.pushAll
  generalize allPositions = l
  induction l generalizing s with
  | nil => exact h
  | cons fp l ih => exact ih (h.pushCursor i fp.1 fp.2)

/-- Room made leaves the ring with a free place (R94). -/
theorem State.SourcesSound.makeRoom {s : State} (h : s.SourcesSound) (i : SrcNo) :
    (s.makeRoom i).SourcesSound ∧ ((s.makeRoom i).src i).ring.length < Config.ringPlaces := by
  refine ⟨?_, ?_⟩
  · rw [State.makeRoom_eq]
    split
    · exact h
    · have pushed := h.pushAll i
      generalize s.pushAll i = u at pushed
      obtain ⟨hring, hrest⟩ := pushed i
      refine pushed.setSrc i ⟨?_, hrest⟩
      rw [List.length_drop]
      omega
  · have full := (h i).1
    rw [State.makeRoom_ring, if_pos rfl, List.length_drop]
    unfold Config.ringPlaces at full ⊢
    omega

theorem State.SourcesSound.written {s : State} (h : s.SourcesSound) (i : SrcNo) (k : Packet) : (s.written i k).SourcesSound := by
  obtain ⟨room, free⟩ := h.makeRoom i
  obtain ⟨-, hover, hstale, hcont, -, hrest⟩ := room i
  have put := room.setSrc i (x := ((s.makeRoom i).src i).write k)
    ⟨by simp only [Source.write, List.length_append, List.length_singleton]; omega, hover, hstale, hcont, sat16_le _, hrest⟩
  exact put

theorem State.SourcesSound.store {s : State} (h : s.SourcesSound) (i : SrcNo) (k : Packet) : (s.store i k).SourcesSound := by
  rw [State.store_eq]
  refine (trim_frame _ _).reading.freed.sound ?_
  refine foldl_keeps State.SourcesSound _ (fun s fp h => ?_) _ _ (h.written i k)
  split
  · exact (entrySwitch_frame _ _ _).freed.sound h
  · exact h

theorem State.SourcesSound.takeByte {s : State} (h : s.SourcesSound) (i : SrcNo) (b : Byte) : (s.takeByte i b).SourcesSound := by
  unfold State.takeByte
  dsimp only
  split
  · exact h.setSrc i ((h i).huntByte b)
  · split
    · have put := h.setSrc i (x := { s.src i with bytes := [] }) (h i)
      split
      · unfold State.arrive
        dsimp only
        split
        · split
          · exact (put.setSrc i ((put i).checkContinuity _)).store i _
          · exact put
        · exact put
      · exact put
    · exact h.setSrc i ((h i).syncByte b)

theorem State.SourcesSound.discardStale {s : State} (h : s.SourcesSound) (f : FeedNo) (p : PosNo) :
    (s.discardStale f p).SourcesSound := by
  unfold State.discardStale
  dsimp only
  split
  · rename_i c _
    obtain ⟨hring, hover, -, hrest⟩ := h c.source
    refine (trim_frame _ _).reading.freed.sound ?_
    refine (setFeed_freed _ f _).sound ?_
    refine State.SourcesSound.setSrc ?_ c.source ⟨hring, hover, sat16_le _, hrest⟩
    exact h
  · exact h

theorem sendFrom_freed (s : State) (f : FeedNo) (p : PosNo) : SourcesFreed s (s.sendFrom f p) := by
  unfold State.sendFrom
  dsimp only
  split
  · split
    · exact ((setPos_frame s f p _).freed.trans (setFeed_freed _ f _)).trans (trim_frame _ _).reading.freed
    · exact .rfl' s
  · exact .rfl' s

theorem State.SourcesSound.slotEvent {s : State} (h : s.SourcesSound) (f : FeedNo) : (s.slotEvent f).SourcesSound := by
  unfold State.slotEvent
  dsimp only
  have stale := foldl_keeps State.SourcesSound _ (fun _ p h => h.discardStale f p) allPlaces s h
  refine (setFeed_freed _ f _).sound ?_
  unfold State.fillSlot
  split
  · exact (setFeed_freed _ f _).sound stale
  · exact ((setFeed_freed _ f _).trans (sendFrom_freed _ f _)).sound stale
  · exact ((setFeed_freed _ f _).trans (sendFrom_freed _ f _)).sound stale
  · exact (setFeed_freed _ f _).sound stale

theorem State.SourcesSound.request (r : Request) (p : PortNo) (b : List Byte) {s : State} (h : s.SourcesSound) :
    (perform r p b s).1.SourcesSound := by
  cases r
  case setPosition => exact (reqSetPosition_frame p b s).freed.sound h
  case release => exact (reqRelease_frame p b s).freed.sound h
  case setSource =>
    obtain e | ⟨i, t, ⟨-, e⟩ | ⟨-, e⟩ | ⟨-, -, e⟩⟩ := reqSetSource_cases p b s <;> rw [perform, e]
    · exact h
    all_goals have put := h.setSrc i ((h i).withTable t)
    · exact (healthChanged_frame _ _).freed.sound put
    · exact (permitChanged_frame _ _).freed.sound put
    · exact put
  case ackFaults =>
    refine foldl_keeps State.SourcesSound _ (fun s i h => ?_) allSources s h
    split
    · exact h.setSrc i (h i)
    · exact h
  case stopFeed =>
    obtain e | ⟨f, ⟨-, e⟩ | e⟩ := reqStopFeed_cases p b s <;> rw [perform, e]
    · exact h
    · exact (stopNow_freed s f).sound h
    · exact (setFeed_freed s f _).sound h
  all_goals
    intro i
    unfold State.src
    rw [(perform_reading _ p b s (by decide)).2]
    exact h i

theorem State.sourcesSound_heldAt (r : FrameRate) (q : List Instr) : (State.heldAt r q).SourcesSound := by
  intro i
  simp [State.heldAt, State.src, Source.reset, Source.Sound]

/-! ### Positions and sources at the end of a load -/

theorem State.applyImage_sources (s : State) (m : Image) : (s.applyImage m).sources = ((s.applyPorts m).applySources m).sources := by
  unfold State.applyImage
  dsimp only
  obtain ⟨_, h5⟩ := applyLines_frame _ m
  obtain ⟨_, h4⟩ := applyTables_frame _ m
  obtain ⟨_, h3⟩ := applyFeeds_frame _ m
  obtain ⟨_, h2⟩ := applyPositions_frame _ m
  rw [h5, h4, h3, h2]

theorem State.applyPorts_sources (s : State) (m : Image) : (s.applyPorts m).sources = s.sources := by
  obtain ⟨_, _, h⟩ := applyPorts_frame s m; rw [h]

theorem State.SourcesSound.applyImage {s : State} (h : s.SourcesSound) (m : Image) : (s.applyImage m).SourcesSound := by
  have put : ((s.applyPorts m).applySources m).SourcesSound := by
    refine foldl_keeps State.SourcesSound _ (fun s r h => h.setSrc r.1 ((h r.1).withTable r.2)) _ _ ?_
    intro i
    unfold State.src
    rw [State.applyPorts_sources]
    exact h i
  intro i
  unfold State.src
  rw [State.applyImage_sources]
  exact put i

theorem State.SourcesSound.readSections {s : State} (h : s.SourcesSound) (b : List Byte) : (s.readSections b).SourcesSound := by
  obtain e | ⟨-, ⟨_, -, -, e⟩ | ⟨_, -, e⟩ | ⟨l, m, -, -, -, -, e⟩⟩ := s.readSections_cases b <;> rw [e]
  · exact h
  · exact h
  · exact h
  · exact State.SourcesSound.applyImage (s := { s with loader := l }) h m

theorem State.sourcesSoundKept : Kept State.SourcesSound where
  free _ _ _ _ _ _ _ h := h
  reset := State.sourcesSound_heldAt
  release s b _ := State.sourcesSound_heldAt (.ofFrsel b) s.pending
  header s b h := by obtain ⟨_, _, e⟩ := headerByte_frame s b; rw [e]; exact h
  sections s b h := h.readSections b
  counts s h i := by rw [State.counts_src]; exact (h i).countFrame
  examine s h := h.examine
  pass := pass_keeps _ (fun _ _ h => h) (fun _ _ h => h) (fun _ _ h => h) fun s e h => (fire_freed s e).sound h
  task s k h := (frameTask_freed s k).sound h
  reload _ h := h
  slot s f h := h.slotEvent f
  byte s i b h := h.takeByte i b
  request r p b s _ h := h.request r p b

/-! ### Rings -/

theorem State.ringsBut_heldAt (r : FrameRate) (q : List Instr) (bad : SrcNo → Prop) : (State.heldAt r q).RingsBut bad := by
  have free : ∀ f p i l, ¬((State.heldAt r q).pos f p).readsAt i l := by
    simp [State.heldAt, State.pos, Position.reset, Position.readsAt, Slot.target]
  refine ⟨fun f p i l hl => absurd hl (free f p i l), fun i _ hne => ?_⟩
  obtain ⟨l, hl⟩ := List.exists_mem_of_ne_nil _ hne
  obtain ⟨f, p, hl⟩ := (State.mem_lags _ i l).1 hl
  exact absurd hl (free f p i l)

/-- Every position reads where it read before. -/
theorem State.applyPositions_reads (s : State) (m : Image) (f : FeedNo) (p : PosNo) :
    ((s.applyPositions m).pos f p).onAir = (s.pos f p).onAir ∧ ((s.applyPositions m).pos f p).slot = (s.pos f p).slot := by
  obtain ⟨_, _, _, _, _, h⟩ := applyPositions_kept s m f p
  rw [h]
  exact ⟨rfl, rfl⟩

theorem State.applyImage_positions (s : State) (m : Image) :
    (s.applyImage m).positions = ({ (s.applyPorts m).applySources m with scan := m.scan }.applyPositions m).positions := by
  unfold State.applyImage
  dsimp only
  obtain ⟨_, h5⟩ := applyLines_frame _ m
  obtain ⟨_, h4⟩ := applyTables_frame _ m
  obtain ⟨_, h3⟩ := applyFeeds_frame _ m
  rw [h5, h4, h3]

/-- An image leaves every position reading where it read before. -/
theorem State.applyImage_reads (s : State) (m : Image) (f : FeedNo) (p : PosNo) :
    ((s.applyImage m).pos f p).onAir = (s.pos f p).onAir ∧ ((s.applyImage m).pos f p).slot = (s.pos f p).slot := by
  have same : (s.applyImage m).pos f p = ({ (s.applyPorts m).applySources m with scan := m.scan }.applyPositions m).pos f p := by
    unfold State.pos; rw [State.applyImage_positions]
  obtain ⟨_, h1⟩ := applySources_frame (s.applyPorts m) m
  obtain ⟨_, _, h2⟩ := applyPorts_frame s m
  have reads := State.applyPositions_reads { (s.applyPorts m).applySources m with scan := m.scan } m f p
  rw [same, reads.1, reads.2, h1, h2]
  exact ⟨rfl, rfl⟩

theorem State.RingsBut.applyImage {s : State} {bad : SrcNo → Prop} (h : s.RingsBut bad) (m : Image) : (s.applyImage m).RingsBut bad := by
  have ring : ∀ i, (((s.applyPorts m).applySources m).src i).ring = (s.src i).ring := by
    intro i
    unfold State.applySources
    rw [foldl_same (fun s : State => (s.src i).ring)]
    · unfold State.src; rw [State.applyPorts_sources]
    · rintro s ⟨j, t⟩
      rw [State.src_setSrc]
      split
      · rename_i e; rw [← e]; exact Source.withTable_ring _ t
      · rfl
  refine h.of_reads (fun f p i l => ?_) fun i => ?_
  · obtain ⟨hair, hslot⟩ := s.applyImage_reads m f p
    unfold Position.readsAt
    rw [hair, hslot]
  · rw [← ring i]; unfold State.src; rw [State.applyImage_sources]

theorem State.RingsBut.readSections {s : State} {bad : SrcNo → Prop} (h : s.RingsBut bad) (b : List Byte) :
    (s.readSections b).RingsBut bad := by
  obtain e | ⟨-, ⟨_, -, -, e⟩ | ⟨_, -, e⟩ | ⟨l, m, -, -, -, -, e⟩⟩ := s.readSections_cases b <;> rw [e]
  · exact h
  · exact h
  · exact h
  · exact State.RingsBut.applyImage (s := { s with loader := l }) h m

/-- Sound sources whose rings hold their backlogs. -/
def State.SourcesHold (s : State) : Prop := s.SourcesSound ∧ s.RingsBut fun _ => False

theorem State.sourcesHoldKept : Kept State.SourcesHold where
  free _ _ _ _ _ _ _ h := h
  reset r q := ⟨State.sourcesSound_heldAt r q, State.ringsBut_heldAt r q _⟩
  release s b _ := ⟨State.sourcesSound_heldAt (.ofFrsel b) s.pending, State.ringsBut_heldAt (.ofFrsel b) s.pending _⟩
  header s b h := by obtain ⟨_, _, e⟩ := headerByte_frame s b; rw [e]; exact h
  sections s b h := ⟨h.1.readSections b, h.2.readSections b⟩
  counts s h := ⟨State.sourcesSoundKept.counts s h.1, h.2.counts⟩
  examine s h := ⟨h.1.examine, h.2.examine⟩
  pass s b h := ⟨State.sourcesSoundKept.pass s b h.1, h.2.pass b⟩
  task s k h := ⟨State.sourcesSoundKept.task s k h.1, h.2.frameTask k⟩
  reload _ h := h
  slot s f h := ⟨h.1.slotEvent f, h.2.slotEvent f⟩
  byte s i b h := ⟨h.1.takeByte i b, h.2.takeByte i b (h.1 i).1⟩
  request r p b s _ h := ⟨h.1.request r p b, h.2.request r p b⟩

/-! ### The scan -/

/-- What each piece of a frame event keeps, the frame event keeps once the clock has taken it (R10). -/
theorem frameEvent_keeps (P : State → Prop) (counts : ∀ s, P s → P s.counts) (examine : ∀ s, P s → P s.examine)
    (pass : ∀ s b, P s → P (s.pass b)) (task : ∀ s k, P s → P (s.frameTask k))
    (reload : ∀ s, P s → P { s with feeds := tmap Feed.reloadRunning s.feeds }) (s : State) (o : FrameOrder) (h : P s.clockFrame) :
    P (s.frameEvent o) := by
  have tasks : ∀ (l : List FrameTask) (s : State), P s → P (s.frameTasks l) :=
    fun l s => foldl_keeps P State.frameTask task l s
  unfold State.frameEvent
  dsimp only
  refine reload _ (tasks _ _ (tasks _ _ ?_))
  cases o.examineFirst
  · exact examine _ (tasks _ _ (pass _ _ (tasks _ _ (counts _ h))))
  · exact pass _ _ (tasks _ _ (examine _ (tasks _ _ (counts _ h))))

/-- The second state has the scan of the first. -/
def SameScan (s t : State) : Prop := t.scan = s.scan

theorem SameScan.rfl' (s : State) : SameScan s s := rfl
theorem SameScan.trans {s t u : State} (a : SameScan s t) (b : SameScan t u) : SameScan s u := Eq.trans b a

theorem OnlyStacks.scan {s t : State} (h : OnlyStacks s t) : SameScan s t := by obtain ⟨_, _, _, rfl, _⟩ := h; rfl
theorem OnlyReading.scan {s t : State} (h : OnlyReading s t) : SameScan s t := h.moves.stacks.scan
theorem OnlyPorts.scan {s t : State} (h : OnlyPorts s t) : SameScan s t := h.moves.stacks.scan
theorem OnlyFeeds.scan {s t : State} (h : OnlyFeeds s t) : SameScan s t := by obtain ⟨_, _, rfl, _⟩ := h; rfl
theorem OnlyIntake.scan {s t : State} (h : OnlyIntake s t) : SameScan s t := by obtain ⟨_, _, _, rfl, _⟩ := h; rfl
theorem OnlyEmission.scan {s t : State} (h : OnlyEmission s t) : SameScan s t := by obtain ⟨_, _, _, rfl, _⟩ := h; rfl
theorem OnlyClock.scan {s t : State} (h : OnlyClock s t) : SameScan s t := by obtain ⟨_, rfl⟩ := h; rfl
theorem OnlyList.scan {s t : State} (h : OnlyList s t) : SameScan s t := by obtain ⟨_, rfl⟩ := h; rfl
theorem OnlyLines.scan {s t : State} (h : OnlyLines s t) : SameScan s t := by obtain ⟨_, rfl⟩ := h; rfl

theorem fire_scan (s : State) (e : Entry) : SameScan s (s.fire e) := by
  unfold State.fire
  split
  · exact (fireTake_frame s e).scan
  · exact (fireReturn_frame s e).scan
  · exact (fireBase_frame s e).scan
  · exact (firePlan_frame s e).scan
  · exact (addOutcome_frame s _ _).scan

theorem takeStart_scan (s : State) (f : FeedNo) : SameScan s (s.takeStart f) := by
  unfold State.takeStart
  split
  · exact (setFeed_frame s f _).scan.trans
      (foldl_rel SameScan SameScan.rfl' SameScan.trans _ (fun s p => (attachPosition_frame s f p).scan) _ _)
  · exact .rfl' s

theorem stopNow_scan (s : State) (f : FeedNo) : SameScan s (s.stopNow f) :=
  (setFeed_frame s f _).scan.trans
    (foldl_rel SameScan SameScan.rfl' SameScan.trans _ (fun s p => (restPosition_frame s f p).stacks.scan) _ _)

theorem frameTask_scan (s : State) (k : FrameTask) : SameScan s (s.frameTask k) := by
  cases k with
  | windowEnd f p => exact (endWindows_frame s f p).scan
  | forcedSwitch f p => exact (forceSwitch_frame s f p).stacks.scan
  | dueMaking f c => exact (makeDue_frame s f c).scan
  | swap f => exact (takeSwap_frame s f).scan
  | start f => exact takeStart_scan s f

/-- The examination moves the pointer on (R99). -/
theorem State.examine_scan (s : State) : s.examine.scan = s.scan.next := by
  have judged : SameScan s (if (s.src s.scan.pointer).table.enabled then
      (s.setSrc s.scan.pointer ((s.src s.scan.pointer).examined s.clock.tod)).healthMoved s.scan.pointer
        (s.src s.scan.pointer).health
      else s.setSrc s.scan.pointer (s.src s.scan.pointer).resetInterval) := by
    split
    · exact (healthMoved_frame _ _ _).scan
    · rfl
  exact congrArg Scan.next judged

theorem Scan.Sound.next {c : Scan} (h : c.Sound) : c.next.Sound := by
  obtain ⟨hfirst, hlast⟩ := h
  unfold Scan.next Scan.Sound
  dsimp only
  split
  · exact ⟨le_rfl, hfirst.trans hlast⟩
  · rename_i hne
    have below : c.pointer < c.last := lt_of_le_of_ne hlast hne
    have step : (c.pointer + 1).val = c.pointer.val + 1 :=
      Fin.val_add_one_of_lt (lt_of_lt_of_le below (Fin.le_last c.last))
    exact ⟨Fin.le_def.2 (by rw [step]; exact (Fin.le_def.1 hfirst).trans (Nat.le_succ _)),
      Fin.le_def.2 (by rw [step]; exact Fin.lt_def.1 below)⟩

/-- What a section's records are read from. -/
theorem records_read {α : Type} {read : List Byte → Option α} {size n : Nat} {b : List Byte} {l : List α}
    (h : records read size n b = some l) : ∀ x ∈ l, ∃ c, read c = some x := by
  induction n generalizing b l with
  | zero => cases h; simp
  | succ n ih =>
    unfold records at h
    split at h
    · rename_i x rest hx hrest
      cases h
      rintro y (_ | ⟨_, hy⟩)
      · exact ⟨_, hx⟩
      · exact ih hrest y hy
    · cases h

theorem sectionOf_read {α : Type} {code size : Nat} {counts : Nat → Bool} {read : List Byte → Option α} {b rest : List Byte}
    {l : List α} (h : sectionOf code counts size read b = some (l, rest)) : ∀ x ∈ l, ∃ c, read c = some x := by
  unfold sectionOf at h
  dsimp only at h
  split at h
  · split at h
    · cases h; exact records_read ‹_›
    · cases h
  · cases h

/-- The scan range of an image is one (R100, R166). -/
theorem imageOf_scan {b : List Byte} {m : Image} (h : imageOf b = some m) :
    m.scan.first ≤ m.scan.last ∧ m.scan.pointer = m.scan.first := by
  simp only [imageOf, Option.bind_eq_bind, Option.bind_eq_some_iff, Prod.exists] at h
  obtain ⟨_, _, -, _, _, -, scan, _, hscan, _, _, -, _, _, -, _, _, -, _, _, -, h⟩ := h
  split at h
  · cases h
    obtain ⟨c, hc⟩ := sectionOf_read hscan _ (List.mem_singleton.2 rfl)
    unfold scanRecordOf at hc
    split at hc
    · split at hc
      · rename_i range; cases hc; exact ⟨range.1, rfl⟩
      · cases hc
    · cases hc
  · cases h

theorem Scan.sound_default : Scan.Sound ⟨0, 15, 0⟩ := by unfold Scan.Sound; decide

/-- A set range starts at its first source (R100). -/
theorem reqSetScan_scan (p : PortNo) (b : List Byte) (s : State) (h : s.scan.Sound) : (reqSetScan p b s).1.scan.Sound := by
  unfold reqSetScan
  split; · exact h
  split
  · split
    · rename_i range; exact ⟨le_rfl, range⟩
    · exact h
  · exact h

theorem perform_scan (r : Request) (p : PortNo) (b : List Byte) (s : State) (h : s.scan.Sound) : (perform r p b s).1.scan.Sound := by
  have keep : SameScan s (perform r p b s).1 → (perform r p b s).1.scan.Sound := by
    intro same
    unfold SameScan at same
    rw [same]; exact h
  cases r
  case setScan => exact reqSetScan_scan p b s h
  case stopFeed =>
    apply keep
    obtain e | ⟨f, ⟨-, e⟩ | e⟩ := reqStopFeed_cases p b s <;> rw [perform, e]
    · rfl
    · exact stopNow_scan s f
    · rfl
  case setSource =>
    apply keep
    obtain e | ⟨i, t, ⟨-, e⟩ | ⟨-, e⟩ | ⟨-, -, e⟩⟩ := reqSetSource_cases p b s <;> rw [perform, e]
    · rfl
    all_goals have put : SameScan s (s.setSrc i ((s.src i).withTable t)) := rfl
    · exact put.trans (healthChanged_frame _ _).scan
    · exact put.trans (permitChanged_frame _ _).scan
    · exact put
  case readPort => exact keep (reqReadPort_frame p b s).scan
  case readEvents => exact keep (reqReadEvents_frame p b s).scan
  case setMask => exact keep (reqSetMask_frame p b s).scan
  case readOutcomes => exact keep (reqReadOutcomes_frame p b s).scan
  case setTime => exact keep (reqSetTime_frame p b s).scan
  case readTime => exact keep (reqReadTime_frame p b s).scan
  case postEntry => exact keep (reqPostEntry_frame p b s).scan
  case cancelEntry => exact keep (reqCancelEntry_frame p b s).scan
  case clearEntries => exact keep (reqClearEntries_frame p b s).scan
  case listEntries => exact keep (reqListEntries_frame p b s).scan
  case setPosition => exact keep (reqSetPosition_frame p b s).scan
  case release => exact keep (reqRelease_frame p b s).scan
  case examinePosition => exact keep (reqExaminePosition_frame p b s).scan
  case setCueLine => exact keep (reqSetCueLine_frame p b s).scan
  case readSource => exact keep (reqReadSource_frame p b s).scan
  case ackFaults => exact keep (reqAckFaults_frame p b s).scan
  case readHealth => exact keep (reqReadHealth_frame p b s).scan
  case editPlan => exact keep (reqEditPlan_frame p b s).scan
  case swapPlan => exact keep (reqSwapPlan_frame p b s).scan
  case setFeedRate => exact keep (reqSetFeedRate_frame p b s).scan
  case startFeed => exact keep (reqStartFeed_frame p b s).scan
  case readPlan => exact keep (reqReadPlan_frame p b s).scan
  case readFeed => exact keep (reqReadFeed_frame p b s).scan
  case loadTable => exact keep (reqLoadTable_frame p b s).scan
  case dropTable => exact keep (reqDropTable_frame p b s).scan

theorem Scan.soundKeptByRequests : KeptByRequests fun s => s.scan.Sound where
  ports _ _ h := h
  request r p b s _ h := perform_scan r p b s h

/-- A relation that holds to every state with the same scan. -/
theorem SameScan.sound {s t : State} (o : SameScan s t) (h : s.scan.Sound) : t.scan.Sound := by
  unfold SameScan at o; rw [o]; exact h

theorem State.scanSound_frameEvent (s : State) (o : FrameOrder) (h : s.scan.Sound) : (s.frameEvent o).scan.Sound := by
  apply frameEvent_keeps fun s => s.scan.Sound
  case counts => exact fun _ h => h
  case examine => intro s h; rw [State.examine_scan]; exact h.next
  case pass => exact pass_keeps _ (fun _ _ h => h) (fun _ _ h => h) (fun _ _ h => h) fun s e h => (fire_scan s e).sound h
  case task => exact fun s k h => (frameTask_scan s k).sound h
  case reload => exact fun _ h => h
  case h =>
    unfold State.clockFrame
    split
    · exact (raiseAll_frame _ _).scan.sound h
    · exact h

theorem lockReference_scan (s : State) : SameScan s s.lockReference := by
  unfold State.lockReference
  dsimp only
  split
  · exact (raiseAll_frame _ _).scan
  · rfl

theorem expireLate_scan (s : State) : SameScan s s.expireLate := by
  unfold State.expireLate
  dsimp only
  split
  · exact (raiseAll_frame _ _).scan
  · rfl

theorem State.scanSound_judgePulse (s : State) (o : FrameOrder) (h : s.scan.Sound) : (s.judgePulse o).scan.Sound := by
  unfold State.judgePulse
  split_ifs
  · exact State.scanSound_frameEvent _ o ((lockReference_scan _).sound h)
  · exact (lockReference_scan _).sound h
  · exact h
  · exact State.scanSound_frameEvent _ o ((lockReference_scan _).sound ((raiseAll_frame _ _).scan.sound h))

theorem State.scanSound_pulse (s : State) (o : FrameOrder) (h : s.scan.Sound) : (s.pulse o).scan.Sound := by
  unfold State.pulse
  split
  · exact State.scanSound_judgePulse _ o ((expireLate_scan s).sound h)
  · exact State.scanSound_judgePulse s o h

theorem State.scanSound_takeTimed (s : State) (o : FrameOrder) (e : TimedEvent) (h : s.scan.Sound) :
    (s.takeTimed o e).scan.Sound := by
  cases e
  case windowEnd => exact (endWindows_frame _ _ _).scan.sound h
  case forcedSwitch => exact (forceSwitch_frame _ _ _).stacks.scan.sound h
  case dueMaking => exact (makeDue_frame _ _ _).scan.sound h
  case lineSpeed p => exact Scan.soundKeptByRequests.speed s p h
  case lateExpiry => exact (expireLate_scan s).sound h
  case slot => exact (slotEvent_frame _ _).scan.sound h
  case byteGap p => exact Scan.soundKeptByRequests.gap s p h
  case underflow => exact State.scanSound_frameEvent _ o h

theorem State.scanSound_readSections (s : State) (b : List Byte) (h : s.scan.Sound) : (s.readSections b).scan.Sound := by
  obtain e | ⟨-, ⟨_, -, -, e⟩ | ⟨_, -, e⟩ | ⟨l, m, -, -, him, -, e⟩⟩ := s.readSections_cases b <;> rw [e]
  · exact h
  · exact h
  · exact Scan.sound_default
  · have range := imageOf_scan him
    have scan : ({ s with loader := l }.applyImage m).scan = m.scan := by
      unfold State.applyImage
      dsimp only
      obtain ⟨_, h5⟩ := applyLines_frame _ m
      obtain ⟨_, h4⟩ := applyTables_frame _ m
      obtain ⟨_, h3⟩ := applyFeeds_frame _ m
      obtain ⟨_, h2⟩ := applyPositions_frame _ m
      rw [h5, h4, h3, h2]
    rw [scan]
    exact ⟨range.2.ge, range.2.le.trans range.1⟩

theorem State.scanSound_headerByte (s : State) (b : Byte) (h : s.scan.Sound) : (s.headerByte b).scan.Sound := by
  unfold State.headerByte State.defaulted
  dsimp only
  split_ifs
  · exact h
  · exact Scan.sound_default
  · exact Scan.sound_default
  · exact h
  · exact h

theorem State.scanSoundPreserved : Preserved fun s => s.scan.Sound where
  queue _ _ h := h
  reset r q := Scan.sound_default
  release s b := Scan.sound_default
  header := State.scanSound_headerByte
  sections := State.scanSound_readSections
  time s d _ h := by rw [State.advance_scan]; exact h
  timed := State.scanSound_takeTimed
  pulse := State.scanSound_pulse
  byte s i b h := (takeByte_frame s i b).scan.sound h
  received := Scan.soundKeptByRequests.received
  accepted := Scan.soundKeptByRequests.accepted
  replied := Scan.soundKeptByRequests.replied

/-- Settles O58: each event keeps every count and ring in its bounds, frees what every cursor has passed, and moves the pointer within its
range. -/
theorem stepKeepsSourcesSound : Obligations.StepKeepsSourcesSound := by
  intro s t h e
  refine ⟨State.sourcesSoundKept.step s t h e, fun rings => ?_, fun scan => State.scanSoundPreserved.step scan e⟩
  exact t.ringsSound_iff.2 (State.sourcesHoldKept.step s t ⟨h, s.ringsSound_iff.1 rings⟩ e).2

end Sys2Proof.Machine
end

section
/-! SUPPORT. What holds while the image is read (R153, R163): the other blocks rest, and every event leaves them so. -/

namespace Sys2Proof.Machine

/-! ### What a position selects -/

/-- The settings, stack and marks of a position are those of another: only where it reads may differ. -/
def Position.SelectsAs (y x : Position) : Prop :=
  y.ids = x.ids ∧ y.fallback = x.fallback ∧ y.policy = x.policy ∧ y.base = x.base ∧ y.baseMark = x.baseMark ∧ y.upper = x.upper

theorem Position.SelectsAs.effective {x y : Position} (h : y.SelectsAs x) : y.effective = x.effective := by
  obtain ⟨-, hf, -, hb, hm, hu⟩ := h
  unfold Position.effective Position.topMark
  rw [hu, hf, hb, hm]

theorem Reads.selects {v w : Vector (Vector Position 8) 6} (h : Reads v w) (f : FeedNo) (p : PosNo) :
    (tget (tget w f) p).SelectsAs (tget (tget v f) p) := by
  obtain ⟨_, _, _, _, e⟩ := h f p
  rw [e]
  exact ⟨rfl, rfl, rfl, rfl, rfl, rfl⟩

theorem OnlyMoves.selects {s t : State} (h : OnlyMoves s t) (f : FeedNo) (p : PosNo) : (t.pos f p).SelectsAs (s.pos f p) := by
  obtain ⟨_, _, _, rfl, h, _⟩ := h; exact h.selects f p

theorem OnlyReading.selects {s t : State} (h : OnlyReading s t) (f : FeedNo) (p : PosNo) : (t.pos f p).SelectsAs (s.pos f p) :=
  h.moves.selects f p

theorem OnlyIntake.selects {s t : State} (h : OnlyIntake s t) (f : FeedNo) (p : PosNo) : (t.pos f p).SelectsAs (s.pos f p) := by
  obtain ⟨_, _, _, rfl, h, _⟩ := h; exact h.selects f p

theorem OnlyEmission.selects {s t : State} (h : OnlyEmission s t) (f : FeedNo) (p : PosNo) : (t.pos f p).SelectsAs (s.pos f p) := by
  obtain ⟨_, _, _, rfl, h⟩ := h; exact h.selects f p

/-! ### Blocks at rest -/

/-- A feed that is not started, starting or swapping, with no table in its carousel. -/
def Feed.Idle (x : Feed) : Prop :=
  x.running = false ∧ x.startPending = false ∧ x.swapPending = false ∧ ∀ c, tget x.carousel c = none

/-- No entry in the list, no selection above a base, and every feed idle. -/
def State.Resting (s : State) : Prop := s.list.entries = [] ∧ (∀ f p, (s.pos f p).upper = []) ∧ ∀ f, (s.feed f).Idle

/-- An event that leaves the loader alone, and the blocks at rest where they rest. -/
theorem State.LoadSound.keep {s t : State} (h : s.LoadSound) (loader : t.loader = s.loader) (rest : s.Resting → t.Resting) :
    t.LoadSound := by
  intro reading
  rw [loader] at reading ⊢
  obtain ⟨hload, hrest⟩ := h reading
  exact ⟨hload, rest hrest⟩

theorem State.Resting.congr {s t : State} (h : s.Resting) (hl : t.list = s.list) (hp : ∀ f p, (t.pos f p).upper = (s.pos f p).upper)
    (hf : t.feeds = s.feeds) : t.Resting := by
  obtain ⟨list, upper, feeds⟩ := h
  refine ⟨by rw [hl]; exact list, fun f p => by rw [hp]; exact upper f p, fun f => ?_⟩
  unfold State.feed
  rw [hf]
  exact feeds f

theorem State.Resting.moves {s t : State} (h : s.Resting) (o : OnlyMoves s t) : t.Resting := by
  have upper := fun f p => (o.selects f p).2.2.2.2.2
  obtain ⟨_, _, _, rfl, -⟩ := o
  exact h.congr rfl upper rfl

theorem State.Resting.intake {s t : State} (h : s.Resting) (o : OnlyIntake s t) : t.Resting := by
  have upper := fun f p => (o.selects f p).2.2.2.2.2
  obtain ⟨_, _, _, rfl, -⟩ := o
  exact h.congr rfl upper rfl

theorem State.Resting.told {s t : State} (h : s.Resting) (o : OnlyPorts s t) : t.Resting := h.moves o.moves

theorem State.Resting.setPos {s : State} (h : s.Resting) (f : FeedNo) (p : PosNo) {x : Position} (hx : x.upper = []) :
    (s.setPos f p x).Resting := by
  obtain ⟨list, upper, feeds⟩ := h
  refine ⟨list, fun g q => ?_, feeds⟩
  rw [State.pos_setPos]
  split
  · exact hx
  · exact upper g q

theorem State.Resting.setFeed {s : State} (h : s.Resting) (f : FeedNo) {x : Feed} (hx : x.Idle) : (s.setFeed f x).Resting := by
  obtain ⟨list, upper, feeds⟩ := h
  refine ⟨list, upper, fun g => ?_⟩
  rw [State.feed_setFeed]
  split
  · exact hx
  · exact feeds g

theorem State.Resting.counts {s : State} (h : s.Resting) : s.counts.Resting := by
  obtain ⟨list, upper, feeds⟩ := h
  refine ⟨list, fun f p => ?_, fun f => ?_⟩
  · rw [State.counts_pos]
    simp [Position.countFrame, Position.countWindows, upper f p]
  · obtain ⟨running, hrest⟩ := feeds f
    rw [State.counts_feed, Feed.countCarousel, running]
    exact ⟨running, hrest⟩

theorem State.Resting.judgePosition {s : State} (h : s.Resting) (f : FeedNo) (p : PosNo) (k : Option SrcNo → Bool) :
    (s.judgePosition f p k).Resting := by
  refine State.Resting.moves (s := s.setPos f p (s.judged (s.pos f p) k)) ?_ (handOver_frame _ _ _ _ _ _)
  exact h.setPos f p (by simp [State.judged, h.2.1 f p])

theorem State.Resting.healthChanged {s : State} (h : s.Resting) (i : SrcNo) : (s.healthChanged i).Resting :=
  healthChanged_keeps State.Resting (fun _ f p k h => h.judgePosition f p k) s i h

theorem State.Resting.examine {s : State} (h : s.Resting) : s.examine.Resting := by
  have put : ∀ i x, (s.setSrc i x).Resting := fun i x => h
  have judged : (if (s.src s.scan.pointer).table.enabled then
      (s.setSrc s.scan.pointer ((s.src s.scan.pointer).examined s.clock.tod)).healthMoved s.scan.pointer (s.src s.scan.pointer).health
      else s.setSrc s.scan.pointer (s.src s.scan.pointer).resetInterval).Resting := by
    split
    · unfold State.healthMoved
      dsimp only
      split
      · exact put _ _
      · apply State.Resting.healthChanged
        split_ifs
        · exact (put _ _).told (raiseAll_frame _ _)
        · exact (put _ _).told (raiseAll_frame _ _)
        · exact put _ _
        · exact put _ _
    · exact put _ _
  exact judged

theorem State.Resting.frameTask {s : State} (h : s.Resting) (k : FrameTask) : (s.frameTask k).Resting := by
  have idle := h.2.2
  cases k with
  | windowEnd f p =>
    refine State.Resting.told (State.Resting.moves
      (s := s.setPos f p { s.pos f p with upper := (s.pos f p).upper.filter fun e => e.window ≠ some 0 }) ?_
      (handOver_frame _ f p (s.pos f p).effective (s.pos f p).policy none)) (foldl_rel OnlyPorts OnlyPorts.rfl' OnlyPorts.trans _
      (fun s _ => addOutcome_frame s _ _) _ _)
    exact h.setPos f p (by simp [h.2.1 f p])
  | forcedSwitch f p => exact h.moves (forceSwitch_frame s f p)
  | dueMaking f c =>
    simp only [State.frameTask, State.makeDue, Feed.dueMakingDue, (idle f).1, Bool.false_and, Bool.false_eq_true, if_false]
    exact h
  | swap f =>
    simp only [State.frameTask, State.takeSwap, (idle f).2.2.1, Bool.false_and, Bool.false_eq_true, if_false]
    exact h
  | start f =>
    simp only [State.frameTask, State.takeStart, (idle f).2.1, Bool.false_eq_true, if_false]
    exact h

theorem State.Resting.pass {s : State} (h : s.Resting) (b : Bool) : (s.pass b).Resting := by
  have none' : s.pass b = s := by
    unfold State.pass
    rw [h.1]
    simp only [passEntries]
    rw [← h.1]
  rw [none']
  exact h

theorem State.Resting.reload {s : State} (h : s.Resting) : ({ s with feeds := tmap Feed.reloadRunning s.feeds } : State).Resting := by
  obtain ⟨list, upper, feeds⟩ := h
  refine ⟨list, upper, fun f => ?_⟩
  have e : ({ s with feeds := tmap Feed.reloadRunning s.feeds } : State).feed f = (s.feed f).reloadRunning := by
    simp [State.feed]
  obtain ⟨running, hrest⟩ := feeds f
  rw [e, Feed.reloadRunning, running]
  exact ⟨running, hrest⟩

/-- A position's reading moved on within a slot event. -/
theorem State.Resting.emission {s t : State} (h : s.Resting) (o : OnlyEmission s t) (hf : ∀ f, (t.feed f).Idle) : t.Resting := by
  have upper := fun f p => (o.selects f p).2.2.2.2.2
  obtain ⟨_, _, _, rfl, -⟩ := o
  exact ⟨h.1, fun f p => by rw [upper]; exact h.2.1 f p, hf⟩

/-- A slot event writes no more of a feed than its clock, shares, pointers, carousel, counters, counts and output. -/
theorem sendFrom_feed (s : State) (f g : FeedNo) (p : PosNo) :
    ∃ k o, (s.sendFrom f p).feed g = { s.feed g with counters := k, output := o } := by
  unfold State.sendFrom
  dsimp only
  split
  · split
    · obtain ⟨_, e, _⟩ := trim_frame ((s.setPos f p _).setFeed f _) _
      rw [e]
      simp only [State.feed_with_sources, State.feed_setFeed]
      split
      · rename_i e; subst e; exact ⟨_, _, rfl⟩
      · exact ⟨_, _, rfl⟩
    · exact ⟨_, _, rfl⟩
  · exact ⟨_, _, rfl⟩

theorem discardStale_feed (s : State) (f g : FeedNo) (p : PosNo) :
    ∃ n, (s.discardStale f p).feed g = { s.feed g with counts := { (s.feed g).counts with stale := n } } := by
  unfold State.discardStale
  dsimp only
  split
  · obtain ⟨_, e, _⟩ := trim_frame (((s.setPos f p _).setSrc _ _).setFeed f _) _
    rw [e]
    simp only [State.feed_with_sources, State.feed_setFeed]
    split
    · rename_i e; subst e; exact ⟨_, rfl⟩
    · exact ⟨_, rfl⟩
  · exact ⟨_, rfl⟩

theorem Feed.Idle.sendTable {x : Feed} (h : x.Idle) (c : TableNo) : (x.sendTable c).Idle := by
  unfold Feed.sendTable
  rw [h.2.2.2 c]
  exact h

theorem Feed.Idle.nextSlot {x : Feed} (h : x.Idle) : x.nextSlot.Idle := by
  unfold Feed.Idle at h ⊢
  simpa using h

theorem State.Resting.slotEvent {s : State} (h : s.Resting) (f : FeedNo) : (s.slotEvent f).Resting := by
  unfold State.slotEvent
  dsimp only
  have stale : (allPlaces.foldl (fun s p => s.discardStale f p) s).Resting := by
    refine foldl_keeps State.Resting _ (fun s p h => ?_) _ s h
    refine h.emission (discardStale_frame s f p) fun g => ?_
    obtain ⟨_, e⟩ := discardStale_feed s f g p
    rw [e]
    exact h.2.2 g
  have send : ∀ (s : State) p, s.Resting → (s.sendFrom f p).Resting := by
    intro s p h
    refine h.emission (sendFrom_frame s f p) fun g => ?_
    obtain ⟨_, _, e⟩ := sendFrom_feed s f g p
    rw [e]
    exact h.2.2 g
  generalize allPlaces.foldl (fun s p => s.discardStale f p) s = u at stale
  have filled : (u.fillSlot f (u.choose f)).Resting := by
    unfold State.fillSlot
    split
    · exact stale.setFeed f ((stale.2.2 f).sendTable _)
    · exact send _ _ (stale.setFeed f (stale.2.2 f))
    · exact send _ _ (stale.setFeed f (stale.2.2 f))
    · exact stale.setFeed f (stale.2.2 f)
  exact filled.setFeed f (filled.2.2 f).nextSlot

/-! ### The read -/

theorem State.resting_heldAt (r : FrameRate) (q : List Instr) : (State.heldAt r q).Resting := by
  refine ⟨rfl, fun f p => ?_, fun f => ?_⟩
  · simp [State.heldAt, State.pos, Position.reset]
  · simp [State.heldAt, State.feed, Feed.reset, Feed.Idle]

theorem State.loadSound_heldAt (r : FrameRate) (q : List Instr) : (State.heldAt r q).LoadSound := by
  rintro (h | h) <;> cases h

theorem State.loadSound_release (s : State) (b : Bool) : (s.release b).LoadSound :=
  fun _ => ⟨rfl, State.resting_heldAt (.ofFrsel b) s.pending⟩

theorem State.loadSound_headerByte (s : State) (b : Byte) (h : s.LoadSound) : (s.headerByte b).LoadSound := by
  unfold State.headerByte State.defaulted
  dsimp only
  split_ifs with hphase
  · exact h
  · rintro (h | h) <;> cases h
  · rintro (h | h) <;> cases h
  · exact fun _ => h (.inl (not_ne_iff.1 hphase))
  · exact fun _ => h (.inl (not_ne_iff.1 hphase))

/-- An image is applied when the read has ended. -/
theorem State.applyImage_loader (s : State) (m : Image) : (s.applyImage m).loader = s.loader := by
  obtain ⟨_, _, _, _, _, _, _, e⟩ := applyImage_frame s m; rw [e]

theorem State.loadSound_readSections (s : State) (b : List Byte) (h : s.LoadSound) : (s.readSections b).LoadSound := by
  obtain e | ⟨hphase, ⟨l, -, hstate, e⟩ | ⟨l, hl, e⟩ | ⟨l, m, hl, -, -, -, e⟩⟩ := s.readSections_cases b
  · rw [e]; exact h
  · rw [e]
    intro _
    obtain ⟨hload, hrest⟩ := h (.inr hphase)
    exact ⟨hstate.trans hload, hrest⟩
  · rw [e]
    rintro (h | h) <;> cases hl.symm.trans h
  · intro reading
    rw [e, State.applyImage_loader] at reading
    rcases reading with h | h <;> cases hl.symm.trans h

/-- A request that is carried out finds the read ended, but for READ PORT, which changes nothing (R153). -/
theorem State.loadSound_request (r : Request) (p : PortNo) (b : List Byte) (s : State) (ready : s.loader.state ≠ .loading ∨ r = .readPort)
    (h : s.LoadSound) : (perform r p b s).1.LoadSound := by
  rcases ready with ready | rfl
  · intro reading
    rw [(perform_frame r p b s).units.2.2] at reading
    exact absurd (h reading).1 ready
  · exact h

theorem State.loadSoundKept : Kept State.LoadSound where
  free _ _ _ _ _ _ _ h := h
  reset := State.loadSound_heldAt
  release s b _ := s.loadSound_release b
  header := State.loadSound_headerByte
  sections := State.loadSound_readSections
  counts _ h := h.keep rfl State.Resting.counts
  examine s h := h.keep (examine_frame s).blocks.units.2.2 State.Resting.examine
  pass s b h := h.keep (pass_frame s b).units.2.2 fun h => h.pass b
  task s k h := h.keep (frameTask_frame s k).blocks.units.2.2 fun h => h.frameTask k
  reload _ h := h.keep rfl State.Resting.reload
  slot s f h := h.keep (slotEvent_frame s f).work.blocks.units.2.2 fun h => h.slotEvent f
  byte s i b h := h.keep (takeByte_frame s i b).work.blocks.units.2.2 fun h => h.intake (takeByte_frame s i b)
  request r p b s ready h := State.loadSound_request r p b s ready h

end Sys2Proof.Machine
end

section
/-! SUPPORT. Every selection stack stays sound (R25, R41, R42). -/

namespace Sys2Proof.Machine

/-! ### Stacks -/

/-- Every selection stack is sound. -/
def State.StacksSound (s : State) : Prop := ∀ f p, (s.pos f p).StackSound

theorem Position.StackSound.of_upper {x y : Position} (h : x.StackSound) (e : y.upper = x.upper) : y.StackSound := by
  unfold Position.StackSound; rw [e]; exact h

/-- Entries taken out of a stack leave it sound. -/
theorem Position.StackSound.sublist {x y : Position} (h : x.StackSound) (sub : y.upper.Sublist x.upper) : y.StackSound :=
  ⟨sub.length_le.trans h.1, h.2.sublist (sub.map _)⟩

/-- Entries that keep their classes leave the stack sound. -/
theorem Position.StackSound.map {x y : Position} (h : x.StackSound) (g : StackEntry → StackEntry) (hg : ∀ e, (g e).cls = e.cls)
    (e : y.upper = x.upper.map g) : y.StackSound := by
  unfold Position.StackSound
  rw [e, List.length_map, List.map_map]
  have classes : (fun e : StackEntry => e.cls.rank) ∘ g = fun e => e.cls.rank := by
    funext e; simp [hg]
  rw [classes]
  exact h

theorem State.StacksSound.setPos {s : State} (h : s.StacksSound) (f : FeedNo) (p : PosNo) {x : Position} (hx : x.StackSound) :
    (s.setPos f p x).StacksSound := by
  intro g q
  rw [State.pos_setPos]
  split
  · exact hx
  · exact h g q

theorem State.StacksSound.moves {s t : State} (h : s.StacksSound) (o : OnlyMoves s t) : t.StacksSound :=
  fun f p => (h f p).of_upper (o.selects f p).2.2.2.2.2

theorem State.StacksSound.told {s t : State} (h : s.StacksSound) (o : OnlyPorts s t) : t.StacksSound := h.moves o.moves

theorem OnlyFeeds.pos {s t : State} (h : OnlyFeeds s t) (f : FeedNo) (p : PosNo) : t.pos f p = s.pos f p := by
  obtain ⟨_, _, rfl, _⟩ := h; rfl

/-! ### The place of an entry (R42) -/

/-- A stack whose classes never decrease upward splits at a class: the entries of it or below, and those above. -/
theorem insertEntry_of_split (low high : List StackEntry) (e : StackEntry) (hlow : ∀ x ∈ low, x.cls.rank ≤ e.cls.rank)
    (hhigh : ∀ x ∈ high, e.cls.rank < x.cls.rank) :
    insertEntry (low ++ high) e = (low ++ [e] ++ high, decide (high ≠ [])) := by
  have taken : (low ++ high).reverse.takeWhile (fun x => decide (e.cls.rank < x.cls.rank)) = high.reverse := by
    rw [List.reverse_append, List.takeWhile_append_of_pos (by simpa using hhigh)]
    cases hr : low.reverse with
    | nil => simp
    | cons x l =>
      have := hlow x (List.mem_reverse.1 (hr ▸ List.mem_cons_self))
      rw [List.takeWhile_cons_of_neg (by simpa using this), List.append_nil]
  have dropped : (low ++ high).reverse.dropWhile (fun x => decide (e.cls.rank < x.cls.rank)) = low.reverse := by
    rw [List.reverse_append, List.dropWhile_append_of_pos (by simpa using hhigh)]
    cases hr : low.reverse with
    | nil => rfl
    | cons x l =>
      have := hlow x (List.mem_reverse.1 (hr ▸ List.mem_cons_self))
      rw [List.dropWhile_cons_of_neg (by simpa using this)]
  unfold insertEntry
  simp only [taken, dropped, List.reverse_reverse]
  cases high <;> simp

/-- Every sound stack splits so. -/
theorem exists_split (upper : List StackEntry) (c : Nat) (h : (upper.map fun e => e.cls.rank).Pairwise (· ≤ ·)) :
    ∃ low high, upper = low ++ high ∧ (∀ x ∈ low, x.cls.rank ≤ c) ∧ ∀ x ∈ high, c < x.cls.rank := by
  induction upper with
  | nil => exact ⟨[], [], rfl, by simp, by simp⟩
  | cons e l ih =>
    obtain ⟨low, high, rfl, hlow, hhigh⟩ := ih (List.Pairwise.tail h)
    by_cases hc : e.cls.rank ≤ c
    · exact ⟨e :: low, high, rfl, by simpa [hc] using hlow, hhigh⟩
    · have above : ∀ x ∈ low ++ high, c < x.cls.rank := by
        intro x hx
        have : e.cls.rank ≤ x.cls.rank := List.rel_of_pairwise_cons h (List.mem_map_of_mem hx)
        omega
      exact ⟨[], e :: (low ++ high), rfl, by simp, by
        rintro x (_ | ⟨_, hx⟩)
        · omega
        · exact above x hx⟩

theorem Position.StackSound.insert {x y : Position} (h : x.StackSound) (room : x.upper.length < Config.stackUpper) (e : StackEntry)
    (hy : y.upper = (insertEntry x.upper e).1) : y.StackSound := by
  obtain ⟨low, high, hsplit, hlow, hhigh⟩ := exists_split x.upper e.cls.rank h.2
  have sorted := h.2
  rw [hsplit] at room sorted
  unfold Position.StackSound
  rw [hy, hsplit, insertEntry_of_split low high e hlow hhigh]
  refine ⟨by simp at room ⊢; omega, ?_⟩
  rw [List.map_append, List.pairwise_append] at sorted
  obtain ⟨slow, shigh, -⟩ := sorted
  simp only [List.map_append, List.map_cons, List.append_assoc, List.singleton_append]
  rw [List.pairwise_append]
  refine ⟨slow, List.Pairwise.cons ?_ shigh, ?_⟩
  · intro r hr
    obtain ⟨z, hz, rfl⟩ := List.mem_map.1 hr
    exact (hhigh z hz).le
  · intro a ha r hr
    obtain ⟨z, hz, rfl⟩ := List.mem_map.1 ha
    rcases List.mem_cons.1 hr with rfl | hr
    · exact hlow z hz
    · obtain ⟨z', hz', rfl⟩ := List.mem_map.1 hr
      exact (hlow z hz).trans (hhigh z' hz').le

/-- The topmost entry taken out leaves the others in their order (R43). -/
theorem removeTopmost_sublist {upper : List StackEntry} {o : PortNo} {c : SelClass} {r : List StackEntry × Bool}
    (h : removeTopmost upper o c = some r) : r.1.Sublist upper := by
  unfold removeTopmost at h
  dsimp only at h
  split at h
  · cases h
  · rename_i y low hdrop
    cases h
    have whole := List.takeWhile_append_dropWhile (p := fun x : StackEntry => !(decide (x.owner = o) && decide (x.cls = c)))
      (l := upper.reverse)
    rw [hdrop] at whole
    generalize upper.reverse.takeWhile (fun x : StackEntry => !(decide (x.owner = o) && decide (x.cls = c))) = top at whole ⊢
    rw [← List.reverse_sublist, List.reverse_reverse, ← whole]
    exact List.Sublist.append_left (List.sublist_cons_self y low) _

/-! ### Every event -/

theorem State.StacksSound.entryStacked {s : State} (h : s.StacksSound) (e : Entry) (b : Option SrcNo) (k : Bool) :
    (s.entryStacked e b k).StacksSound := h.moves (entryStacked_frame s e b k)

theorem State.StacksSound.fire {s : State} (h : s.StacksSound) (e : Entry) : (s.fire e).StacksSound := by
  unfold State.fire
  split
  · unfold State.fireTake
    dsimp only
    split
    · exact h.told (addOutcome_frame _ _ _)
    · rename_i room
      refine State.StacksSound.entryStacked ?_ _ _ _
      exact h.setPos _ _ ((h _ _).insert (not_le.1 room) _ rfl)
  · unfold State.fireReturn
    dsimp only
    split
    · rename_i r hr
      refine State.StacksSound.entryStacked ?_ _ _ _
      exact h.setPos _ _ ((h _ _).sublist (removeTopmost_sublist hr))
    · exact h.told (addOutcome_frame _ _ _)
  · refine State.StacksSound.entryStacked ?_ _ _ _
    exact h.setPos _ _ ((h e.feed e.position).of_upper rfl)
  · exact fun f p => (h f p).of_upper (by rw [(firePlan_frame s e).pos])
  · exact h.told (addOutcome_frame _ _ _)

theorem State.StacksSound.judgePosition {s : State} (h : s.StacksSound) (f : FeedNo) (p : PosNo) (k : Option SrcNo → Bool) :
    (s.judgePosition f p k).StacksSound := by
  refine State.StacksSound.moves (s := s.setPos f p (s.judged (s.pos f p) k)) ?_ (handOver_frame _ _ _ _ _ _)
  exact h.setPos f p ((h f p).map (fun e => if k (some e.source) then
    { e with mark := s.markFor (some e.source) (s.pos f p).fallback } else e) (by intro e; split <;> rfl) rfl)

theorem State.StacksSound.healthChanged {s : State} (h : s.StacksSound) (i : SrcNo) : (s.healthChanged i).StacksSound :=
  healthChanged_keeps State.StacksSound (fun _ f p k h => h.judgePosition f p k) s i h

theorem State.StacksSound.permitChanged {s : State} (h : s.StacksSound) (i : SrcNo) : (s.permitChanged i).StacksSound :=
  permitChanged_keeps State.StacksSound (fun _ f p k h => h.judgePosition f p k) s i h

/-- The examination is that of one source, its health change handed on, and the pointer's move. -/
theorem examine_keeps (P : State → Prop) (src : ∀ s x, P s → (x = (s.src s.scan.pointer).examined s.clock.tod ∧
      (s.src s.scan.pointer).table.enabled = true ∧ x.health = (s.src s.scan.pointer).health ∨
      x = (s.src s.scan.pointer).resetInterval) → P (s.setSrc s.scan.pointer x))
    (moved : ∀ s, P s → (s.src s.scan.pointer).table.enabled = true →
      ((s.src s.scan.pointer).examined s.clock.tod).health ≠ (s.src s.scan.pointer).health →
      ∀ u, OnlyPorts (s.setSrc s.scan.pointer ((s.src s.scan.pointer).examined s.clock.tod)) u → P (u.healthChanged s.scan.pointer))
    (scan : ∀ s c, P s → P { s with scan := c }) (s : State) (h : P s) : P s.examine := by
  unfold State.examine
  dsimp only
  apply scan
  split
  · rename_i enabled
    unfold State.healthMoved
    dsimp only
    rw [State.src_setSrc, if_pos rfl]
    split
    · exact src s _ h (.inl ⟨rfl, enabled, ‹_›⟩)
    · apply moved s h enabled ‹_›
      split_ifs
      · exact raiseAll_frame _ _
      · exact raiseAll_frame _ _
      · exact .rfl' _
      · exact .rfl' _
  · exact src s _ h (.inr rfl)

theorem State.StacksSound.frameTask {s : State} (h : s.StacksSound) (k : FrameTask) : (s.frameTask k).StacksSound := by
  cases k with
  | windowEnd f p =>
    refine State.StacksSound.told (State.StacksSound.moves
      (s := s.setPos f p { s.pos f p with upper := (s.pos f p).upper.filter fun e => e.window ≠ some 0 }) ?_
      (handOver_frame _ f p (s.pos f p).effective (s.pos f p).policy none)) (foldl_rel OnlyPorts OnlyPorts.rfl' OnlyPorts.trans _
      (fun s _ => addOutcome_frame s _ _) _ _)
    exact h.setPos f p ((h f p).sublist List.filter_sublist)
  | forcedSwitch f p => exact h.moves (forceSwitch_frame s f p)
  | dueMaking f c => exact fun g q => (h g q).of_upper (by rw [State.frameTask, (makeDue_frame s f c).pos])
  | swap f => exact fun g q => (h g q).of_upper (by rw [State.frameTask, (takeSwap_frame s f).pos])
  | start f =>
    simp only [State.frameTask, State.takeStart]
    split
    · exact foldl_keeps State.StacksSound _ (fun s p h => h.moves (attachPosition_frame s f p).moves) _ _ h
    · exact h

theorem State.withSettings_upper (s : State) (f : FeedNo) (p : PosNo) (flags : Byte)
    (v : Vector (Option Nat) 4 × Option SrcNo × Option SrcNo × Splice) :
    (s.withSettings f p flags v).upper =
      (s.pos f p).upper.map fun e => if flags.getLsbD 2 then { e with mark := s.markFor (some e.source) v.2.2.1 } else e := by
  unfold State.withSettings State.judged
  dsimp only
  simp only [if_true]
  split_ifs <;> simp

theorem State.StacksSound.request (r : Request) (p : PortNo) (b : List Byte) {s : State} (h : s.StacksSound) :
    (perform r p b s).1.StacksSound := by
  cases r
  case setPosition =>
    obtain e | ⟨f, k, v, -, -, -, e⟩ := reqSetPosition_cases p b s <;> rw [perform, e]
    · exact h
    · refine State.StacksSound.moves (State.StacksSound.moves (s := s.setPos f k (s.withSettings f k (byteAt b 2) v)) ?_
        (trimOpt_frame _ _).reading.moves) (handOver_frame _ _ _ _ _ _)
      exact h.setPos f k ((h f k).map _ (by intro e; split <;> rfl) (s.withSettings_upper f k _ v))
  case release =>
    obtain e | ⟨f, k, e⟩ := reqRelease_cases p b s <;> rw [perform, e]
    · exact h
    · refine State.StacksSound.moves ?_ (handOver_frame _ _ _ _ _ _)
      exact h.setPos f k ((h f k).sublist List.eraseP_sublist)
  case setSource =>
    obtain e | ⟨i, t, ⟨-, e⟩ | ⟨-, e⟩ | ⟨-, -, e⟩⟩ := reqSetSource_cases p b s <;> rw [perform, e]
    · exact h
    all_goals have put : (s.setSrc i ((s.src i).withTable t)).StacksSound := h
    · exact put.healthChanged i
    · exact put.permitChanged i
    · exact put
  case ackFaults =>
    refine foldl_keeps State.StacksSound _ (fun s i h => ?_) allSources s h
    split
    · exact h
    · exact h
  case stopFeed =>
    obtain e | ⟨f, ⟨-, e⟩ | e⟩ := reqStopFeed_cases p b s <;> rw [perform, e]
    · exact h
    · exact foldl_keeps State.StacksSound _ (fun s p h => h.moves (restPosition_frame s f p)) _ _ h
    · exact h
  all_goals
    intro f k
    unfold State.pos
    rw [(perform_reading _ p b s (by decide)).1]
    exact h f k

theorem State.stacksSound_heldAt (r : FrameRate) (q : List Instr) : (State.heldAt r q).StacksSound := by
  intro f p
  simp [State.heldAt, State.pos, Position.reset, Position.StackSound]

/-- An image does not speak of the entries above a base. -/
theorem State.applyImage_upper (s : State) (m : Image) (f : FeedNo) (p : PosNo) : ((s.applyImage m).pos f p).upper = (s.pos f p).upper := by
  have same : (s.applyImage m).pos f p = ({ (s.applyPorts m).applySources m with scan := m.scan }.applyPositions m).pos f p := by
    unfold State.pos; rw [State.applyImage_positions]
  obtain ⟨_, _, _, _, _, h⟩ := applyPositions_kept { (s.applyPorts m).applySources m with scan := m.scan } m f p
  obtain ⟨_, h1⟩ := applySources_frame (s.applyPorts m) m
  obtain ⟨_, _, h2⟩ := applyPorts_frame s m
  rw [same, h, h1, h2]
  rfl

theorem State.StacksSound.readSections {s : State} (h : s.StacksSound) (b : List Byte) : (s.readSections b).StacksSound := by
  obtain e | ⟨-, ⟨_, -, -, e⟩ | ⟨_, -, e⟩ | ⟨l, m, -, -, -, -, e⟩⟩ := s.readSections_cases b <;> rw [e]
  · exact h
  · exact h
  · exact h
  · exact fun f p => (h f p).of_upper (State.applyImage_upper { s with loader := l } m f p)

theorem State.stacksSoundKept : Kept State.StacksSound where
  free _ _ _ _ _ _ _ h := h
  reset := State.stacksSound_heldAt
  release s b _ := State.stacksSound_heldAt (.ofFrsel b) s.pending
  header s b h := by obtain ⟨_, _, e⟩ := headerByte_frame s b; rw [e]; exact h
  sections s b h := h.readSections b
  counts s h f p := by
    rw [State.counts_pos]
    exact (h f p).map (fun e => { e with window := e.window.map fun w => w - 1 }) (fun _ => rfl) rfl
  examine := examine_keeps _ (fun _ _ h _ => h)
    (fun s h _ _ u o => ((show (s.setSrc s.scan.pointer _).StacksSound from h).told o).healthChanged _) (fun _ _ h => h)
  pass := pass_keeps _ (fun _ _ h => h) (fun _ _ h => h) (fun _ _ h => h) fun s e h => h.fire e
  task s k h := h.frameTask k
  reload _ h := h
  slot s f h g q := (h g q).of_upper ((slotEvent_frame s f).selects g q).2.2.2.2.2
  byte s i b h f p := (h f p).of_upper ((takeByte_frame s i b).selects f p).2.2.2.2.2
  request r p b s _ h := h.request r p b

end Sys2Proof.Machine
end

section
/-! SUPPORT. An image applied, item by item (R168): what each port, source, position, feed and cue line becomes. -/

namespace Sys2Proof.Machine

/-! ### Records in their order -/

/-- A fold over numbers and their records, each of whose steps replaces the item of its number: an item with a record is replaced once,
the others stay, and so does the rest that plays a part. -/
theorem foldl_records {K R V A : Type} [DecidableEq K] (get : State → K → V) (rest : State → A) (new : A → K → R → V → V)
    (g : State → K × R → State) (hget : ∀ s k r j, get (g s (k, r)) j = if k = j then new (rest s) k r (get s k) else get s j)
    (hrest : ∀ s a, rest (g s a) = rest s) (keys : List K) (hk : keys.Nodup) (l : List R) (s : State) :
    (∀ (n : Nat) k r, keys[n]? = some k → l[n]? = some r → get ((keys.zip l).foldl g s) k = new (rest s) k r (get s k)) ∧
      (∀ k, (∀ (n : Nat) r, keys[n]? = some k → l[n]? ≠ some r) → get ((keys.zip l).foldl g s) k = get s k) ∧
      rest ((keys.zip l).foldl g s) = rest s := by
  induction keys generalizing l s with
  | nil => exact ⟨by simp, fun _ _ => by simp, by simp⟩
  | cons key keys ih =>
    cases l with
    | nil => exact ⟨by simp, fun _ _ => by simp, by simp⟩
    | cons a l =>
      obtain ⟨fresh, hk⟩ := List.nodup_cons.1 hk
      obtain ⟨named, unnamed, hr⟩ := ih hk l (g s (key, a))
      have mine : get ((keys.zip l).foldl g (g s (key, a))) key = new (rest s) key a (get s key) := by
        rw [unnamed key fun n r hn => absurd (List.mem_of_getElem? hn) fresh, hget, if_pos rfl]
      have other : ∀ k ∈ keys, get (g s (key, a)) k = get s k := fun k hk => by
        rw [hget, if_neg (by rintro rfl; exact fresh hk)]
      rw [List.zip_cons_cons, List.foldl_cons]
      refine ⟨fun n k r hn hl => ?_, fun k free => ?_, hr.trans (hrest s _)⟩
      · cases n with
        | zero => cases hn; cases hl; exact mine
        | succ n =>
          rw [named n k r hn hl, hrest, other k (List.mem_of_getElem? hn)]
      · have differs : key ≠ k := by rintro rfl; exact free 0 a rfl rfl
        rw [unnamed k fun n r hn => free (n + 1) r hn, hget, if_neg differs]

theorem allPorts_at (p : PortNo) : allPorts[p.val]? = some p := by fin_cases p <;> rfl
theorem allSources_at (i : SrcNo) : allSources[i.val]? = some i := by fin_cases i <;> rfl
theorem allFeeds_at (f : FeedNo) : allFeeds[f.val]? = some f := by fin_cases f <;> rfl
theorem allLines_at (l : LineNo) : allLines[l.val]? = some l := by fin_cases l <;> rfl

theorem allPositions_at : ∀ (f : FeedNo) (p : PosNo), allPositions[f.val * 8 + p.val]? = some (f, p) := by decide

/-! ### The blocks -/

theorem State.applyImage_eq (s : State) (m : Image) :
    s.applyImage m =
      ((({ (s.applyPorts m).applySources m with scan := m.scan }.applyPositions m).applyFeeds m).applyTables m).applyLines m := rfl

theorem State.applyPorts_at (s : State) (m : Image) :
    (∀ (p : PortNo) r, m.ports[p.val]? = some r →
      ((s.applyPorts m).port p, tget (s.applyPorts m).list.quotas p) =
        ({ s.port p with authority := r.authority, pendingSpeed := if r.speed = (s.port p).speed then none else some r.speed },
          r.quota)) ∧
      ∀ p, m.ports[p.val]? = none →
        ((s.applyPorts m).port p, tget (s.applyPorts m).list.quotas p) = (s.port p, tget s.list.quotas p) := by
  obtain ⟨named, unnamed, -⟩ := foldl_records (fun s p => (s.port p, tget s.list.quotas p)) (fun _ => ())
    (fun _ _ (r : PortRecord) v =>
      ({ v.1 with authority := r.authority, pendingSpeed := if r.speed = v.1.speed then none else some r.speed }, r.quota))
    (fun s r => s.applyPort r.1 r.2) (fun s p r q => by
      by_cases e : p = q
      · subst e; simp [State.applyPort, State.port, State.setPort]
      · simp [State.applyPort, State.port, State.setPort, e]) (fun _ _ => rfl) allPorts (by decide) m.ports s
  refine ⟨fun p r h => named _ p r (allPorts_at p) h, fun p h => unnamed p fun n r hn hr => ?_⟩
  have e : n = p.val := (List.getElem?_inj (by
    by_contra k; rw [List.getElem?_eq_none (not_lt.1 k)] at hn; cases hn) (by decide : allPorts.Nodup)).1 (hn.trans (allPorts_at p).symm)
  rw [e, h] at hr
  cases hr

theorem State.applySources_at (s : State) (m : Image) (i : SrcNo) (r : SourceEntry) (h : m.sources[i.val]? = some r) :
    (s.applySources m).src i = (s.src i).configured r :=
  (foldl_records (fun s i => s.src i) (fun _ => ()) (fun _ _ (r : SourceEntry) x => x.configured r)
    (fun s r => s.setSrc r.1 ((s.src r.1).configured r.2)) (fun s i r j => by
      by_cases e : i = j
      · subst e; simp
      · simp [e]) (fun _ _ => rfl) allSources (by decide) m.sources s).1 _ i r (allSources_at i) h

theorem State.applyPositions_at (s : State) (m : Image) (f : FeedNo) (p : PosNo) (r : PositionRecord)
    (h : m.positions[f.val * 8 + p.val]? = some r) :
    (s.applyPositions m).pos f p = { s.pos f p with
      ids := r.ids, base := r.base, fallback := r.fallback, policy := r.policy, baseMark := s.markFor r.base r.fallback } :=
  (foldl_records (fun s (fp : FeedNo × PosNo) => s.pos fp.1 fp.2) (fun s => s.markFor)
    (fun mark _ (r : PositionRecord) x => { x with
      ids := r.ids, base := r.base, fallback := r.fallback, policy := r.policy, baseMark := mark r.base r.fallback })
    (fun s r => s.applyPosition r.1.1 r.1.2 r.2) (fun s k r j => by
      unfold State.applyPosition
      by_cases e : k = j
      · subst e; simp
      · rw [if_neg e, State.pos_setPos, if_neg fun h => e (Prod.ext h.1 h.2)]) (fun _ _ => rfl) allPositions (by decide)
      m.positions s).1 _ (f, p) r (allPositions_at f p) h

theorem State.applyFeeds_at (s : State) (m : Image) :
    (∀ (f : FeedNo) r, m.feeds[f.val]? = some r → (s.applyFeeds m).feed f = (s.feed f).configured r s.clock.rate) ∧
      ∀ f, (s.applyFeeds m).feed f = s.feed f ∨ ∃ r ∈ m.feeds, (s.applyFeeds m).feed f = (s.feed f).configured r s.clock.rate := by
  obtain ⟨named, unnamed, -⟩ := foldl_records (fun s f => s.feed f) (fun s => s.clock.rate)
    (fun rate _ (r : FeedRecord) x => x.configured r rate) (fun s r => s.setFeed r.1 ((s.feed r.1).configured r.2 s.clock.rate))
    (fun s f r g => by
      by_cases e : f = g
      · subst e; simp
      · simp [e]) (fun _ _ => rfl) allFeeds (by decide) m.feeds s
  refine ⟨fun f r h => named _ f r (allFeeds_at f) h, fun f => ?_⟩
  by_cases e : ∃ (n : Nat) (r : FeedRecord), allFeeds[n]? = some f ∧ m.feeds[n]? = some r
  · obtain ⟨n, r, hn, hr⟩ := e
    exact .inr ⟨r, List.mem_of_getElem? hr, named n f r hn hr⟩
  · exact .inl (unnamed f fun n r hn hr => e ⟨n, r, hn, hr⟩)

theorem State.applyLines_at (s : State) (m : Image) (l : LineNo) (r : LineRecord) (h : m.lines[l.val]? = some r) :
    (s.applyLines m).line l = (s.line l).configured r :=
  (foldl_records (fun s l => s.line l) (fun _ => ()) (fun _ _ (r : LineRecord) x => x.configured r)
    (fun s r => s.setLine r.1 ((s.line r.1).configured r.2)) (fun s i r j => by
      by_cases e : i = j
      · subst e; simp
      · simp [e]) (fun _ _ => rfl) allLines (by decide) m.lines s).1 _ l r (allLines_at l) h

/-- A carousel record fills its slot, and leaves the rest of its feed alone. -/
theorem State.applyTables_rest (s : State) (m : Image) (f : FeedNo) :
    ∃ v, (s.applyTables m).feed f = { s.feed f with carousel := v } := by
  unfold State.applyTables
  generalize m.carousel = l
  induction l generalizing s with
  | nil => exact ⟨_, rfl⟩
  | cons r l ih =>
    obtain ⟨v, h⟩ := ih (s.applyTable r)
    rw [List.foldl_cons, h]
    unfold State.applyTable
    dsimp only
    rw [State.feed_setFeed]
    split
    · rename_i e; subst e; exact ⟨v, rfl⟩
    · exact ⟨v, rfl⟩

/-- The table of a slot that an image's carousel records leave: of the record that names the slot, or the one before. -/
theorem State.applyTables_at (s : State) (m : Image) (distinct : (m.carousel.map fun r => (r.feed, r.slot)).Nodup) :
    (∀ r ∈ m.carousel, tget ((s.applyTables m).feed r.feed).carousel r.slot = some ⟨r.id, r.interval, r.payload, r.interval, true⟩) ∧
      ∀ f c, (∀ r ∈ m.carousel, ¬(r.feed = f ∧ r.slot = c)) →
        tget ((s.applyTables m).feed f).carousel c = tget (s.feed f).carousel c := by
  unfold State.applyTables
  generalize m.carousel = l at distinct ⊢
  induction l generalizing s with
  | nil => exact ⟨by simp, fun _ _ _ => rfl⟩
  | cons a l ih =>
    rw [List.map_cons, List.nodup_cons] at distinct
    obtain ⟨fresh, distinct⟩ := distinct
    obtain ⟨named, unnamed⟩ := ih (s.applyTable a) distinct
    have free : ∀ r ∈ l, ¬(r.feed = a.feed ∧ r.slot = a.slot) := fun r hr h =>
      fresh (List.mem_map.2 ⟨r, hr, Prod.ext h.1 h.2⟩)
    rw [List.foldl_cons]
    refine ⟨?_, fun f c none' => ?_⟩
    · rintro r (_ | ⟨_, hr⟩)
      · rw [unnamed _ _ free]
        simp [State.applyTable]
      · exact named r hr
    · rw [unnamed f c fun r hr => none' r (List.mem_cons_of_mem _ hr)]
      have differs := none' a List.mem_cons_self
      unfold State.applyTable
      dsimp only
      rw [State.feed_setFeed]
      split
      · rename_i e
        subst e
        rw [tget_tset, if_neg fun e => differs ⟨rfl, e⟩]
      · rfl

/-! ### The whole -/

theorem State.applyImage_src (s : State) (m : Image) (i : SrcNo) (r : SourceEntry) (h : m.sources[i.val]? = some r) :
    (s.applyImage m).src i = (s.src i).configured r := by
  have same : (s.applyImage m).src i = ((s.applyPorts m).applySources m).src i := by
    unfold State.src; rw [State.applyImage_sources]
  rw [same, State.applySources_at _ m i r h]
  unfold State.src
  rw [State.applyPorts_sources]

/-- The bases are judged by the sources as the image leaves them (R56). -/
theorem State.applyImage_markFor (s : State) (m : Image) :
    (s.applyImage m).markFor = ({ (s.applyPorts m).applySources m with scan := m.scan } : State).markFor := by
  funext a b
  unfold State.markFor State.src
  rw [State.applyImage_sources]

theorem State.applyImage_pos (s : State) (m : Image) (f : FeedNo) (p : PosNo) (r : PositionRecord)
    (h : m.positions[f.val * 8 + p.val]? = some r) :
    (s.applyImage m).pos f p = { s.pos f p with
      ids := r.ids, base := r.base, fallback := r.fallback, policy := r.policy
      baseMark := (s.applyImage m).markFor r.base r.fallback } := by
  have same : (s.applyImage m).pos f p = ({ (s.applyPorts m).applySources m with scan := m.scan }.applyPositions m).pos f p := by
    unfold State.pos; rw [State.applyImage_positions]
  obtain ⟨_, h1⟩ := applySources_frame (s.applyPorts m) m
  obtain ⟨_, _, h2⟩ := applyPorts_frame s m
  rw [same, State.applyPositions_at _ m f p r h, State.applyImage_markFor, h1, h2]
  rfl

theorem State.applyImage_ports_eq (s : State) (m : Image) :
    (s.applyImage m).ports = (s.applyPorts m).ports ∧ (s.applyImage m).list = (s.applyPorts m).list := by
  rw [State.applyImage_eq]
  obtain ⟨_, h6⟩ := applyLines_frame _ m
  obtain ⟨_, h5⟩ := applyTables_frame _ m
  obtain ⟨_, h4⟩ := applyFeeds_frame _ m
  obtain ⟨_, h3⟩ := applyPositions_frame _ m
  obtain ⟨_, h2⟩ := applySources_frame (s.applyPorts m) m
  rw [h6, h5, h4, h3, h2]
  exact ⟨rfl, rfl⟩

theorem State.applyImage_feed_eq (s : State) (m : Image) (f : FeedNo) :
    (s.applyImage m).feed f = ((s.applyFeeds m).applyTables m).feed f := by
  have tables : ∀ (t : State) (g : FeedNo), t.feeds = s.feeds → t.clock = s.clock →
      ((t.applyFeeds m).applyTables m).feed g = ((s.applyFeeds m).applyTables m).feed g := by
    intro t g hf hc
    have feeds : (t.applyFeeds m).feeds = (s.applyFeeds m).feeds := by
      unfold State.applyFeeds
      generalize allFeeds.zip m.feeds = l
      induction l generalizing s t with
      | nil => exact hf
      | cons a l ih =>
        refine ih (s.setFeed a.1 _) (t.setFeed a.1 _) ?_ hc
        simp only [State.setFeed, State.feed, hf, hc]
    unfold State.applyTables State.feed
    congr 1
    generalize t.applyFeeds m = v at feeds ⊢
    generalize s.applyFeeds m = u at feeds ⊢
    generalize m.carousel = l
    induction l generalizing u v with
    | nil => exact feeds
    | cons a l ih =>
      refine ih (v.applyTable a) (u.applyTable a) ?_
      simp only [State.applyTable, State.setFeed, State.feed, feeds]
  rw [State.applyImage_eq]
  obtain ⟨_, h6⟩ := applyLines_frame
    ((({ (s.applyPorts m).applySources m with scan := m.scan }.applyPositions m).applyFeeds m).applyTables m) m
  rw [h6]
  obtain ⟨_, h3⟩ := applyPositions_frame { (s.applyPorts m).applySources m with scan := m.scan } m
  obtain ⟨_, h2⟩ := applySources_frame (s.applyPorts m) m
  obtain ⟨_, _, h1⟩ := applyPorts_frame s m
  refine tables _ f ?_ ?_
  · rw [h3, h2, h1]
  · rw [h3, h2, h1]

/-! ### What the sections hold -/

theorem records_length {α : Type} {read : List Byte → Option α} {size n : Nat} {b : List Byte} {l : List α}
    (h : records read size n b = some l) : l.length = n := by
  induction n generalizing b l with
  | zero => cases h; rfl
  | succ n ih =>
    unfold records at h
    split at h
    · rename_i rest _ hrest
      cases h
      rw [List.length_cons, ih hrest]
    · cases h

theorem sectionOf_counts {α : Type} {code size : Nat} {counts : Nat → Bool} {read : List Byte → Option α} {b rest : List Byte}
    {l : List α} (h : sectionOf code counts size read b = some (l, rest)) : counts l.length = true := by
  unfold sectionOf at h
  dsimp only at h
  split at h
  · rename_i passes
    split at h
    · cases h
      rw [records_length ‹_›]
      exact passes.2.2.1
    · cases h
  · cases h

/-- What an image holds (R166): the counts of its sections, and records that their readers have passed. -/
theorem imageOf_holds {b : List Byte} {m : Image} (h : imageOf b = some m) :
    (m.ports.length = 4 ∧ m.sources.length = 16 ∧ m.positions.length = 48 ∧ m.feeds.length = 6 ∧ m.lines.length = 8) ∧
      (∀ x ∈ m.positions, ∃ c, positionRecordOf c = some x) ∧ ∀ x ∈ m.feeds, ∃ c, feedRecordOf c = some x := by
  simp only [imageOf, Option.bind_eq_bind, Option.bind_eq_some_iff, Prod.exists] at h
  obtain ⟨_, _, hports, _, _, hsources, scan, _, -, _, _, hpositions, _, _, hfeeds, _, _, -, _, _, hlines, h⟩ := h
  split at h
  · cases h
    exact ⟨⟨by simpa using sectionOf_counts hports, by simpa using sectionOf_counts hsources,
      by simpa using sectionOf_counts hpositions, by simpa using sectionOf_counts hfeeds, by simpa using sectionOf_counts hlines⟩,
      sectionOf_read hpositions, sectionOf_read hfeeds⟩
  · cases h

end Sys2Proof.Machine
end

section
/-! SUPPORT. Every substitution mark stays the one that R50 gives (R50, R51, R56). -/

namespace Sys2Proof.Machine

/-! ### Marks -/

/-- The marks of a position are those that the sources give. -/
def State.MarkedAt (s : State) (x : Position) : Prop :=
  x.baseMark = s.markFor x.base x.fallback ∧ ∀ e ∈ x.upper, e.mark = s.markFor (some e.source) x.fallback

/-- So are those that a test does not pick. -/
def State.MarkedBut (s : State) (x : Position) (picks : Option SrcNo → Bool) : Prop :=
  (picks x.base = false → x.baseMark = s.markFor x.base x.fallback) ∧
    ∀ e ∈ x.upper, picks (some e.source) = false → e.mark = s.markFor (some e.source) x.fallback

/-- Every mark is right. -/
def State.MarksRight (s : State) : Prop := ∀ f p, s.MarkedAt (s.pos f p)

theorem Health.failed_iff (h : Health) : h.failed = true ↔ h = .faulted ∨ h = .disabled := by cases h <;> decide

theorem State.markFor_iff (s : State) (source fallback : Option SrcNo) :
    s.markFor source fallback = true ↔ s.markDue source fallback := by
  unfold State.markFor State.markDue
  cases source <;> cases fallback <;> simp [Health.failed_iff, ← Bool.not_eq_true, and_assoc]

theorem State.marksSound_iff (s : State) : s.MarksSound ↔ s.MarksRight := by
  have same : ∀ (b : Bool) x y, (b = true ↔ s.markDue x y) ↔ b = s.markFor x y := fun b x y => by
    rw [← State.markFor_iff]
    exact ⟨fun h => Bool.eq_iff_iff.2 h, fun h => by rw [h]⟩
  simp only [State.MarksSound, State.MarksRight, State.MarkedAt, same]

theorem State.MarkedAt.but {s : State} {x : Position} (h : s.MarkedAt x) (picks : Option SrcNo → Bool) : s.MarkedBut x picks :=
  ⟨fun _ => h.1, fun e he _ => h.2 e he⟩

/-- What the marks are judged by is alike in two states. -/
def SameJudge (s t : State) : Prop :=
  ∀ i, (t.src i).health.failed = (s.src i).health.failed ∧ (t.src i).table.fallbackPermit = (s.src i).table.fallbackPermit

theorem SameJudge.markFor {s t : State} (h : SameJudge s t) : t.markFor = s.markFor := by
  funext a b
  unfold State.markFor
  cases a <;> cases b <;> simp [h _]

theorem SourcesFreed.judge {s t : State} (h : SourcesFreed s t) : SameJudge s t := by
  intro i
  obtain ⟨n, e⟩ := h i
  unfold State.src
  rw [e]
  exact ⟨rfl, rfl⟩

theorem State.MarkedBut.moved {s t : State} {x y : Position} {k : Option SrcNo → Bool} (h : s.MarkedBut x k) (judge : SameJudge s t)
    (same : y.SelectsAs x) : t.MarkedBut y k := by
  obtain ⟨-, hf, -, hb, hm, hu⟩ := same
  unfold State.MarkedBut
  rw [judge.markFor, hf, hb, hm, hu]
  exact h

theorem State.MarkedAt.moved {s t : State} {x y : Position} (h : s.MarkedAt x) (judge : SameJudge s t) (same : y.SelectsAs x) :
    t.MarkedAt y := by
  obtain ⟨-, hf, -, hb, hm, hu⟩ := same
  unfold State.MarkedAt
  rw [judge.markFor, hf, hb, hm, hu]
  exact h

theorem State.MarksRight.moves {s t : State} (h : s.MarksRight) (o : OnlyMoves s t) : t.MarksRight :=
  fun f p => (h f p).moved o.freed.judge (o.selects f p)

theorem State.MarksRight.told {s t : State} (h : s.MarksRight) (o : OnlyPorts s t) : t.MarksRight := h.moves o.moves

theorem State.MarksRight.setPos {s : State} (h : s.MarksRight) (f : FeedNo) (p : PosNo) {x : Position} (hx : s.MarkedAt x) :
    (s.setPos f p x).MarksRight := by
  intro g q
  rw [State.pos_setPos]
  split
  · exact hx
  · exact h g q

/-- Positions that select as before, with sources judged as before. -/
theorem State.MarksRight.selects {s t : State} (h : s.MarksRight) (judge : SameJudge s t)
    (same : ∀ f p, (t.pos f p).SelectsAs (s.pos f p)) : t.MarksRight := fun f p => (h f p).moved judge (same f p)

/-! ### Marks judged anew (R51) -/

theorem State.judged_marked {s : State} {x : Position} {picks : Option SrcNo → Bool} (h : s.MarkedBut x picks) :
    s.MarkedAt (s.judged x picks) := by
  obtain ⟨base, upper⟩ := h
  unfold State.judged State.MarkedAt
  dsimp only
  refine ⟨?_, ?_⟩
  · split
    · rfl
    · exact base (Bool.not_eq_true _ ▸ ‹_›)
  · simp only [List.mem_map]
    rintro _ ⟨e, he, rfl⟩
    split
    · rfl
    · exact upper e he (Bool.not_eq_true _ ▸ ‹_›)

/-- One position judged: it is right, and the others stand as before. -/
theorem State.judgePosition_marks (s : State) (f : FeedNo) (p : PosNo) (picks : Option SrcNo → Bool) :
    SameJudge s (s.judgePosition f p picks) ∧ ∀ g q, ((s.judgePosition f p picks).pos g q).SelectsAs
      (if f = g ∧ p = q then s.judged (s.pos f p) picks else s.pos g q) := by
  have o : OnlyMoves (s.setPos f p (s.judged (s.pos f p) picks)) (s.judgePosition f p picks) := handOver_frame _ _ _ _ _ _
  refine ⟨o.freed.judge, fun g q => ?_⟩
  have h := o.selects g q
  rw [State.pos_setPos] at h
  exact h

/-- Every position judged in turn by a test that its fallback alone decides: all marks are right in the end. -/
theorem State.judgeAll_marks (picks : Option SrcNo → Option SrcNo → Bool) (s : State)
    (but : ∀ f p, s.MarkedBut (s.pos f p) (picks (s.pos f p).fallback)) :
    (allPositions.foldl (fun s fp => s.judgePosition fp.1 fp.2 (picks (s.pos fp.1 fp.2).fallback)) s).MarksRight := by
  suffices ∀ (l : List (FeedNo × PosNo)) (s : State), (∀ f p, s.MarkedBut (s.pos f p) (picks (s.pos f p).fallback)) →
      (∀ f p, (f, p) ∉ l → s.MarkedAt (s.pos f p)) →
      (l.foldl (fun s fp => s.judgePosition fp.1 fp.2 (picks (s.pos fp.1 fp.2).fallback)) s).MarksRight from
    this allPositions s but fun f p h => absurd (mem_allPositions f p) h
  intro l
  induction l with
  | nil => exact fun s _ right f p => right f p (by simp)
  | cons fp l ih =>
    intro s but right
    obtain ⟨f, p⟩ := fp
    obtain ⟨judge, selects⟩ := s.judgePosition_marks f p (picks (s.pos f p).fallback)
    have here := State.judged_marked (but f p)
    rw [List.foldl_cons]
    refine ih _ (fun g q => ?_) fun g q out => ?_
    · have sel := selects g q
      split at sel
      · exact (here.moved judge sel).but _
      · rw [sel.2.1]; exact (but g q).moved judge sel
    · have sel := selects g q
      split at sel
      · exact here.moved judge sel
      · rename_i e
        exact (right g q fun hm => by
          rcases List.mem_cons.1 hm with h | h
          · exact e ⟨congrArg Prod.fst h.symm, congrArg Prod.snd h.symm⟩
          · exact out h).moved judge sel

theorem State.healthChanged_marks {s : State} (i : SrcNo)
    (but : ∀ f p, s.MarkedBut (s.pos f p) fun x => decide ((s.pos f p).fallback = some i) || decide (x = some i)) :
    (s.healthChanged i).MarksRight :=
  State.judgeAll_marks (fun fallback x => decide (fallback = some i) || decide (x = some i)) s but

theorem State.permitChanged_marks {s : State} (i : SrcNo) (but : ∀ f p, s.MarkedBut (s.pos f p) fun x => decide (x = some i)) :
    (s.permitChanged i).MarksRight := State.judgeAll_marks (fun _ x => decide (x = some i)) s but

/-- A source replaced: the marks in which it does not play a part stay. -/
theorem State.markFor_setSrc (s : State) (i : SrcNo) (x : Source) (a b : Option SrcNo) (ha : a ≠ some i) (hb : b ≠ some i) :
    (s.setSrc i x).markFor a b = s.markFor a b := by
  unfold State.markFor
  cases a with
  | none => rfl
  | some a =>
    cases b with
    | none => rfl
    | some b =>
      have ha : i ≠ a := fun e => ha (e ▸ rfl)
      have hb : i ≠ b := fun e => hb (e ▸ rfl)
      simp [State.src_setSrc, ha, hb]

/-- A source replaced, whatever its health: what its change of health does not judge is right. -/
theorem State.MarksRight.setSrc {s : State} (h : s.MarksRight) (i : SrcNo) (x : Source) (f : FeedNo) (p : PosNo) :
    (s.setSrc i x).MarkedBut ((s.setSrc i x).pos f p)
      fun y => decide (((s.setSrc i x).pos f p).fallback = some i) || decide (y = some i) := by
  rw [State.setSrc_pos]
  obtain ⟨base, upper⟩ := h f p
  simp only [State.MarkedBut, Bool.or_eq_false_iff, decide_eq_false_iff_not]
  exact ⟨fun ⟨hf, hb⟩ => by rw [s.markFor_setSrc i x _ _ hb hf]; exact base,
    fun e he ⟨hf, hb⟩ => by rw [s.markFor_setSrc i x _ _ hb hf]; exact upper e he⟩

/-- A source replaced by one of like health: what its permit does not judge is right. -/
theorem State.MarksRight.setSrc_permit {s : State} (h : s.MarksRight) (i : SrcNo) (x : Source)
    (health : x.health.failed = (s.src i).health.failed) (f : FeedNo) (p : PosNo) :
    (s.setSrc i x).MarkedBut ((s.setSrc i x).pos f p) fun y => decide (y = some i) := by
  have same : ∀ a b, a ≠ some i → (s.setSrc i x).markFor a b = s.markFor a b := by
    intro a b ha
    unfold State.markFor
    cases a with
    | none => rfl
    | some a =>
      have ha : i ≠ a := fun e => ha (e ▸ rfl)
      cases b with
      | none => rfl
      | some b =>
        have like : ((s.setSrc i x).src b).health.failed = (s.src b).health.failed := by
          rw [State.src_setSrc]; split
          · rename_i e; subst e; exact health
          · rfl
        dsimp only
        rw [like, State.src_setSrc, if_neg ha]
  rw [State.setSrc_pos]
  obtain ⟨base, upper⟩ := h f p
  simp only [State.MarkedBut, decide_eq_false_iff_not]
  exact ⟨fun hb => by rw [same _ _ hb]; exact base, fun e he hb => by rw [same _ _ hb]; exact upper e he⟩

/-- A source replaced by one that is judged alike. -/
theorem SameJudge.setSrc (s : State) (i : SrcNo) (x : Source) (health : x.health = (s.src i).health)
    (permit : x.table.fallbackPermit = (s.src i).table.fallbackPermit) : SameJudge s (s.setSrc i x) := by
  intro j
  rw [State.src_setSrc]
  split
  · rename_i e; subst e; rw [health, permit]; exact ⟨rfl, rfl⟩
  · exact ⟨rfl, rfl⟩

/-! ### Every event -/

theorem Source.withTable_health (x : Source) (t : SourceEntry) (h : x.table.enabled = t.enabled) : (x.withTable t).health = x.health := by
  unfold Source.withTable
  dsimp only
  rw [h]
  simp

theorem Source.withTable_table (x : Source) (t : SourceEntry) : (x.withTable t).table = t := by
  unfold Source.withTable; dsimp only; split_ifs <;> rfl

theorem State.MarksRight.entryStacked {s : State} (h : s.MarksRight) (e : Entry) (b : Option SrcNo) (k : Bool) :
    (s.entryStacked e b k).MarksRight := h.moves (entryStacked_frame s e b k)

/-- An entry put in a stack is there with those that were. -/
theorem mem_insertEntry {upper : List StackEntry} {e x : StackEntry} (h : x ∈ (insertEntry upper e).1) : x = e ∨ x ∈ upper := by
  unfold insertEntry at h
  dsimp only at h
  have whole := List.takeWhile_append_dropWhile (p := fun x : StackEntry => decide (e.cls.rank < x.cls.rank)) (l := upper.reverse)
  have all : x ∈ upper ↔ x ∈ upper.reverse := List.mem_reverse.symm
  rw [all, ← whole]
  simp only [List.mem_append, List.mem_reverse, List.mem_singleton] at h ⊢
  tauto

theorem State.MarksRight.fire {s : State} (h : s.MarksRight) (e : Entry) : (s.fire e).MarksRight := by
  unfold State.fire
  split
  · unfold State.fireTake
    dsimp only
    split
    · exact h.told (addOutcome_frame _ _ _)
    · refine State.MarksRight.entryStacked ?_ _ _ _
      obtain ⟨base, upper⟩ := h e.feed e.position
      refine h.setPos _ _ ⟨base, fun x hx => ?_⟩
      rcases mem_insertEntry hx with rfl | hx
      · rfl
      · exact upper x hx
  · unfold State.fireReturn
    dsimp only
    split
    · rename_i r hr
      refine State.MarksRight.entryStacked ?_ _ _ _
      obtain ⟨base, upper⟩ := h e.feed e.position
      exact h.setPos _ _ ⟨base, fun x hx => upper x ((removeTopmost_sublist hr).subset hx)⟩
    · exact h.told (addOutcome_frame _ _ _)
  · refine State.MarksRight.entryStacked ?_ _ _ _
    exact h.setPos _ _ ⟨rfl, (h e.feed e.position).2⟩
  · refine h.selects (OnlyFeeds.freed (firePlan_frame s e)).judge fun f p => ?_
    rw [(firePlan_frame s e).pos]
    exact ⟨rfl, rfl, rfl, rfl, rfl, rfl⟩
  · exact h.told (addOutcome_frame _ _ _)

theorem OnlyFeeds.marks {s t : State} (o : OnlyFeeds s t) (h : s.MarksRight) : t.MarksRight :=
  h.selects o.freed.judge fun f p => by rw [o.pos]; exact ⟨rfl, rfl, rfl, rfl, rfl, rfl⟩

theorem State.MarksRight.frameTask {s : State} (h : s.MarksRight) (k : FrameTask) : (s.frameTask k).MarksRight := by
  cases k with
  | windowEnd f p =>
    refine State.MarksRight.told (State.MarksRight.moves
      (s := s.setPos f p { s.pos f p with upper := (s.pos f p).upper.filter fun e => e.window ≠ some 0 }) ?_
      (handOver_frame _ f p (s.pos f p).effective (s.pos f p).policy none)) (foldl_rel OnlyPorts OnlyPorts.rfl' OnlyPorts.trans _
      (fun s _ => addOutcome_frame s _ _) _ _)
    exact h.setPos f p ⟨(h f p).1, fun x hx => (h f p).2 x (List.mem_of_mem_filter hx)⟩
  | forcedSwitch f p => exact h.moves (forceSwitch_frame s f p)
  | dueMaking f c => exact (makeDue_frame s f c).marks h
  | swap f => exact (takeSwap_frame s f).marks h
  | start f =>
    simp only [State.frameTask, State.takeStart]
    split
    · exact foldl_keeps State.MarksRight _ (fun s p h => h.moves (attachPosition_frame s f p).moves) _ _ h
    · exact h

theorem State.withSettings_marked {s : State} (h : s.MarksRight) (f : FeedNo) (p : PosNo) (flags : Byte)
    (v : Vector (Option Nat) 4 × Option SrcNo × Option SrcNo × Splice)
    (hbase : flags.getLsbD 1 = false → v.2.1 = (s.pos f p).base) (hfallback : flags.getLsbD 2 = false → v.2.2.1 = (s.pos f p).fallback) :
    s.MarkedAt (s.withSettings f p flags v) := by
  obtain ⟨base, upper⟩ := h f p
  by_cases h2 : flags.getLsbD 2 = true
  · unfold State.withSettings
    dsimp only
    rw [if_pos h2]
    exact State.judged_marked ⟨fun h => by simp at h, fun _ _ h => by simp at h⟩
  · have hf := hfallback (by simpa using h2)
    by_cases h1 : flags.getLsbD 1 = true
    · unfold State.withSettings
      dsimp only
      rw [if_neg h2, if_pos h1]
      refine ⟨rfl, fun e he => ?_⟩
      split_ifs at he ⊢ <;> exact (upper e he).trans (congrArg _ hf.symm)
    · have hb := hbase (by simpa using h1)
      unfold State.withSettings
      dsimp only
      rw [if_neg h2, if_neg h1, hb, hf]
      split <;> exact ⟨base, upper⟩

/-- Values that are not flagged stay (R40). -/
theorem positionValues_kept {x : Position} {b : List Byte} {v : Vector (Option Nat) 4 × Option SrcNo × Option SrcNo × Splice}
    (h : positionValues x b = some v) :
    ((byteAt b 2).getLsbD 1 = false → v.2.1 = x.base) ∧ ((byteAt b 2).getLsbD 2 = false → v.2.2.1 = x.fallback) := by
  unfold positionValues at h
  dsimp only at h
  split at h
  · cases h
  · split at h
    · rename_i _ _ base fallback _ _ hbase hfallback _
      cases h
      refine ⟨fun e => ?_, fun e => ?_⟩
      · rw [e] at hbase; exact (Option.some.inj (show some x.base = some base from hbase)).symm
      · rw [e] at hfallback; exact (Option.some.inj (show some x.fallback = some fallback from hfallback)).symm
    · cases h

theorem State.MarksRight.reading {s t : State} (h : s.MarksRight) (o : SameReading s t) : t.MarksRight := by
  refine h.selects (fun i => ?_) fun f k => ?_
  · unfold State.src; rw [o.2]; exact ⟨rfl, rfl⟩
  · unfold State.pos; rw [o.1]; exact ⟨rfl, rfl, rfl, rfl, rfl, rfl⟩

theorem State.MarksRight.request (r : Request) (p : PortNo) (b : List Byte) {s : State} (h : s.MarksRight) :
    (perform r p b s).1.MarksRight := by
  cases r
  case setPosition =>
    obtain e | ⟨f, k, v, hv, -, -, e⟩ := reqSetPosition_cases p b s <;> rw [perform, e]
    · exact h
    · obtain ⟨hbase, hfallback⟩ := positionValues_kept hv
      refine State.MarksRight.moves (State.MarksRight.moves (s := s.setPos f k (s.withSettings f k (byteAt b 2) v)) ?_
        (trimOpt_frame _ _).reading.moves) (handOver_frame _ _ _ _ _ _)
      exact h.setPos f k (State.withSettings_marked h f k _ v hbase hfallback)
  case release =>
    obtain e | ⟨f, k, e⟩ := reqRelease_cases p b s <;> rw [perform, e]
    · exact h
    · refine State.MarksRight.moves ?_ (handOver_frame _ _ _ _ _ _)
      exact h.setPos f k ⟨(h f k).1, fun x hx => (h f k).2 x (List.eraseP_sublist.subset hx)⟩
  case setSource =>
    obtain e | ⟨i, t, ⟨-, e⟩ | ⟨enabled, e⟩ | ⟨enabled, permit, e⟩⟩ := reqSetSource_cases p b s <;> rw [perform, e]
    · exact h
    · exact State.healthChanged_marks i (h.setSrc i _)
    · exact State.permitChanged_marks i (h.setSrc_permit i _ (by rw [Source.withTable_health _ _ enabled]))
    · refine h.selects (SameJudge.setSrc s i _ (Source.withTable_health _ _ enabled) ?_) fun f p => ⟨rfl, rfl, rfl, rfl, rfl, rfl⟩
      rw [Source.withTable_table, permit]
  case ackFaults =>
    refine foldl_keeps State.MarksRight _ (fun s i h => ?_) allSources s h
    split
    · exact h.selects (SameJudge.setSrc s i _ rfl rfl) fun f p => ⟨rfl, rfl, rfl, rfl, rfl, rfl⟩
    · exact h
  case stopFeed =>
    obtain e | ⟨f, ⟨-, e⟩ | e⟩ := reqStopFeed_cases p b s <;> rw [perform, e]
    · exact h
    · exact foldl_keeps State.MarksRight _ (fun s p h => h.moves (restPosition_frame s f p)) _ _ h
    · exact h
  all_goals exact h.reading (perform_reading _ p b s (by decide))

theorem State.marksRight_heldAt (r : FrameRate) (q : List Instr) : (State.heldAt r q).MarksRight := by
  intro f p
  simp [State.heldAt, State.pos, Position.reset, State.MarkedAt, State.markFor]

/-- An image judges every base; while it is read no entry lies above one (R56). -/
theorem State.marksRight_readSections {s : State} (load : s.LoadSound) (h : s.MarksRight) (b : List Byte) :
    (s.readSections b).MarksRight := by
  obtain e | ⟨hphase, ⟨_, -, -, e⟩ | ⟨_, -, e⟩ | ⟨l, m, -, -, hm, -, e⟩⟩ := s.readSections_cases b <;> rw [e]
  · exact h
  · exact h
  · exact h
  · intro f p
    obtain ⟨-, -, upper, -⟩ := load (.inr hphase)
    have count : f.val * 8 + p.val < m.positions.length := by
      have := (imageOf_holds hm).1.2.2.1
      omega
    rw [State.applyImage_pos _ m f p _ (List.getElem?_eq_getElem count)]
    refine ⟨rfl, fun x hx => ?_⟩
    have none' : ({ s with loader := l }.pos f p).upper = [] := upper f p
    change x ∈ ({ s with loader := l }.pos f p).upper at hx
    rw [none'] at hx
    cases hx

/-! ### Packets -/

theorem SameJudge.trans {s t u : State} (a : SameJudge s t) (b : SameJudge t u) : SameJudge s u :=
  fun i => ⟨(b i).1.trans (a i).1, (b i).2.trans (a i).2⟩

theorem SameJudge.rfl' (s : State) : SameJudge s s := fun _ => ⟨rfl, rfl⟩

theorem OnlyPorts.judge {s t : State} (o : OnlyPorts s t) : SameJudge s t := o.moves.freed.judge

theorem pushCursor_judge (s : State) (i : SrcNo) (f : FeedNo) (p : PosNo) : SameJudge s (s.pushCursor i f p) := by
  unfold State.pushCursor
  dsimp only
  split
  · refine SameJudge.trans ?_ (raiseForFeed_frame _ _ _).judge
    exact SameJudge.setSrc (s.setPos f p _) i _ rfl rfl
  · exact .rfl' s

theorem pushAll_judge (s : State) (i : SrcNo) : SameJudge s (s.pushAll i) := by
  unfold State.pushAll
  generalize allPositions = l
  induction l generalizing s with
  | nil => exact .rfl' s
  | cons fp l ih => exact (pushCursor_judge s i fp.1 fp.2).trans (ih _)

theorem makeRoom_judge (s : State) (i : SrcNo) : SameJudge s (s.makeRoom i) := by
  rw [State.makeRoom_eq]
  split
  · exact .rfl' s
  · refine (pushAll_judge s i).trans ?_
    generalize s.pushAll i = u
    exact SameJudge.setSrc u i _ rfl rfl

theorem written_judge (s : State) (i : SrcNo) (k : Packet) : SameJudge s (s.written i k) := by
  refine (makeRoom_judge s i).trans ?_
  have put := SameJudge.setSrc (s.makeRoom i) i (((s.makeRoom i).src i).write k) rfl rfl
  exact put

theorem store_judge (s : State) (i : SrcNo) (k : Packet) : SameJudge s (s.store i k) := by
  rw [State.store_eq]
  refine SameJudge.trans (written_judge s i k) (SameJudge.trans ?_ (trim_frame _ i).reading.freed.judge)
  refine foldl_keeps (SameJudge (s.written i k)) _ (fun t fp h => ?_) _ _ (.rfl' _)
  split
  · exact h.trans (entrySwitch_frame _ _ _).freed.judge
  · exact h

theorem Source.checkContinuity_judge (x : Source) (k : Packet) :
    (x.checkContinuity k).health = x.health ∧ (x.checkContinuity k).table = x.table := by
  unfold Source.checkContinuity; dsimp only; split <;> exact ⟨rfl, rfl⟩

theorem Source.huntByte_judge (x : Source) (b : Byte) : (x.huntByte b).health = x.health ∧ (x.huntByte b).table = x.table := by
  unfold Source.huntByte; dsimp only; split <;> exact ⟨rfl, rfl⟩

theorem Source.syncByte_judge (x : Source) (b : Byte) : (x.syncByte b).health = x.health ∧ (x.syncByte b).table = x.table := by
  unfold Source.syncByte Source.loseSync; split_ifs <;> exact ⟨rfl, rfl⟩

theorem takeByte_judge (s : State) (i : SrcNo) (b : Byte) : SameJudge s (s.takeByte i b) := by
  have put : ∀ (t : State) (x : Source), x.health = (t.src i).health ∧ x.table = (t.src i).table → SameJudge t (t.setSrc i x) :=
    fun t x h => SameJudge.setSrc t i x h.1 (by rw [h.2])
  unfold State.takeByte
  dsimp only
  split
  · exact put s _ ((s.src i).huntByte_judge b)
  · split
    · have emptied := put s { s.src i with bytes := [] } ⟨rfl, rfl⟩
      split
      · unfold State.arrive
        dsimp only
        split
        · split
          · refine emptied.trans ((put _ _ ?_).trans (store_judge _ i _))
            exact Source.checkContinuity_judge _ _
          · exact emptied
        · exact emptied
      · exact emptied
    · exact put s _ ((s.src i).syncByte_judge b)

theorem discardStale_judge (s : State) (f : FeedNo) (p : PosNo) : SameJudge s (s.discardStale f p) := by
  unfold State.discardStale
  dsimp only
  split
  · rename_i c _
    refine SameJudge.trans ?_ (trim_frame _ c.source).reading.freed.judge
    refine SameJudge.trans ?_ (setFeed_freed _ f _).judge
    exact SameJudge.setSrc (s.setPos f p _) c.source _ rfl rfl
  · exact .rfl' s

theorem slotEvent_judge (s : State) (f : FeedNo) : SameJudge s (s.slotEvent f) := by
  unfold State.slotEvent
  dsimp only
  have stale : SameJudge s (allPlaces.foldl (fun s p => s.discardStale f p) s) :=
    foldl_keeps (SameJudge s) _ (fun t p h => h.trans (discardStale_judge t f p)) allPlaces s (.rfl' s)
  refine stale.trans ?_
  generalize allPlaces.foldl (fun s p => s.discardStale f p) s = u
  refine SameJudge.trans ?_ (setFeed_freed _ f _).judge
  unfold State.fillSlot
  split
  · exact (setFeed_freed _ f _).judge
  · exact ((setFeed_freed _ f _).trans (sendFrom_freed _ f _)).judge
  · exact ((setFeed_freed _ f _).trans (sendFrom_freed _ f _)).judge
  · exact (setFeed_freed _ f _).judge

/-! ### Every step -/

theorem State.MarksRight.counts {s : State} (h : s.MarksRight) : s.counts.MarksRight := by
  have judge : SameJudge s s.counts := fun i => by rw [State.counts_src]; exact ⟨rfl, rfl⟩
  intro f p
  obtain ⟨base, upper⟩ := h f p
  unfold State.MarkedAt
  rw [judge.markFor, State.counts_pos]
  refine ⟨base, fun x hx => ?_⟩
  obtain ⟨e, he, rfl⟩ := List.mem_map.1 (show x ∈ (s.pos f p).upper.map _ from hx)
  exact upper e he

theorem State.marksRightKept : Kept fun s => s.LoadSound ∧ s.MarksRight where
  free s q h k l c u g := ⟨State.loadSoundKept.free s q h k l c u g.1, g.2⟩
  reset r q := ⟨State.loadSoundKept.reset r q, State.marksRight_heldAt r q⟩
  release s b h := ⟨State.loadSoundKept.release s b h.1, State.marksRight_heldAt (.ofFrsel b) s.pending⟩
  header s b h := ⟨State.loadSoundKept.header s b h.1, by obtain ⟨_, _, e⟩ := headerByte_frame s b; rw [e]; exact h.2⟩
  sections s b h := ⟨State.loadSoundKept.sections s b h.1, State.marksRight_readSections h.1 h.2 b⟩
  counts s h := ⟨State.loadSoundKept.counts s h.1, h.2.counts⟩
  examine s h := ⟨State.loadSoundKept.examine s h.1, examine_keeps _
    (fun s x h hx => h.selects (SameJudge.setSrc s _ x (by rcases hx with ⟨-, -, h⟩ | rfl <;> [exact h; rfl])
      (by rcases hx with ⟨rfl, -⟩ | rfl <;> rfl)) fun _ _ => ⟨rfl, rfl, rfl, rfl, rfl, rfl⟩)
    (fun s h _ _ u o => State.healthChanged_marks _ fun f p => by
      rw [o.pos]
      exact (h.setSrc _ _ f p).moved o.judge ⟨rfl, rfl, rfl, rfl, rfl, rfl⟩) (fun _ _ h => h) s h.2⟩
  pass s b h := ⟨State.loadSoundKept.pass s b h.1,
    pass_keeps _ (fun _ _ h => h) (fun _ _ h => h) (fun _ _ h => h) (fun s e h => h.fire e) s b h.2⟩
  task s k h := ⟨State.loadSoundKept.task s k h.1, h.2.frameTask k⟩
  reload s h := ⟨State.loadSoundKept.reload s h.1, h.2⟩
  slot s f h := ⟨State.loadSoundKept.slot s f h.1, h.2.selects (slotEvent_judge s f) fun g q => (slotEvent_frame s f).selects g q⟩
  byte s i b h := ⟨State.loadSoundKept.byte s i b h.1, h.2.selects (takeByte_judge s i b) fun f p => (takeByte_frame s i b).selects f p⟩
  request r p b s ready h := ⟨State.loadSoundKept.request r p b s ready h.1, h.2.request r p b⟩

/-- Settles O54: every operation of a step keeps the stacks sound, and keeps the marks those that the sources give. -/
theorem stepKeepsStacksSound : Obligations.StepKeepsStacksSound := by
  unfold Obligations.StepKeepsStacksSound
  intro s t e
  refine ⟨fun h => State.stacksSoundKept.step s t h e, fun load h => ?_⟩
  rw [State.marksSound_iff] at h ⊢
  exact (State.marksRightKept.step s t ⟨load, h⟩ e).2

end Sys2Proof.Machine
end

section
/-! SUPPORT. Every transition slot stays sound (R54, R57, R70, R71). -/

namespace Sys2Proof.Machine

/-! ### One position replaced -/

/-- The second state has one position of the first replaced, packets freed and ports told, and nothing else. -/
def MovedTo (s : State) (f : FeedNo) (p : PosNo) (x : Position) (t : State) : Prop :=
  ∃ w u, t = { s.setPos f p x with sources := w, ports := u } ∧ Freed s.sources w ∧ Told s.ports u

@[simp] theorem State.setPos_pos (s : State) (f : FeedNo) (p : PosNo) : s.setPos f p (s.pos f p) = s := by
  simp [State.setPos, State.pos]

@[simp] theorem State.setPos_setPos (s : State) (f : FeedNo) (p : PosNo) (x y : Position) :
    (s.setPos f p x).setPos f p y = s.setPos f p y := by
  simp only [State.setPos, tget_tset, if_pos]
  congr 1
  simp [tset]

section
variable {s t u : State} {f : FeedNo} {p : PosNo} {x y : Position}

theorem OnlySources.movedTo (o : OnlySources (s.setPos f p x) t) : MovedTo s f p x t := by
  obtain ⟨w, rfl, h⟩ := o; exact ⟨w, s.ports, rfl, h, .rfl' _⟩

theorem OnlyPorts.movedTo (o : OnlyPorts s t) : MovedTo s f p (s.pos f p) t := by
  obtain ⟨v, rfl, h⟩ := o; exact ⟨s.sources, v, by rw [State.setPos_pos], .rfl' _, h⟩

theorem MovedTo.told (h : MovedTo s f p x t) (o : OnlyPorts t u) : MovedTo s f p x u := by
  obtain ⟨w, v, rfl, hw, hv⟩ := h; obtain ⟨v', rfl, hv'⟩ := o; exact ⟨w, v', rfl, hw, hv.trans hv'⟩

theorem MovedTo.freed (h : MovedTo s f p x t) (o : OnlySources t u) : MovedTo s f p x u := by
  obtain ⟨w, v, rfl, hw, hv⟩ := h; obtain ⟨w', rfl, hw'⟩ := o; exact ⟨w', v, rfl, hw.trans hw', hv⟩

theorem MovedTo.after (o : OnlyPorts s t) (h : MovedTo t f p x u) : MovedTo s f p x u := by
  obtain ⟨v, rfl, hv⟩ := o; obtain ⟨w', v', rfl, hw', hv'⟩ := h; exact ⟨w', v', rfl, hw', hv.trans hv'⟩

theorem MovedTo.again (a : MovedTo s f p x t) (b : MovedTo t f p y u) : MovedTo s f p y u := by
  obtain ⟨w, v, rfl, hw, hv⟩ := a
  obtain ⟨w', v', rfl, hw', hv'⟩ := b
  refine ⟨w', v', ?_, hw.trans hw', hv.trans hv'⟩
  have twice := s.setPos_setPos f p x y
  simp only [State.setPos] at twice ⊢
  rw [State.mk.injEq] at twice
  obtain ⟨-, -, -, -, positions, -⟩ := twice
  rw [positions]

theorem MovedTo.pos (h : MovedTo s f p x t) (g : FeedNo) (q : PosNo) : t.pos g q = if f = g ∧ p = q then x else s.pos g q := by
  obtain ⟨_, _, rfl, _⟩ := h; exact State.pos_setPos s f g p q x

theorem MovedTo.feeds (h : MovedTo s f p x t) : t.feeds = s.feeds := by obtain ⟨_, _, rfl, _⟩ := h; rfl

theorem MovedTo.feed (h : MovedTo s f p x t) (g : FeedNo) : t.feed g = s.feed g := by unfold State.feed; rw [h.feeds]

end

/-! ### What the Transition Unit leaves at a position -/

/-- A change taken leaves the position reading the source, or searching for it from another (R59, R60). -/
theorem takeChange_moved (s : State) (f : FeedNo) (p : PosNo) (t : Option SrcNo) (policy : Splice) (o : Option Owner) :
    ∃ x, MovedTo s f p x (s.takeChange f p t policy o) ∧ x.SelectsAs (s.pos f p) ∧
      (x.slot = .steady ∧ x.onAirSource = t ∨ ∃ i w o', x.slot = .seeking i w o' ∧ t = some i ∧ x.onAirSource ≠ t) := by
  have told := fun old => ownerDone_frame s f p old ⟨false, false, false, false, true⟩
  have done : ∀ (u : State) o fl, OnlyPorts u (u.ownerDone f p o fl) := fun u o fl => ownerDone_frame u f p o fl
  have now : ∀ u : State, u.pos f p = s.pos f p → ∃ x, MovedTo u f p x (u.switchNow f p t) ∧ x.SelectsAs (s.pos f p) ∧
      x.slot = .steady ∧ x.onAirSource = t := by
    intro u hu
    refine ⟨_, (u.switchNow_writes f p t).movedTo, by rw [hu]; exact ⟨rfl, rfl, rfl, rfl, rfl, rfl⟩, rfl, ?_⟩
    cases t <;> rfl
  cases hslot : (s.pos f p).slot with
  | steady =>
    by_cases hair : t = (s.pos f p).onAirSource
    · rw [State.takeChange_steady_onAir o hslot hair]
      exact ⟨_, (done s o .none).movedTo, ⟨rfl, rfl, rfl, rfl, rfl, rfl⟩, .inl ⟨hslot, hair.symm⟩⟩
    · cases hwait : s.searchWait f p t policy with
      | none =>
        rw [State.takeChange_steady_now o hslot hair hwait]
        obtain ⟨x, moved, selects, reads⟩ := now s rfl
        exact ⟨x, moved.told (done _ _ _), selects, .inl reads⟩
      | some w =>
        cases t with
        | none => cases policy <;> simp [State.searchWait] at hwait
        | some i =>
          rw [State.takeChange_steady_search o hslot hair hwait]
          exact ⟨_, (s.seek_writes f p i w o).movedTo, ⟨rfl, rfl, rfl, rfl, rfl, rfl⟩, .inr ⟨i, w, o, rfl, rfl, Ne.symm hair⟩⟩
  | seeking j v old =>
    by_cases hair : t = (s.pos f p).onAirSource
    · rw [State.takeChange_seeking_onAir o hslot hair]
      refine ⟨_, (MovedTo.after (told old) (trim_frame _ j).movedTo).told (done _ _ _), ⟨rfl, rfl, rfl, rfl, rfl, rfl⟩, .inl ⟨rfl, hair.symm⟩⟩
    · cases hwait : s.searchWait f p t policy with
      | none =>
        rw [State.takeChange_seeking_now o hslot hair hwait]
        obtain ⟨x, moved, selects, reads⟩ := now _ ((told old).pos f p)
        exact ⟨x, (MovedTo.after (told old) moved).told (done _ _ _), selects, .inl reads⟩
      | some w =>
        cases t with
        | none => cases policy <;> simp [State.searchWait] at hwait
        | some i =>
          rw [State.takeChange_seeking_search o hslot hair hwait]
          refine ⟨_, MovedTo.after (told old) (State.seek_writes _ f p i v o).movedTo, ?_, .inr ⟨i, v, o, rfl, rfl, ?_⟩⟩
          · rw [(told old).pos]; exact ⟨rfl, rfl, rfl, rfl, rfl, rfl⟩
          · rw [(told old).pos]; exact Ne.symm hair

/-! ### Slots -/

/-- Every slot is sound. -/
structure State.SlotsSound (s : State) : Prop where
  holds : ∀ f p, (s.pos f p).SlotSound (s.feed f).running

/-- A slot's soundness speaks of what it seeks, what is on air, and the effective source. -/
theorem Position.slotSound_iff (x : Position) (running : Bool) :
    x.SlotSound running ↔ if running then
        (x.slot.target = none ∧ x.onAirSource = x.effective) ∨ ∃ i, x.slot.target = some i ∧ x.effective = some i ∧ x.onAirSource ≠ some i
      else x.slot.target = none ∧ x.onAirSource = none := by
  unfold Position.SlotSound
  cases running <;> cases x.slot <;> simp [Slot.target, Position.onAirSource]

theorem Position.SlotSound.congr {x y : Position} {running : Bool} (h : x.SlotSound running) (target : y.slot.target = x.slot.target)
    (onAir : y.onAirSource = x.onAirSource) (effective : running = true → y.effective = x.effective) : y.SlotSound running := by
  rw [Position.slotSound_iff] at h ⊢
  rw [target, onAir]
  cases running
  · exact h
  · rw [effective rfl]; exact h

/-- A change just taken leaves a sound slot. -/
theorem Position.slotSound_of_reads {x : Position} (h : x.slot = .steady ∧ x.onAirSource = x.effective ∨
    ∃ i w o, x.slot = .seeking i w o ∧ x.effective = some i ∧ x.onAirSource ≠ x.effective) : x.SlotSound true := by
  rw [Position.slotSound_iff, if_pos rfl]
  rcases h with ⟨hs, ha⟩ | ⟨i, w, o, hs, he, ha⟩
  · exact .inl ⟨by rw [hs]; rfl, ha⟩
  · exact .inr ⟨i, by rw [hs]; rfl, he, he ▸ ha⟩

theorem State.SlotsSound.congr {s t : State} (h : s.SlotsSound) (running : ∀ f, (t.feed f).running = (s.feed f).running)
    (target : ∀ f p, (t.pos f p).slot.target = (s.pos f p).slot.target)
    (onAir : ∀ f p, (t.pos f p).onAirSource = (s.pos f p).onAirSource)
    (effective : ∀ f p, (t.pos f p).effective = (s.pos f p).effective) : t.SlotsSound := by
  refine ⟨fun f p => ?_⟩
  rw [running]
  exact (h.holds f p).congr (target f p) (onAir f p) fun _ => effective f p

theorem State.SlotsSound.told {s t : State} (h : s.SlotsSound) (o : OnlyPorts s t) : t.SlotsSound := by
  obtain ⟨_, rfl, _⟩ := o; exact ⟨h.holds⟩

theorem State.SlotsSound.freed {s t : State} (h : s.SlotsSound) (o : OnlySources s t) : t.SlotsSound := by
  obtain ⟨_, rfl, _⟩ := o; exact ⟨h.holds⟩

/-- One position replaced by a sound one. -/
theorem State.SlotsSound.movedTo {s t : State} {f : FeedNo} {p : PosNo} {x : Position} (h : s.SlotsSound) (m : MovedTo s f p x t)
    (hx : x.SlotSound (s.feed f).running) : t.SlotsSound := by
  refine ⟨fun g q => ?_⟩
  rw [m.feed, m.pos]
  split
  · rename_i e; obtain ⟨rfl, rfl⟩ := e; exact hx
  · exact h.holds g q

/-- One position's stack and settings replaced, and the change of effective source handed over (R54). -/
theorem State.SlotsSound.handOver {s t : State} {f : FeedNo} {p : PosNo} {y : Position} (h : s.SlotsSound) (m : MovedTo s f p y t)
    (target : y.slot.target = (s.pos f p).slot.target) (onAir : y.onAirSource = (s.pos f p).onAirSource) (policy : Splice)
    (o : Option Owner) : (t.handOver f p (s.pos f p).effective policy o).SlotsSound := by
  have here : t.pos f p = y := by rw [m.pos, if_pos ⟨rfl, rfl⟩]
  unfold State.handOver State.differs
  rw [here, m.feed]
  split
  · rename_i differs
    rw [Bool.and_eq_true] at differs
    obtain ⟨running, -⟩ := differs
    obtain ⟨x, moved, selects, reads⟩ := takeChange_moved t f p y.effective policy o
    refine h.movedTo (m.again moved) ?_
    rw [running]
    rw [here] at selects
    rw [← selects.effective] at reads
    exact Position.slotSound_of_reads reads
  · rename_i same
    refine h.movedTo m ((h.holds f p).congr target onAir fun running => ?_)
    simpa [running] using same

theorem OnlyFeeds.slots {s t : State} (o : OnlyFeeds s t) (running : ∀ f, (t.feed f).running = (s.feed f).running) (h : s.SlotsSound) :
    t.SlotsSound :=
  h.congr running (fun f p => by rw [o.pos]) (fun f p => by rw [o.pos]) fun f p => by rw [o.pos]

/-! ### Stacks and switches -/

theorem State.SlotsSound.endWindows {s : State} (h : s.SlotsSound) (f : FeedNo) (p : PosNo) : (s.endWindows f p).SlotsSound := by
  refine State.SlotsSound.told ?_ (foldl_rel OnlyPorts OnlyPorts.rfl' OnlyPorts.trans _ (fun s _ => addOutcome_frame s _ _) _ _)
  exact h.handOver (OnlySources.rfl' (s.setPos f p { s.pos f p with
    upper := (s.pos f p).upper.filter fun e => e.window ≠ some 0 })).movedTo rfl rfl _ _

theorem State.SlotsSound.judgePosition {s : State} (h : s.SlotsSound) (f : FeedNo) (p : PosNo) (k : Option SrcNo → Bool) :
    (s.judgePosition f p k).SlotsSound :=
  h.handOver (OnlySources.rfl' (s.setPos f p (s.judged (s.pos f p) k))).movedTo rfl rfl _ _

/-- The end of a firing: the change handed over, or a record made. -/
theorem State.entryStacked_slots {s : State} (e : Entry) (y : Position) (h : s.SlotsSound)
    (target : y.slot.target = (s.pos e.feed e.position).slot.target) (onAir : y.onAirSource = (s.pos e.feed e.position).onAirSource)
    (k : Bool) : ((s.setPos e.feed e.position y).entryStacked e (s.pos e.feed e.position).effective k).SlotsSound := by
  have handed := h.handOver (OnlySources.rfl' (s.setPos e.feed e.position y)).movedTo target onAir e.splice (some ⟨e.owner, e.tag, e.late⟩)
  unfold State.handOver at handed
  unfold State.entryStacked
  split
  · rename_i differs
    rw [if_pos differs] at handed
    exact handed
  · rename_i same
    rw [if_neg same] at handed
    exact handed.told (addOutcome_frame _ _ _)

theorem swapNow_running (s : State) (f g : FeedNo) : ((s.swapNow f).feed g).running = (s.feed g).running := by
  have o := raiseForFeed_frame (s.setFeed f (if (s.feed f).running then
    Feed.reload { s.feed f with
      activeB := !(s.feed f).activeB, swapPending := false, lastSwap := some (s.clock.frameStart, s.clock.tod) } else
    { s.feed f with
      activeB := !(s.feed f).activeB, swapPending := false, lastSwap := some (s.clock.frameStart, s.clock.tod) })) f .planSwapped
  obtain ⟨_, e, _⟩ := o
  unfold State.swapNow
  dsimp only
  rw [e]
  change ((s.setFeed f _).feed g).running = _
  rw [State.feed_setFeed]
  split
  · rename_i e; subst e
    split <;> rfl
  · rfl

theorem OnlyPorts.feed {s t : State} (o : OnlyPorts s t) (f : FeedNo) : t.feed f = s.feed f := by obtain ⟨_, rfl, _⟩ := o; rfl

theorem firePlan_running (s : State) (e : Entry) (g : FeedNo) : ((s.firePlan e).feed g).running = (s.feed g).running := by
  unfold State.firePlan
  dsimp only
  split
  · rw [State.entryDone, (addOutcome_frame _ _ _).feed]
  · split
    · rw [State.entryDone, (addOutcome_frame _ _ _).feed, swapNow_running]
    · rw [State.entryFailed, (addOutcome_frame _ _ _).feed]

theorem State.SlotsSound.fire {s : State} (h : s.SlotsSound) (e : Entry) : (s.fire e).SlotsSound := by
  unfold State.fire
  split
  · unfold State.fireTake
    dsimp only
    split
    · exact h.told (addOutcome_frame _ _ _)
    · refine State.entryStacked_slots e _ h ?_ ?_ _ <;> rfl
  · unfold State.fireReturn
    dsimp only
    split
    · refine State.entryStacked_slots e _ h ?_ ?_ _ <;> rfl
    · exact h.told (addOutcome_frame _ _ _)
  · exact State.entryStacked_slots e { s.pos e.feed e.position with
      base := some e.source, baseMark := s.markFor (some e.source) (s.pos e.feed e.position).fallback } h rfl rfl _
  · exact (firePlan_frame s e).slots (firePlan_running s e) h
  · exact h.told (addOutcome_frame _ _ _)

/-- A search that ends at its target leaves the slot sound, for a sound search seeks the effective source (R64, R66). -/
theorem State.SlotsSound.found {s : State} (h : s.SlotsSound) {f : FeedNo} {p : PosNo} {i : SrcNo} {w : Nat} {o : Option Owner}
    (hslot : (s.pos f p).slot = .seeking i w o) (lag : Nat) (fl : OutcomeFlags) :
    ((s.moveOnAir f p (some ⟨i, lag⟩) 0xF).ownerDone f p o fl).SlotsSound := by
  have sound := h.holds f p
  rw [Position.slotSound_iff, hslot] at sound
  refine h.movedTo ((s.moveOnAir_writes f p (some ⟨i, lag⟩) 0xF).movedTo.told (ownerDone_frame _ _ _ _ _)) ?_
  cases running : (s.feed f).running with
  | false => rw [running] at sound; simp [Slot.target] at sound
  | true =>
    rw [running] at sound
    have effective : (s.pos f p).effective = some i := by
      rcases sound with ⟨hn, -⟩ | ⟨j, hj, he, -⟩
      · simp [Slot.target] at hn
      · rw [Slot.target, Option.some.injEq] at hj; rw [hj]; exact he
    exact Position.slotSound_of_reads (.inl ⟨rfl, effective.symm⟩)

theorem State.SlotsSound.forceSwitch {s : State} (h : s.SlotsSound) (f : FeedNo) (p : PosNo) : (s.forceSwitch f p).SlotsSound := by
  unfold State.forceSwitch
  split
  · exact h.found ‹_› 0 _
  · exact h

theorem State.SlotsSound.entrySwitch {s : State} (h : s.SlotsSound) (f : FeedNo) (p : PosNo) : (s.entrySwitch f p).SlotsSound := by
  unfold State.entrySwitch
  split
  · exact h.found ‹_› 1 _
  · exact h

/-! ### Starts and stops -/

theorem attachPosition_moved (s : State) (f : FeedNo) (p : PosNo) :
    ∃ x, MovedTo s f p x (s.attachPosition f p) ∧ x.SlotSound true := by
  unfold State.attachPosition
  split
  · rename_i i hi
    exact ⟨_, (s.moveOnAir_writes f p (some ⟨i, 0⟩) 0xF).movedTo, Position.slotSound_of_reads (.inl ⟨rfl, hi.symm⟩)⟩
  · rename_i hi
    exact ⟨_, (s.moveOnAir_writes f p none 0).movedTo, Position.slotSound_of_reads (.inl ⟨rfl, hi.symm⟩)⟩

theorem restPosition_moved (s : State) (f : FeedNo) (p : PosNo) :
    ∃ x, MovedTo s f p x (s.restPosition f p) ∧ x.SlotSound false :=
  ⟨_, (s.moveOnAir_writes f p none 0).movedTo.told (ownerDone_frame _ _ _ _ _),
    (Position.slotSound_iff _ _).2 ⟨rfl, rfl⟩⟩

/-- Every place of a feed brought in turn to what its feed now asks for. -/
theorem State.slotsSound_places (g : State → PosNo → State) (f : FeedNo) (running : Bool) (s : State)
    (hf : (s.feed f).running = running) (hg : ∀ s p, ∃ x, MovedTo s f p x (g s p) ∧ x.SlotSound running)
    (others : ∀ h p, h ≠ f → (s.pos h p).SlotSound (s.feed h).running) : (allPlaces.foldl g s).SlotsSound := by
  suffices ∀ (l : List PosNo) (s : State), (s.feed f).running = running →
      (∀ h p, h ≠ f ∨ p ∉ l → (s.pos h p).SlotSound (s.feed h).running) → (l.foldl g s).SlotsSound from
    this allPlaces s hf fun h p out => out.elim (others h p) fun out => absurd (mem_allPlaces p) out
  intro l
  induction l with
  | nil => exact fun s _ sound => ⟨fun h p => sound h p (.inr (by simp))⟩
  | cons q l ih =>
    intro s hf sound
    obtain ⟨x, moved, hx⟩ := hg s q
    rw [List.foldl_cons]
    refine ih _ (by rw [moved.feed]; exact hf) fun h p out => ?_
    rw [moved.feed, moved.pos]
    split
    · rename_i e
      obtain ⟨rfl, rfl⟩ := e
      rw [hf]; exact hx
    · rename_i e
      exact sound h p (out.elim .inl fun out => by
        by_cases eh : h = f
        · exact .inr fun hm => (List.mem_cons.1 hm).elim (fun ep => e ⟨eh.symm, ep.symm⟩) out
        · exact .inl eh)

theorem State.SlotsSound.takeStart {s : State} (h : s.SlotsSound) (f : FeedNo) : (s.takeStart f).SlotsSound := by
  unfold State.takeStart
  split
  · refine State.slotsSound_places _ f true _ ?_ (fun s p => attachPosition_moved s f p) fun g p hg => ?_
    · rw [State.feed_setFeed, if_pos rfl]; rfl
    · rw [State.feed_setFeed, if_neg (Ne.symm hg)]; exact h.holds g p
  · exact h

theorem State.SlotsSound.stopNow {s : State} (h : s.SlotsSound) (f : FeedNo) : (s.stopNow f).SlotsSound := by
  refine State.slotsSound_places _ f false _ ?_ (fun s p => restPosition_moved s f p) fun g p hg => ?_
  · rw [State.feed_setFeed, if_pos rfl]
  · rw [State.feed_setFeed, if_neg (Ne.symm hg)]; exact h.holds g p

theorem makeDue_running (s : State) (f g : FeedNo) (c : TableNo) : ((s.makeDue f c).feed g).running = (s.feed g).running := by
  unfold State.makeDue
  split
  · rw [State.feed_setFeed]
    split
    · rename_i e; subst e
      unfold Feed.makeDue
      split
      · dsimp only; split <;> rfl
      · rfl
    · rfl
  · rfl

theorem takeSwap_running (s : State) (f g : FeedNo) : ((s.takeSwap f).feed g).running = (s.feed g).running := by
  unfold State.takeSwap
  split
  · exact swapNow_running s f g
  · rfl

theorem State.SlotsSound.frameTask {s : State} (h : s.SlotsSound) (k : FrameTask) : (s.frameTask k).SlotsSound := by
  cases k with
  | windowEnd f p => exact h.endWindows f p
  | forcedSwitch f p => exact h.forceSwitch f p
  | dueMaking f c => exact (makeDue_frame s f c).slots (fun g => makeDue_running s f g c) h
  | swap f => exact (takeSwap_frame s f).slots (fun g => takeSwap_running s f g) h
  | start f => exact h.takeStart f

/-! ### Packets -/

/-- The second position reads the same source as the first, seeks the same and has the same effective source. -/
def Position.ReadsLike (y x : Position) : Prop :=
  y.slot = x.slot ∧ y.onAirSource = x.onAirSource ∧ y.effective = x.effective

theorem Position.afterRoom_like (x : Position) (i : SrcNo) (ring : List Packet) : (x.afterRoom i ring).ReadsLike x := by
  unfold Position.afterRoom Position.afterPush Position.pushed
  split_ifs
  · exact ⟨rfl, rfl, rfl⟩
  · split
    · rename_i c hc
      exact ⟨rfl, by simp [Position.onAirSource, hc], rfl⟩
    · exact ⟨rfl, rfl, rfl⟩
  · exact ⟨rfl, rfl, rfl⟩

theorem Position.offered_like (x : Position) (i : SrcNo) (k : Packet) : (x.offered i k).ReadsLike x := by
  unfold Position.offered
  split
  · rename_i c hc
    split_ifs
    · exact ⟨rfl, rfl, rfl⟩
    · exact ⟨rfl, by simp [Position.onAirSource, hc], rfl⟩
    · exact ⟨rfl, rfl, rfl⟩
  · exact ⟨rfl, rfl, rfl⟩

theorem OnlyIntake.feed {s t : State} (o : OnlyIntake s t) (f : FeedNo) : t.feed f = s.feed f := by obtain ⟨_, _, _, rfl, _⟩ := o; rfl

theorem State.SlotsSound.store {s : State} (h : s.SlotsSound) (i : SrcNo) (k : Packet) : (s.store i k).SlotsSound := by
  rw [State.store_eq]
  have written : (s.written i k).SlotsSound := by
    have feeds : ∀ f, (s.written i k).feed f = s.feed f := fun f => (makeRoom_frame s i).feed f
    refine ⟨fun f p => ?_⟩
    obtain ⟨slot', air', effective'⟩ := ((s.pos f p).afterRoom i (s.src i).ring).offered_like i k
    obtain ⟨slot, air, effective⟩ := (s.pos f p).afterRoom_like i (s.src i).ring
    rw [feeds, State.written_pos]
    exact (h.holds f p).congr (by rw [slot', slot]) (air'.trans air) fun _ => effective'.trans effective
  have ended : ((s.written i k).endSearches i k).SlotsSound := by
    refine foldl_keeps State.SlotsSound _ (fun s fp h => ?_) _ _ written
    split
    · exact h.entrySwitch _ _
    · exact h
  exact ended.freed (trim_frame _ i)

theorem State.SlotsSound.takeByte {s : State} (h : s.SlotsSound) (i : SrcNo) (b : Byte) : (s.takeByte i b).SlotsSound := by
  have put : ∀ (s : State) x, s.SlotsSound → (s.setSrc i x).SlotsSound := fun _ _ h => ⟨h.holds⟩
  unfold State.takeByte
  dsimp only
  split
  · exact put s _ h
  · split
    · split
      · unfold State.arrive
        dsimp only
        split
        · split
          · exact (put _ _ (put _ _ h)).store i _
          · exact put _ _ h
        · exact put _ _ h
      · exact put _ _ h
    · exact put s _ h

theorem State.SlotsSound.emission {s t : State} (h : s.SlotsSound) (o : OnlyEmission s t)
    (running : ∀ g, (t.feed g).running = (s.feed g).running)
    (like : ∀ g q, (t.pos g q).slot = (s.pos g q).slot ∧ (t.pos g q).onAirSource = (s.pos g q).onAirSource) : t.SlotsSound :=
  h.congr running (fun g q => by rw [(like g q).1]) (fun g q => (like g q).2) fun g q => (o.selects g q).effective

theorem State.SlotsSound.discardStale {s : State} (h : s.SlotsSound) (f : FeedNo) (p : PosNo) : (s.discardStale f p).SlotsSound := by
  refine h.emission (discardStale_frame s f p) (fun g => ?_) fun g q => ?_
  · obtain ⟨_, e⟩ := discardStale_feed s f g p
    rw [e]
  · unfold State.discardStale
    dsimp only
    split
    · rename_i c hc
      rw [State.trim_pos, State.setFeed_pos, State.setSrc_pos, State.pos_setPos]
      split
      · rename_i e; obtain ⟨rfl, rfl⟩ := e
        exact ⟨rfl, by simp [Position.onAirSource, hc]⟩
      · exact ⟨rfl, rfl⟩
    · exact ⟨rfl, rfl⟩

theorem State.SlotsSound.sendFrom {s : State} (h : s.SlotsSound) (f : FeedNo) (p : PosNo) : (s.sendFrom f p).SlotsSound := by
  refine h.emission (sendFrom_frame s f p) (fun g => ?_) fun g q => ?_
  · obtain ⟨_, _, e⟩ := sendFrom_feed s f g p
    rw [e]
  · unfold State.sendFrom
    dsimp only
    split
    · rename_i c _ hc _
      split
      · rw [State.trim_pos, State.setFeed_pos, State.pos_setPos]
        split
        · rename_i e; obtain ⟨rfl, rfl⟩ := e
          exact ⟨rfl, by simp [Position.served, Position.onAirSource, hc]⟩
        · exact ⟨rfl, rfl⟩
      · exact ⟨rfl, rfl⟩
    · exact ⟨rfl, rfl⟩

/-- A feed replaced by one that runs as it did. -/
theorem State.SlotsSound.setFeed {s : State} (h : s.SlotsSound) (f : FeedNo) (x : Feed) (hx : x.running = (s.feed f).running) :
    (s.setFeed f x).SlotsSound := by
  refine (setFeed_frame s f x).slots (fun g => ?_) h
  rw [State.feed_setFeed]
  split
  · rename_i e; subst e; exact hx
  · rfl

theorem Feed.sendTable_running (x : Feed) (c : TableNo) : (x.sendTable c).running = x.running := by
  unfold Feed.sendTable Feed.bump; split <;> rfl

theorem State.SlotsSound.slotEvent {s : State} (h : s.SlotsSound) (f : FeedNo) : (s.slotEvent f).SlotsSound := by
  unfold State.slotEvent
  dsimp only
  have stale := foldl_keeps State.SlotsSound _ (fun s p h => h.discardStale f p) allPlaces s h
  generalize allPlaces.foldl (fun s p => s.discardStale f p) s = u at stale
  have filled : (u.fillSlot f (u.choose f)).SlotsSound := by
    unfold State.fillSlot
    split
    · exact stale.setFeed f _ (Feed.sendTable_running _ _)
    · exact (stale.setFeed f ((u.feed f).countShare _) rfl).sendFrom f _
    · exact (stale.setFeed f ((u.feed f).countSpare _) rfl).sendFrom f _
    · exact stale.setFeed f _ rfl
  exact filled.setFeed f _ (by simp)

/-! ### Requests and the image -/

/-- Every request but STOP FEED leaves every feed running or stopped as it was. -/
theorem perform_running (r : Request) (p : PortNo) (b : List Byte) (s : State) (h : writesReading r = false) (g : FeedNo) :
    ((perform r p b s).1.feed g).running = (s.feed g).running := by
  have set : ∀ f x, x.running = (s.feed f).running → ((s.setFeed f x).feed g).running = (s.feed g).running := by
    intro f x hx
    rw [State.feed_setFeed]
    split
    · rename_i e; subst e; exact hx
    · rfl
  cases r <;> try cases h
  case readPort => rfl
  case readEvents => rfl
  case setMask => rw [perform, (reqSetMask_frame p b s).feed]
  case readOutcomes => rfl
  case setTime => obtain ⟨_, e⟩ := reqSetTime_frame p b s; rw [perform, e]; rfl
  case readTime => rfl
  case postEntry => obtain ⟨_, e⟩ := reqPostEntry_frame p b s; rw [perform, e]; rfl
  case cancelEntry => obtain ⟨_, e⟩ := reqCancelEntry_frame p b s; rw [perform, e]; rfl
  case clearEntries => rfl
  case listEntries => rw [perform, (reqListEntries_frame p b s).feed]
  case examinePosition => rw [perform, (reqExaminePosition_frame p b s).feed]
  case setCueLine => obtain ⟨_, e⟩ := reqSetCueLine_frame p b s; rw [perform, e]; rfl
  case readSource => rw [perform, (reqReadSource_frame p b s).feed]
  case setScan => obtain ⟨_, e⟩ := reqSetScan_frame p b s; rw [perform, e]; rfl
  case readHealth => rw [perform, (reqReadHealth_frame p b s).feed]
  case readPlan => rw [perform, (reqReadPlan_frame p b s).feed]
  case readFeed => rw [perform, (reqReadFeed_frame p b s).feed]
  case editPlan =>
    unfold perform reqEditPlan
    dsimp only
    split; · rfl
    split; · rfl
    split; · rfl
    split; · rfl
    rw [accept_state]; exact set _ _ (by unfold Feed.withShadow; split <;> rfl)
  case swapPlan =>
    unfold perform reqSwapPlan
    dsimp only
    split; · rfl
    split_ifs
    · rfl
    · rw [accept_state]; exact set _ _ rfl
  case setFeedRate =>
    unfold perform reqSetFeedRate
    dsimp only
    split; · rfl
    split_ifs
    · rfl
    · rfl
    · rfl
    · rw [accept_state]; exact set _ _ rfl
  case startFeed =>
    unfold perform reqStartFeed
    dsimp only
    split; · rfl
    split_ifs
    · rfl
    · rw [accept_state]; exact set _ _ rfl
  case loadTable =>
    unfold perform reqLoadTable
    dsimp only
    split; · rfl
    split; · rfl
    split_ifs
    · rfl
    · rfl
    · rw [accept_state]; exact set _ _ rfl
  case dropTable =>
    unfold perform reqDropTable
    dsimp only
    split; · rfl
    split; · rfl
    rw [accept_state]; exact set _ _ rfl

theorem State.withSettings_onAirSource (s : State) (f : FeedNo) (p : PosNo) (flags : Byte)
    (v : Vector (Option Nat) 4 × Option SrcNo × Option SrcNo × Splice) :
    (s.withSettings f p flags v).onAirSource = (s.pos f p).onAirSource := by
  unfold State.withSettings State.judged Position.onAirSource
  dsimp only
  split_ifs <;> cases (s.pos f p).onAir <;> rfl

theorem State.SlotsSound.reading {s t : State} (h : s.SlotsSound) (o : SameReading s t)
    (running : ∀ f, (t.feed f).running = (s.feed f).running) : t.SlotsSound := by
  refine h.congr running ?_ ?_ ?_ <;> (intro f k; unfold State.pos; rw [o.1])

theorem State.SlotsSound.request (r : Request) (p : PortNo) (b : List Byte) {s : State} (h : s.SlotsSound) :
    (perform r p b s).1.SlotsSound := by
  have put : ∀ i x, (s.setSrc i x).SlotsSound := fun i x => ⟨h.holds⟩
  cases r
  case setPosition =>
    obtain e | ⟨f, k, v, -, -, -, e⟩ := reqSetPosition_cases p b s <;> rw [perform, e]
    · exact h
    · refine State.SlotsSound.handOver h (y := s.withSettings f k (byteAt b 2) v) (trimOpt_frame _ _).movedTo ?_ ?_ _ _
      · rw [State.withSettings_slot]
      · exact State.withSettings_onAirSource s f k _ v
  case release =>
    obtain e | ⟨f, k, e⟩ := reqRelease_cases p b s <;> rw [perform, e]
    · exact h
    · refine State.SlotsSound.handOver h (OnlySources.rfl' (s.setPos f k { s.pos f k with
        upper := (s.pos f k).upper.eraseP fun e => e.named p (BitVec.ofNat 16 (natAt b 0 2)) })).movedTo ?_ ?_ _ _ <;> rfl
  case setSource =>
    obtain e | ⟨i, t, ⟨-, e⟩ | ⟨-, e⟩ | ⟨-, -, e⟩⟩ := reqSetSource_cases p b s <;> rw [perform, e]
    · exact h
    · exact healthChanged_keeps State.SlotsSound (fun _ f p k h => h.judgePosition f p k) _ i (put _ _)
    · exact permitChanged_keeps State.SlotsSound (fun _ f p k h => h.judgePosition f p k) _ i (put _ _)
    · exact put _ _
  case ackFaults =>
    rw [perform, reqAckFaults, accept_state, State.clearLatched]
    refine foldl_keeps State.SlotsSound _ (fun s i h => ?_) allSources s h
    split
    · exact ⟨h.holds⟩
    · exact h
  case stopFeed =>
    obtain e | ⟨f, ⟨-, e⟩ | e⟩ := reqStopFeed_cases p b s <;> rw [perform, e]
    · exact h
    · exact h.stopNow f
    · exact h.setFeed f _ rfl
  all_goals
    exact h.reading (perform_reading _ p b s (by decide)) (perform_running _ p b s (by decide))

theorem State.applyImage_running (s : State) (m : Image) (f : FeedNo) : ((s.applyImage m).feed f).running = (s.feed f).running := by
  rw [State.applyImage_feed_eq]
  obtain ⟨_, e⟩ := State.applyTables_rest (s.applyFeeds m) m f
  rw [e]
  rcases (s.applyFeeds_at m).2 f with h | ⟨r, -, h⟩ <;> rw [h]
  rfl

theorem State.slotsSound_readSections {s : State} (load : s.LoadSound) (h : s.SlotsSound) (b : List Byte) : (s.readSections b).SlotsSound := by
  obtain e | ⟨hphase, ⟨_, -, -, e⟩ | ⟨_, -, e⟩ | ⟨l, m, -, -, -, -, e⟩⟩ := s.readSections_cases b <;> rw [e]
  · exact h
  · exact ⟨h.holds⟩
  · exact ⟨h.holds⟩
  · refine ⟨fun f p => ?_⟩
    obtain ⟨-, -, -, feeds⟩ := load (.inr hphase)
    obtain ⟨air, slot⟩ := State.applyImage_reads { s with loader := l } m f p
    have stopped := (feeds f).1
    have sound := h.holds f p
    rw [stopped] at sound
    rw [State.applyImage_running, show ({ s with loader := l } : State).feed f = s.feed f from rfl, stopped]
    refine sound.congr (by rw [slot]; rfl) (by unfold Position.onAirSource; rw [air]; rfl) fun h => by cases h

theorem State.slotsSound_heldAt (r : FrameRate) (q : List Instr) : (State.heldAt r q).SlotsSound := by
  refine ⟨fun f p => ?_⟩
  simp [State.heldAt, State.pos, State.feed, Position.reset, Feed.reset, Position.SlotSound]

theorem State.slotsSoundKept : Kept fun s => s.LoadSound ∧ s.SlotsSound where
  free s q h k l c u g := ⟨State.loadSoundKept.free s q h k l c u g.1, ⟨g.2.holds⟩⟩
  reset r q := ⟨State.loadSoundKept.reset r q, State.slotsSound_heldAt r q⟩
  release s b h := ⟨State.loadSoundKept.release s b h.1, ⟨(State.slotsSound_heldAt (.ofFrsel b) s.pending).holds⟩⟩
  header s b h := ⟨State.loadSoundKept.header s b h.1, by obtain ⟨_, _, e⟩ := headerByte_frame s b; rw [e]; exact ⟨h.2.holds⟩⟩
  sections s b h := ⟨State.loadSoundKept.sections s b h.1, State.slotsSound_readSections h.1 h.2 b⟩
  counts s h := ⟨State.loadSoundKept.counts s h.1, by
    refine h.2.congr (fun f => ?_) (fun f p => ?_) (fun f p => ?_) fun f p => ?_
    · rw [State.counts_feed]; unfold Feed.countCarousel; split <;> rfl
    · rw [State.counts_pos]; exact Slot.countWait_target _
    · rw [State.counts_pos]; rfl
    · rw [State.counts_pos]
      unfold Position.effective Position.topMark Position.countFrame Position.countWindows
      dsimp only
      rw [List.getLast?_map]
      cases (s.pos f p).upper.getLast? <;> rfl⟩
  examine s h := ⟨State.loadSoundKept.examine s h.1, examine_keeps _ (fun _ _ h _ => ⟨h.holds⟩)
    (fun s h _ _ u o => healthChanged_keeps State.SlotsSound (fun _ f p k h => h.judgePosition f p k) u _
      ((show (s.setSrc s.scan.pointer _).SlotsSound from ⟨h.holds⟩).told o)) (fun _ _ h => ⟨h.holds⟩) s h.2⟩
  pass s b h := ⟨State.loadSoundKept.pass s b h.1,
    pass_keeps _ (fun _ _ h => ⟨h.holds⟩) (fun _ _ h => ⟨h.holds⟩) (fun _ _ h => ⟨h.holds⟩) (fun s e h => h.fire e) s b h.2⟩
  task s k h := ⟨State.loadSoundKept.task s k h.1, h.2.frameTask k⟩
  reload s h := ⟨State.loadSoundKept.reload s h.1, by
    refine ⟨fun f p => ?_⟩
    have e : ({ s with feeds := tmap Feed.reloadRunning s.feeds } : State).feed f = (s.feed f).reloadRunning := by simp [State.feed]
    have sound := h.2.holds f p
    rw [e]
    unfold Feed.reloadRunning
    split <;> exact sound⟩
  slot s f h := ⟨State.loadSoundKept.slot s f h.1, h.2.slotEvent f⟩
  byte s i b h := ⟨State.loadSoundKept.byte s i b h.1, h.2.takeByte i b⟩
  request r p b s ready h := ⟨State.loadSoundKept.request r p b s ready h.1, h.2.request r p b⟩

/-- Settles O55: every operation of a step keeps the slots sound, for what is handed over is read or sought, and starts and stops attach and
detach every position of their feed. -/
theorem stepKeepsSlotsSound : Obligations.StepKeepsSlotsSound := by
  unfold Obligations.StepKeepsSlotsSound
  intro s t load h e
  exact (State.slotsSoundKept.step s t ⟨load, ⟨h⟩⟩ e).2.holds

end Sys2Proof.Machine
end

section
/-! SUPPORT. The tags of each port's live items stay distinct (R18). -/

namespace Sys2Proof.Machine

/-! ### Counting live items -/

/-- The entries of a list that a port owns with a tag. -/
def listItems (l : List Entry) (p : PortNo) (t : Tag) : Nat := l.countP fun e => e.named p t

/-- The entries of a stack that a port owns with a tag. -/
def stackItems (l : List StackEntry) (p : PortNo) (t : Tag) : Nat := l.countP fun e => decide (e.owner = p) && decide (e.tag = t)

/-- The stack entries of a port with a tag, at every position. -/
def State.stacked (s : State) (p : PortNo) (t : Tag) : Nat :=
  (allPositions.map fun fp => stackItems (s.pos fp.1 fp.2).upper p t).sum

/-- No port has two live items with one tag. -/
structure State.TagsDistinct (s : State) : Prop where
  once : ∀ p t, listItems s.list.entries p t + s.stacked p t ≤ 1

theorem count_filter_map {α : Type} (l : List α) (own : α → Bool) (tag : α → Tag) (t : Tag) :
    ((l.filter own).map tag).count t = l.countP fun e => own e && decide (tag e = t) := by
  rw [List.count, List.countP_map, List.countP_filter]
  congr 1
  funext e
  simp [Function.comp, Bool.and_comm, beq_eq_decide]

theorem State.count_liveTags (s : State) (p : PortNo) (t : Tag) :
    (s.liveTags p).count t = listItems s.list.entries p t + s.stacked p t := by
  unfold State.liveTags listItems State.stacked stackItems
  rw [List.count_append, List.count_flatMap, count_filter_map]
  congr 2
  · refine congrArg (allPositions.map ·) ?_
    funext fp
    exact count_filter_map _ _ _ _

theorem State.tagsDistinct_iff (s : State) : (∀ p, (s.liveTags p).Nodup) ↔ s.TagsDistinct := by
  simp only [List.nodup_iff_count_le_one, State.count_liveTags]
  exact ⟨fun h => ⟨h⟩, fun h => h.once⟩

/-! ### Stacks -/

/-- A sum over distinct numbers in which one item changes. -/
theorem sum_map_update {K : Type} [DecidableEq K] (l : List K) (hl : l.Nodup) (k : K) (hk : k ∈ l) (g h : K → Nat)
    (same : ∀ j ∈ l, j ≠ k → h j = g j) : (l.map h).sum + g k = (l.map g).sum + h k := by
  induction l with
  | nil => cases hk
  | cons a l ih =>
    obtain ⟨fresh, hl⟩ := List.nodup_cons.1 hl
    simp only [List.map_cons, List.sum_cons]
    by_cases e : a = k
    · subst e
      have rest : l.map h = l.map g := List.map_congr_left fun j hj => same j (List.mem_cons_of_mem _ hj) (by rintro rfl; exact fresh hj)
      rw [rest]
      omega
    · have := ih hl ((List.mem_cons.1 hk).resolve_left (Ne.symm e)) fun j hj => same j (List.mem_cons_of_mem _ hj)
      rw [same a List.mem_cons_self e]
      omega

theorem State.stacked_congr {s t : State} (h : ∀ f p, (t.pos f p).upper = (s.pos f p).upper) : t.stacked = s.stacked := by
  funext p k
  unfold State.stacked
  simp only [h]

theorem State.stacked_moves {s t : State} (o : OnlyMoves s t) : t.stacked = s.stacked :=
  State.stacked_congr fun f p => (o.selects f p).2.2.2.2.2

theorem State.stacked_told {s t : State} (o : OnlyPorts s t) : t.stacked = s.stacked := State.stacked_moves o.moves

/-- A position replaced changes the count by what its stack holds. -/
theorem State.stacked_setPos (s : State) (f : FeedNo) (p : PosNo) (x : Position) (q : PortNo) (t : Tag) :
    (s.setPos f p x).stacked q t + stackItems (s.pos f p).upper q t = s.stacked q t + stackItems x.upper q t := by
  have sum := sum_map_update allPositions nodup_allPositions (f, p) (mem_allPositions f p)
    (fun fp => stackItems (s.pos fp.1 fp.2).upper q t) (fun fp => stackItems ((s.setPos f p x).pos fp.1 fp.2).upper q t)
    fun j _ hj => by rw [State.pos_setPos, if_neg fun e => hj (Prod.ext e.1.symm e.2.symm)]
  dsimp only at sum
  rw [State.pos_setPos, if_pos ⟨rfl, rfl⟩] at sum
  exact sum

theorem stackItems_sublist {l m : List StackEntry} (h : l.Sublist m) (p : PortNo) (t : Tag) : stackItems l p t ≤ stackItems m p t :=
  h.countP_le

/-- Entries that keep owner and tag count alike. -/
theorem stackItems_map (l : List StackEntry) (g : StackEntry → StackEntry) (hg : ∀ e, (g e).owner = e.owner ∧ (g e).tag = e.tag)
    (p : PortNo) (t : Tag) : stackItems (l.map g) p t = stackItems l p t := by
  unfold stackItems
  rw [List.countP_map]
  congr 1
  funext e
  simp [hg e]

/-- An entry put in a stack is there beside those that were (R42). -/
theorem insertEntry_perm (upper : List StackEntry) (e : StackEntry) : (insertEntry upper e).1.Perm (e :: upper) := by
  unfold insertEntry
  dsimp only
  generalize hk : (fun x : StackEntry => decide (e.cls.rank < x.cls.rank)) = higher
  have whole := List.takeWhile_append_dropWhile (p := higher) (l := upper.reverse)
  have parts : ((upper.reverse.dropWhile higher).reverse ++ (upper.reverse.takeWhile higher).reverse) = upper := by
    rw [← List.reverse_append, whole, List.reverse_reverse]
  generalize (upper.reverse.dropWhile higher).reverse = low at parts ⊢
  generalize (upper.reverse.takeWhile higher).reverse = high at parts ⊢
  rw [← parts, List.append_assoc, List.singleton_append]
  exact List.perm_middle

/-- The second state has in its stacks no more items of any port and tag than the first. -/
def NoMoreStacked (s t : State) : Prop := ∀ p k, t.stacked p k ≤ s.stacked p k

theorem NoMoreStacked.setPos (s : State) (f : FeedNo) (p : PosNo) (x : Position)
    (h : ∀ q t, stackItems x.upper q t ≤ stackItems (s.pos f p).upper q t) : NoMoreStacked s (s.setPos f p x) := by
  intro q t
  have := s.stacked_setPos f p x q t
  have := h q t
  omega

theorem NoMoreStacked.trans {s t u : State} (a : NoMoreStacked s t) (b : NoMoreStacked t u) : NoMoreStacked s u :=
  fun p k => (b p k).trans (a p k)

theorem NoMoreStacked.of_eq {s t : State} (h : t.stacked = s.stacked) : NoMoreStacked s t := fun p k => by rw [h]

theorem OnlyMoves.noMore {s t : State} (o : OnlyMoves s t) : NoMoreStacked s t := .of_eq (State.stacked_moves o)

theorem judgePosition_noMore (s : State) (f : FeedNo) (p : PosNo) (k : Option SrcNo → Bool) : NoMoreStacked s (s.judgePosition f p k) := by
  refine NoMoreStacked.trans (NoMoreStacked.setPos s f p (s.judged (s.pos f p) k) fun q t => ?_) (handOver_frame _ _ _ _ _ _).noMore
  exact (stackItems_map (s.pos f p).upper (fun e => if k (some e.source) then
    { e with mark := s.markFor (some e.source) (s.pos f p).fallback } else e) (by intro e; split <;> exact ⟨rfl, rfl⟩) q t).le

theorem endWindows_noMore (s : State) (f : FeedNo) (p : PosNo) : NoMoreStacked s (s.endWindows f p) := by
  refine NoMoreStacked.trans (NoMoreStacked.trans (NoMoreStacked.setPos s f p
    { s.pos f p with upper := (s.pos f p).upper.filter fun e => e.window ≠ some 0 } fun q t => ?_) (handOver_frame _ f p (s.pos f p).effective (s.pos f p).policy none).noMore)
    (foldl_rel OnlyPorts OnlyPorts.rfl' OnlyPorts.trans _ (fun s _ => addOutcome_frame s _ _) _ _).moves.noMore
  exact stackItems_sublist List.filter_sublist q t

/-- A firing leaves in the stacks at most its own entry more (R25 to R28). -/
theorem fire_stacked (s : State) (e : Entry) (p : PortNo) (t : Tag) :
    (s.fire e).stacked p t ≤ s.stacked p t + listItems [e] p t := by
  have handed : ∀ (u : State) b k, (u.entryStacked e b k).stacked = u.stacked := fun u b k => State.stacked_moves (entryStacked_frame u e b k)
  have record : ∀ (u v : State), OnlyPorts u v → v.stacked p t ≤ u.stacked p t + listItems [e] p t := fun u v o => by
    rw [State.stacked_told o]; exact Nat.le_add_right _ _
  unfold State.fire
  split
  · unfold State.fireTake
    dsimp only
    split
    · exact record _ _ (addOutcome_frame _ _ _)
    · rw [handed]
      have put := s.stacked_setPos e.feed e.position { s.pos e.feed e.position with upper := (insertEntry (s.pos e.feed e.position).upper
        ⟨e.cls, e.source, e.owner, e.tag, if e.window = 0 then none else some e.window,
          s.markFor (some e.source) (s.pos e.feed e.position).fallback⟩).1 } p t
      have one : stackItems (insertEntry (s.pos e.feed e.position).upper ⟨e.cls, e.source, e.owner, e.tag,
          if e.window = 0 then none else some e.window, s.markFor (some e.source) (s.pos e.feed e.position).fallback⟩).1 p t =
          stackItems (s.pos e.feed e.position).upper p t + listItems [e] p t := by
        unfold stackItems
        rw [(insertEntry_perm _ _).countP_eq, List.countP_cons]
        simp [listItems, Entry.named]
      dsimp only at put
      omega
  · unfold State.fireReturn
    dsimp only
    split
    · rename_i r hr
      rw [handed]
      have less := NoMoreStacked.setPos s e.feed e.position { s.pos e.feed e.position with upper := r.1 }
        (fun q t => stackItems_sublist (removeTopmost_sublist hr) q t) p t
      exact less.trans (Nat.le_add_right _ _)
    · exact record _ _ (addOutcome_frame _ _ _)
  · unfold State.fireBase
    dsimp only
    rw [handed]
    have less := NoMoreStacked.setPos s e.feed e.position { s.pos e.feed e.position with
      base := some e.source, baseMark := s.markFor (some e.source) (s.pos e.feed e.position).fallback } (fun q t => le_rfl) p t
    exact less.trans (Nat.le_add_right _ _)
  · have same : (s.firePlan e).stacked = s.stacked := State.stacked_congr fun f q => by rw [(firePlan_frame s e).pos]
    rw [same]
    exact Nat.le_add_right _ _
  · exact record _ _ (addOutcome_frame _ _ _)

/-! ### The list -/

theorem applyCue_stacked (s : State) (e : Entry) (k : Bool) : (s.applyCue e k).1.stacked = s.stacked := by
  unfold State.applyCue
  split
  · split <;> rfl
  · rfl

/-- A cue leaves its entry's owner and tag alone. -/
theorem applyCue_named (s : State) (e : Entry) (k : Bool) : (s.applyCue e k).2.named = e.named := by
  unfold State.applyCue
  split
  · split <;> rfl
  · rfl

theorem listItems_cons (e : Entry) (l : List Entry) (p : PortNo) (t : Tag) : listItems (e :: l) p t = listItems [e] p t + listItems l p t := by
  unfold listItems
  rw [List.countP_cons, List.countP_singleton]
  omega

theorem listItems_named {e e' : Entry} (h : e'.named = e.named) (p : PortNo) (t : Tag) : listItems [e'] p t = listItems [e] p t := by
  unfold listItems
  simp only [List.countP_singleton, h]

/-- A pass moves each entry at most once, out of the list or into a stack (R24, R31). -/
theorem passEntries_items (b : Bool) (l : List Entry) (s : State) (p : PortNo) (t : Tag) :
    listItems (passEntries b l s).2 p t + (passEntries b l s).1.stacked p t ≤ listItems l p t + s.stacked p t := by
  induction l generalizing s with
  | nil => exact le_rfl
  | cons e l ih =>
    rw [listItems_cons e]
    unfold passEntries
    split
    · rename_i late _
      dsimp only
      have rest := ih ((s.applyCue { e with late := late } true).1.fire (s.applyCue { e with late := late } true).2)
      have fired := fire_stacked (s.applyCue { e with late := late } true).1 (s.applyCue { e with late := late } true).2 p t
      rw [applyCue_stacked, listItems_named (applyCue_named s { e with late := late } true)] at fired
      have same : listItems [{ e with late := late }] p t = listItems [e] p t := listItems_named rfl p t
      omega
    · have rest := ih (s.discard e)
      have record : OnlyPorts s (s.discard e) := addOutcome_frame _ _ _
      rw [State.stacked_told record] at rest
      omega
    · dsimp only
      have rest := ih (s.applyCue e false).1
      rw [applyCue_stacked] at rest
      rw [listItems_cons, listItems_named (applyCue_named s e false)]
      omega

theorem State.TagsDistinct.pass {s : State} (h : s.TagsDistinct) (b : Bool) : (s.pass b).TagsDistinct :=
  ⟨fun p t => (passEntries_items b s.list.entries s p t).trans (h.once p t)⟩

theorem State.TagsDistinct.noMore {s t : State} (h : s.TagsDistinct) (list : t.list = s.list) (less : NoMoreStacked s t) :
    t.TagsDistinct := by
  refine ⟨fun p k => ?_⟩
  have := h.once p k
  have := less p k
  rw [list]
  omega

/-- What POST ENTRY makes of the state (R21, R22). -/
theorem reqPostEntry_cases (p : PortNo) (b : List Byte) (s : State) :
    (reqPostEntry p b s).1 = s ∨ ∃ e, postedEntry p b s.day = some e ∧ s.liveTag p e.tag = false ∧ s.list.hasPlace p = true ∧
      timing (distance e.due s.now s.day) s.day ≠ .past ∧
      (reqPostEntry p b s).1 = { s with list := { s.list with
        entries := (placeOf s.list.entries { e with
            seq := s.list.nextSeq, late := decide (timing (distance e.due s.now s.day) s.day = .late) } s.now s.day).1 ++
          [{ e with seq := s.list.nextSeq, late := decide (timing (distance e.due s.now s.day) s.day = .late) }] ++
          (placeOf s.list.entries { e with
            seq := s.list.nextSeq, late := decide (timing (distance e.due s.now s.day) s.day = .late) } s.now s.day).2
        nextSeq := s.list.nextSeq + 1 } } := by
  unfold reqPostEntry
  dsimp only
  split; · exact .inl rfl
  split; · exact .inl rfl
  rename_i e he
  split; · exact .inl rfl
  split; · exact .inl rfl
  split; · exact .inl rfl
  split; · exact .inl rfl
  split; · exact .inl rfl
  rename_i htag _ _ hplace hpast
  exact .inr ⟨e, he, by simpa using htag, by simpa using hplace, hpast, accept_state _ _⟩

/-- The entry that a body posts is the port's, not yet cued, and due within the day. -/
theorem postedEntry_owner {p : PortNo} {b : List Byte} {day : Nat} {e : Entry} (h : postedEntry p b day = some e) :
    e.owner = p ∧ e.due < day := by
  unfold postedEntry at h
  split at h
  · split at h
    · dsimp only at h
      rw [Option.ite_none_right_eq_some] at h
      obtain ⟨range, h⟩ := h
      cases h
      exact ⟨rfl, range.2⟩
    · cases h
  · cases h

/-- The place of an entry splits the list. -/
theorem placeOf_append (l : List Entry) (e : Entry) (now day : Nat) : (placeOf l e now day).1 ++ (placeOf l e now day).2 = l :=
  List.takeWhile_append_dropWhile

/-- A tag that is not live counts no item (R18). -/
theorem State.items_of_not_live {s : State} {p : PortNo} {t : Tag} (h : s.liveTag p t = false) :
    listItems s.list.entries p t + s.stacked p t = 0 := by
  simp only [State.liveTag, Bool.or_eq_false_iff, List.any_eq_false, Bool.and_eq_true, decide_eq_true_eq, not_and] at h
  obtain ⟨list, above⟩ := h
  have l0 : listItems s.list.entries p t = 0 :=
    List.countP_eq_zero.2 fun e he => by simpa [Entry.named] using list e he
  have s0 : s.stacked p t = 0 := by
    unfold State.stacked
    refine List.sum_eq_zero fun n hn => ?_
    obtain ⟨fp, hfp, rfl⟩ := List.mem_map.1 hn
    have none' := above fp hfp
    rw [List.any_eq_true] at none'
    exact List.countP_eq_zero.2 fun e he k => none' ⟨e, he, k⟩
  omega

/-- A new entry of a tag that is not live (R18, R21). -/
theorem State.TagsDistinct.posted {s : State} (h : s.TagsDistinct) (l₁ l₂ : List Entry) (e : Entry) (split' : l₁ ++ l₂ = s.list.entries)
    (fresh : s.liveTag e.owner e.tag = false) (q : BitVec 16) :
    ({ s with list := { s.list with entries := l₁ ++ [e] ++ l₂, nextSeq := q } } : State).TagsDistinct := by
  refine ⟨fun p t => ?_⟩
  have items : listItems (l₁ ++ [e] ++ l₂) p t = listItems s.list.entries p t + listItems [e] p t := by
    rw [← split']
    unfold listItems
    simp only [List.countP_append]
    omega
  change listItems (l₁ ++ [e] ++ l₂) p t + s.stacked p t ≤ 1
  rw [items]
  have old := h.once p t
  by_cases same : e.owner = p ∧ e.tag = t
  · obtain ⟨rfl, rfl⟩ := same
    have zero := State.items_of_not_live fresh
    have one : listItems [e] e.owner e.tag ≤ 1 := List.countP_le_length
    omega
  · have none' : listItems [e] p t = 0 := List.countP_eq_zero.2 fun x hx => by
      rw [List.mem_singleton.1 hx]
      simpa [Entry.named] using same
    omega

theorem State.TagsDistinct.fewer {s : State} (h : s.TagsDistinct) (l : List Entry) (sub : l.Sublist s.list.entries) :
    ({ s with list := { s.list with entries := l } } : State).TagsDistinct :=
  ⟨fun p t => (Nat.add_le_add_right (sub.countP_le) _).trans (h.once p t)⟩

/-! ### Every step -/

theorem State.TagsDistinct.reading {s t : State} (h : s.TagsDistinct) (list : t.list = s.list) (o : t.positions = s.positions) :
    t.TagsDistinct :=
  h.noMore list (.of_eq (State.stacked_congr fun f p => by unfold State.pos; rw [o]))

theorem State.TagsDistinct.request (r : Request) (p : PortNo) (b : List Byte) {s : State} (h : s.TagsDistinct) :
    (perform r p b s).1.TagsDistinct := by
  cases r
  case postEntry =>
    obtain e | ⟨e, he, fresh, -, -, eq⟩ := reqPostEntry_cases p b s
    · rw [perform, e]; exact h
    · rw [perform, eq]
      obtain ⟨owner, -⟩ := postedEntry_owner he
      exact h.posted _ _ _ (placeOf_append _ _ _ _) (by rw [← owner] at fresh; exact fresh) _
  case cancelEntry =>
    unfold perform reqCancelEntry
    dsimp only
    split
    · rw [accept_state]; exact h.fewer _ List.eraseP_sublist
    · exact h
  case clearEntries =>
    unfold perform reqClearEntries
    rw [accept_state]
    exact h.fewer _ List.filter_sublist
  case setPosition =>
    obtain e | ⟨f, k, v, -, -, -, e⟩ := reqSetPosition_cases p b s <;> rw [perform, e]
    · exact h
    · have list : ∀ t : State, t.list = s.list → (t.handOver f k (s.pos f k).effective ((s.withSettings f k (byteAt b 2) v).markPolicy
          (requestPolicy (byteAt b 2) (s.pos f k).policy v.2.2.2)) none).list = s.list := fun t ht =>
        ((handOver_frame t _ _ _ _ _).stacks.work.list).trans ht
      refine h.noMore (list _ (trimOpt_frame _ _).stacks.work.list) (NoMoreStacked.trans (NoMoreStacked.trans
        (NoMoreStacked.setPos s f k (s.withSettings f k (byteAt b 2) v) fun q t => ?_) (trimOpt_frame _ _).reading.moves.noMore)
        (handOver_frame _ _ _ _ _ _).noMore)
      rw [State.withSettings_upper]
      exact (stackItems_map _ _ (by intro e; split <;> exact ⟨rfl, rfl⟩) q t).le
  case release =>
    obtain e | ⟨f, k, e⟩ := reqRelease_cases p b s <;> rw [perform, e]
    · exact h
    · refine h.noMore ((handOver_frame _ _ _ _ _ _).stacks.work.list) (NoMoreStacked.trans (NoMoreStacked.setPos s f k _ fun q t => ?_)
        (handOver_frame _ _ _ _ _ _).noMore)
      exact stackItems_sublist List.eraseP_sublist q t
  case setSource =>
    have judge : ∀ s f p k, State.TagsDistinct s → (State.judgePosition s f p k).TagsDistinct := fun s f p k h =>
      h.noMore (judgePosition_frame s f p k).work.list (judgePosition_noMore s f p k)
    have put : ∀ i x, (s.setSrc i x).TagsDistinct := fun i x => ⟨h.once⟩
    obtain e | ⟨i, t, ⟨-, e⟩ | ⟨-, e⟩ | ⟨-, -, e⟩⟩ := reqSetSource_cases p b s <;> rw [perform, e]
    · exact h
    · exact healthChanged_keeps State.TagsDistinct judge _ i (put _ _)
    · exact permitChanged_keeps State.TagsDistinct judge _ i (put _ _)
    · exact put _ _
  case ackFaults =>
    rw [perform, reqAckFaults, accept_state, State.clearLatched]
    refine foldl_keeps State.TagsDistinct _ (fun s i h => ?_) allSources s h
    split
    · exact ⟨h.once⟩
    · exact h
  case stopFeed =>
    obtain e | ⟨f, ⟨-, e⟩ | e⟩ := reqStopFeed_cases p b s <;> rw [perform, e]
    · exact h
    · have rest : ∀ s p, State.TagsDistinct s → (s.restPosition f p).TagsDistinct := fun s p h =>
        h.noMore (restPosition_frame s f p).stacks.work.list (restPosition_frame s f p).noMore
      exact foldl_keeps State.TagsDistinct _ rest _ (s.setFeed f _) ⟨h.once⟩
    · exact ⟨h.once⟩
  case setTime => obtain ⟨_, e⟩ := reqSetTime_frame p b s; rw [perform, e]; exact ⟨h.once⟩
  all_goals exact h.reading (perform_work _ p b s (by decide)).list (perform_reading _ p b s (by decide)).1

theorem State.TagsDistinct.frameTask {s : State} (h : s.TagsDistinct) (k : FrameTask) : (s.frameTask k).TagsDistinct := by
  refine h.noMore (frameTask_frame s k).list ?_
  cases k with
  | windowEnd f p => exact endWindows_noMore s f p
  | forcedSwitch f p => exact (forceSwitch_frame s f p).noMore
  | dueMaking f c => exact .of_eq (State.stacked_congr fun g q => by rw [State.frameTask, (makeDue_frame s f c).pos])
  | swap f => exact .of_eq (State.stacked_congr fun g q => by rw [State.frameTask, (takeSwap_frame s f).pos])
  | start f =>
    unfold State.frameTask State.takeStart
    dsimp only
    split
    · have attach := foldl_rel OnlyMoves OnlyMoves.rfl' OnlyMoves.trans _ (fun s p => (attachPosition_frame s f p).moves) allPlaces
        (s.setFeed f ((s.feed f).started s.clock.frameStart))
      exact attach.noMore
    · exact .of_eq rfl

theorem State.stacked_heldAt (r : FrameRate) (q : List Instr) : (State.heldAt r q).TagsDistinct := by
  have none' : (State.heldAt r q).stacked = fun _ _ => 0 := by
    funext p t
    unfold State.stacked
    refine List.sum_eq_zero fun n hn => ?_
    obtain ⟨fp, -, rfl⟩ := List.mem_map.1 hn
    simp [State.heldAt, State.pos, Position.reset, stackItems]
  exact ⟨fun p t => by rw [none']; simp [State.heldAt, SwitchList.reset, listItems]⟩

theorem State.TagsDistinct.readSections {s : State} (h : s.TagsDistinct) (b : List Byte) : (s.readSections b).TagsDistinct := by
  obtain e | ⟨-, ⟨_, -, -, e⟩ | ⟨_, -, e⟩ | ⟨l, m, -, -, -, -, e⟩⟩ := s.readSections_cases b <;> rw [e]
  · exact h
  · exact ⟨h.once⟩
  · exact ⟨h.once⟩
  · have above : ({ s with loader := l }.applyImage m).stacked = s.stacked :=
      State.stacked_congr (s := s) fun f p => State.applyImage_upper { s with loader := l } m f p
    have entries : ({ s with loader := l }.applyImage m).list.entries = s.list.entries := by
      obtain ⟨_, _, _, _, _, _, _, e⟩ := applyImage_frame { s with loader := l } m
      rw [e]
    exact ⟨fun p t => by rw [above, entries]; exact h.once p t⟩

theorem State.tagsDistinctKept : Kept State.TagsDistinct where
  free _ _ _ _ _ _ _ h := ⟨h.once⟩
  reset := State.stacked_heldAt
  release s b _ := ⟨(State.stacked_heldAt (.ofFrsel b) s.pending).once⟩
  header s b h := by obtain ⟨_, _, e⟩ := headerByte_frame s b; rw [e]; exact ⟨h.once⟩
  sections s b h := h.readSections b
  counts s h := by
    refine h.noMore rfl fun p t => ?_
    unfold State.stacked
    refine (congrArg List.sum (List.map_congr_left fun fp _ => ?_)).le
    rw [State.counts_pos]
    exact stackItems_map (s.pos fp.1 fp.2).upper (fun e => { e with window := e.window.map fun w => w - 1 }) (fun _ => ⟨rfl, rfl⟩) p t
  examine := examine_keeps _ (fun _ _ h _ => ⟨h.once⟩)
    (fun s h _ _ u o => healthChanged_keeps State.TagsDistinct (fun s f p k h =>
      h.noMore (judgePosition_frame s f p k).work.list (judgePosition_noMore s f p k)) u _
      ((show (s.setSrc s.scan.pointer _).TagsDistinct from ⟨h.once⟩).noMore o.work.list o.moves.noMore)) (fun _ _ h => ⟨h.once⟩)
  pass s b h := h.pass b
  task s k h := h.frameTask k
  reload _ h := ⟨h.once⟩
  slot s f h := h.noMore (slotEvent_frame s f).work.list
    (.of_eq (State.stacked_congr fun g q => ((slotEvent_frame s f).selects g q).2.2.2.2.2))
  byte s i b h := h.noMore (takeByte_frame s i b).work.list
    (.of_eq (State.stacked_congr fun f p => ((takeByte_frame s i b).selects f p).2.2.2.2.2))
  request r p b s _ h := h.request r p b

/-- Settles O59: counted over list and stacks, no operation of a step gives a port a second live item of one tag. -/
theorem stepKeepsTagsDistinct : Obligations.StepKeepsTagsDistinct := by
  unfold Obligations.StepKeepsTagsDistinct
  intro s t h e
  rw [State.tagsDistinct_iff] at h ⊢
  exact State.tagsDistinctKept.step s t h e

end Sys2Proof.Machine
end

section
/-! SUPPORT. Every feed stays sound, and its capacity that of its rate (R115, R116, R118, R125, R128); its identifiers stay distinct (R38,
R134). -/

namespace Sys2Proof.Machine

/-! ### A property that speaks of the frame rate -/

/-- A property that speaks of no more of the clock than the frame rate, kept by every operation that a step is made of. -/
structure KeptAtRate (P : State → Prop) : Prop where
  free : ∀ s q h k l c u, k.rate = s.clock.rate → P s → P { s with pending := q, held := h, clock := k, lines := l, scan := c, ports := u }
  reset : ∀ r q, P (State.heldAt r q)
  release : ∀ (s : State) b, P (s.release b)
  header : ∀ s b, P s → P (s.headerByte b)
  sections : ∀ s b, P s → P (s.readSections b)
  counts : ∀ s, P s → P s.counts
  examine : ∀ s, P s → P s.examine
  pass : ∀ s b, P s → P (s.pass b)
  task : ∀ s k, P s → P (s.frameTask k)
  reload : ∀ s, P s → P { s with feeds := tmap Feed.reloadRunning s.feeds }
  slot : ∀ s f, P s → P (s.slotEvent f)
  byte : ∀ s i b, P s → P (s.takeByte i b)
  request : ∀ r p b s, s.loader.state ≠ .loading ∨ r = .readPort → P s → P (perform r p b s).1

namespace KeptAtRate

variable {P : State → Prop} (K : KeptAtRate P)
include K

theorem clockOf (s : State) (k : Clock) (rate : k.rate = s.clock.rate) (h : P s) : P { s with clock := k } :=
  K.free s s.pending s.held k s.lines s.scan s.ports rate h

theorem portsOf (s : State) (u : Vector ControlPort 4) (h : P s) : P { s with ports := u } :=
  K.free s s.pending s.held s.clock s.lines s.scan u rfl h

theorem told {s t : State} (o : OnlyPorts s t) (h : P s) : P t := by
  obtain ⟨_, rfl, _⟩ := o; exact K.portsOf s _ h

theorem requests : KeptByRequests P where
  ports := K.portsOf
  request := K.request

theorem frameEvent (s : State) (o : FrameOrder) (h : P s) : P (s.frameEvent o) := by
  apply frameEvent_keeps P K.counts K.examine K.pass K.task K.reload
  unfold State.clockFrame
  split
  · exact K.told (raiseAll_frame _ _) (K.clockOf s _ rfl h)
  · exact K.clockOf s _ rfl h

theorem lockReference (s : State) (h : P s) : P s.lockReference := by
  unfold State.lockReference
  dsimp only
  split
  · exact K.told (raiseAll_frame _ _) (K.clockOf s _ rfl h)
  · exact K.clockOf s _ rfl h

theorem expireLate (s : State) (h : P s) : P s.expireLate := by
  unfold State.expireLate
  dsimp only
  split
  · exact K.told (raiseAll_frame _ _) (K.clockOf s _ rfl h)
  · exact K.clockOf s _ rfl h

theorem judgePulse (s : State) (o : FrameOrder) (h : P s) : P (s.judgePulse o) := by
  have reload : P s.reloadTimer := K.clockOf s _ rfl h
  have zero : P (s.reloadTimer.setRun 0) := K.clockOf _ _ rfl reload
  unfold State.judgePulse
  split_ifs
  · exact K.frameEvent _ o (K.lockReference _ zero)
  · exact K.clockOf _ _ rfl (K.lockReference _ zero)
  · exact K.clockOf s _ rfl h
  · exact K.frameEvent _ o (K.lockReference _ (K.told (raiseAll_frame _ _) zero))

theorem timed (s : State) (o : FrameOrder) (e : TimedEvent) (h : P s) : P (s.takeTimed o e) := by
  cases e
  case windowEnd f p => exact K.task s (.windowEnd f p) h
  case forcedSwitch f p => exact K.task s (.forcedSwitch f p) h
  case dueMaking f c => exact K.task s (.dueMaking f c) h
  case lineSpeed p => exact K.requests.speed s p h
  case lateExpiry => exact K.expireLate s h
  case slot f => exact K.slot s f h
  case byteGap p => exact K.requests.gap s p h
  case underflow =>
    have reload : P s.reloadTimer := K.clockOf s _ rfl h
    exact K.frameEvent _ o (K.clockOf _ _ rfl reload)

/-- Such a property is kept by every event. -/
theorem preserved : Preserved P where
  queue s q h := K.free s q s.held s.clock s.lines s.scan s.ports rfl h
  reset := K.reset
  release := K.release
  header := K.header
  sections := K.sections
  time s d _ h := K.clockOf s _ rfl h
  timed := K.timed
  pulse s o h := by
    unfold State.pulse
    split
    · exact K.judgePulse _ o (K.expireLate s h)
    · exact K.judgePulse s o h
  byte := K.byte
  received := K.requests.received
  accepted := K.requests.accepted
  replied := K.requests.replied

end KeptAtRate

/-! ### Sound feeds -/

/-- A feed that is sound and, where `cap` is asked for, has the capacity of its rate. -/
def Feed.SoundAt (cap : Prop) (r : FrameRate) (x : Feed) : Prop := x.Sound ∧ (cap → x.capacity = capacityOf x.rate r)

/-- Every feed is so. -/
structure State.FeedsSound (cap : Prop) (s : State) : Prop where
  holds : ∀ f, (s.feed f).SoundAt cap s.clock.rate

section
variable {cap : Prop} {r : FrameRate} {x : Feed}

/-- The plans changed over (R119). -/
theorem Feed.SoundAt.swapped (h : x.SoundAt cap r) (fits : x.shadow.total ≤ x.capacity) (at' : Option (Tick × TimeOfDay)) :
    Feed.SoundAt cap r { x with activeB := !x.activeB, swapPending := false, lastSwap := at' } := by
  obtain ⟨⟨-, -, rate, remainder, wf⟩, hcap⟩ := h
  refine ⟨⟨?_, Bool.false_ne_true.elim, rate, remainder, wf⟩, hcap⟩
  have active : Feed.active { x with activeB := !x.activeB, swapPending := false, lastSwap := at' } = x.shadow := by
    unfold Feed.active Feed.shadow
    cases x.activeB <;> rfl
  rw [active]
  exact fits

theorem Feed.SoundAt.reload (h : x.SoundAt cap r) : x.reload.SoundAt cap r := h

theorem Feed.SoundAt.started (h : x.SoundAt cap r) (t : Tick) : (x.started t).SoundAt cap r := by
  obtain ⟨⟨active, shadow, rate, -, -⟩, hcap⟩ := h
  refine ⟨⟨active, shadow, rate, fun _ => ?_, rfl⟩, hcap⟩
  have positive : 0 < Config.lowestRate := by decide
  exact lt_of_lt_of_le positive rate.1

theorem Feed.SoundAt.makeDue (h : x.SoundAt cap r) (c : TableNo) : (x.makeDue c).SoundAt cap r := by
  unfold Feed.makeDue
  split
  · dsimp only
    split <;> exact h
  · exact h

theorem Feed.SoundAt.countCarousel (h : x.SoundAt cap r) : x.countCarousel.SoundAt cap r := by
  unfold Feed.countCarousel; split <;> exact h

theorem Feed.SoundAt.reloadRunning (h : x.SoundAt cap r) : x.reloadRunning.SoundAt cap r := by
  unfold Feed.reloadRunning; split <;> exact h

theorem Feed.SoundAt.bump (h : x.SoundAt cap r) (id : Nat) : (x.bump id).SoundAt cap r := by
  obtain ⟨⟨active, shadow, rate, remainder, wf⟩, hcap⟩ := h
  exact ⟨⟨active, shadow, rate, remainder, counterSet_wf _ _ _ wf⟩, hcap⟩

theorem Feed.SoundAt.sendTable (h : x.SoundAt cap r) (c : TableNo) : (x.sendTable c).SoundAt cap r := by
  unfold Feed.sendTable
  split
  · exact Feed.SoundAt.bump h _
  · exact h

/-- The remainder of the slot clock is one of a division by the rate (R125). -/
theorem Feed.SoundAt.nextSlot (h : x.SoundAt cap r) : x.nextSlot.SoundAt cap r := by
  obtain ⟨⟨active, shadow, rate, remainder, wf⟩, hcap⟩ := h
  have positive : 0 < x.rate := lt_of_lt_of_le (by decide) rate.1
  have below : ∀ n, n % x.rate < x.rate := fun n => Nat.mod_lt n positive
  unfold Feed.SoundAt Feed.Sound Feed.active Feed.shadow
  simp only [Feed.nextSlot_running, Feed.nextSlot_rate, Feed.nextSlot_capacity, Feed.nextSlot_planA, Feed.nextSlot_planB,
    Feed.nextSlot_activeB, Feed.nextSlot_swapPending, Feed.nextSlot_counters]
  exact ⟨⟨active, shadow, rate, fun _ => below _, wf⟩, hcap⟩

end

section
variable {cap : Prop} {s t : State}

theorem State.FeedsSound.same (h : s.FeedsSound cap) (feeds : t.feeds = s.feeds) (rate : t.clock.rate = s.clock.rate) : t.FeedsSound cap := by
  refine ⟨fun f => ?_⟩
  unfold State.feed
  rw [feeds, rate]
  exact h.holds f

theorem State.FeedsSound.movedStacks (h : s.FeedsSound cap) (o : OnlyStacks s t) : t.FeedsSound cap := by
  obtain ⟨_, _, _, rfl, _⟩ := o; exact ⟨h.holds⟩

theorem State.FeedsSound.told (h : s.FeedsSound cap) (o : OnlyPorts s t) : t.FeedsSound cap := h.movedStacks o.moves.stacks

theorem State.FeedsSound.setFeed (h : s.FeedsSound cap) (f : FeedNo) {x : Feed} (hx : x.SoundAt cap s.clock.rate) :
    (s.setFeed f x).FeedsSound cap := by
  refine ⟨fun g => ?_⟩
  rw [State.feed_setFeed]
  split
  · exact hx
  · exact h.holds g

theorem State.FeedsSound.swapNow (h : s.FeedsSound cap) (f : FeedNo) (fits : (s.feed f).shadow.total ≤ (s.feed f).capacity) :
    (s.swapNow f).FeedsSound cap := by
  unfold State.swapNow
  dsimp only
  refine State.FeedsSound.told ?_ (raiseForFeed_frame _ _ _)
  refine h.setFeed f ?_
  have swapped := (h.holds f).swapped fits (some (s.clock.frameStart, s.clock.tod))
  split
  · exact swapped.reload
  · exact swapped

theorem State.FeedsSound.fire (h : s.FeedsSound cap) (e : Entry) : (s.fire e).FeedsSound cap := by
  unfold State.fire
  split
  · exact h.movedStacks (fireTake_frame _ _)
  · exact h.movedStacks (fireReturn_frame _ _)
  · exact h.movedStacks (fireBase_frame _ _)
  · unfold State.firePlan
    dsimp only
    split
    · exact h.told (addOutcome_frame _ _ _)
    · split
      · exact (h.swapNow e.feed ‹_›).told (addOutcome_frame _ _ _)
      · exact h.told (addOutcome_frame _ _ _)
  · exact h.told (addOutcome_frame _ _ _)

theorem State.FeedsSound.frameTask (h : s.FeedsSound cap) (k : FrameTask) : (s.frameTask k).FeedsSound cap := by
  cases k with
  | windowEnd f p => exact h.movedStacks (endWindows_frame s f p)
  | forcedSwitch f p => exact h.movedStacks (forceSwitch_frame s f p).stacks
  | dueMaking f c =>
    unfold State.frameTask State.makeDue
    dsimp only
    split
    · exact h.setFeed f ((h.holds f).makeDue c)
    · exact h
  | swap f =>
    unfold State.frameTask State.takeSwap
    dsimp only
    split
    · rename_i pending
      rw [Bool.and_eq_true] at pending
      exact h.swapNow f ((h.holds f).1.2.1 pending.1)
    · exact h
  | start f =>
    unfold State.frameTask State.takeStart
    dsimp only
    split
    · exact foldl_keeps (State.FeedsSound cap) _ (fun s p h => h.movedStacks (attachPosition_frame s f p).moves.stacks) _ _
        (h.setFeed f ((h.holds f).started _))
    · exact h

/-- A programme packet sent bumps a counter of its feed, and writes no more of a feed than counters and output (R139). -/
theorem sendFrom_bumps (s : State) (f g : FeedNo) (p : PosNo) :
    (s.sendFrom f p).feed g = s.feed g ∨ ∃ o id, (s.sendFrom f p).feed g = Feed.bump { s.feed g with output := o } id := by
  unfold State.sendFrom
  dsimp only
  split
  · split
    · obtain ⟨_, e, _⟩ := trim_frame ((s.setPos f p _).setFeed f _) _
      rw [e]
      simp only [State.feed_with_sources, State.feed_setFeed]
      split
      · rename_i e; subst e; exact .inr ⟨_, _, rfl⟩
      · exact .inl rfl
    · exact .inl rfl
  · exact .inl rfl

theorem OnlyEmission.clock (o : OnlyEmission s t) : t.clock = s.clock := o.work.clock

theorem State.FeedsSound.discardStale (h : s.FeedsSound cap) (f : FeedNo) (p : PosNo) : (s.discardStale f p).FeedsSound cap := by
  refine ⟨fun g => ?_⟩
  obtain ⟨_, e⟩ := discardStale_feed s f g p
  rw [e, (discardStale_frame s f p).clock]
  exact h.holds g

theorem State.FeedsSound.sendFrom (h : s.FeedsSound cap) (f : FeedNo) (p : PosNo) : (s.sendFrom f p).FeedsSound cap := by
  refine ⟨fun g => ?_⟩
  rw [(sendFrom_frame s f p).clock]
  rcases sendFrom_bumps s f g p with e | ⟨o, id, e⟩ <;> rw [e]
  · exact h.holds g
  · exact Feed.SoundAt.bump (x := { s.feed g with output := o }) (h.holds g) id

theorem State.FeedsSound.slotEvent (h : s.FeedsSound cap) (f : FeedNo) : (s.slotEvent f).FeedsSound cap := by
  unfold State.slotEvent
  dsimp only
  have stale := foldl_keeps (State.FeedsSound cap) _ (fun s p h => h.discardStale f p) allPlaces s h
  generalize allPlaces.foldl (fun s p => s.discardStale f p) s = u at stale
  have filled : (u.fillSlot f (u.choose f)).FeedsSound cap := by
    unfold State.fillSlot
    split
    · exact stale.setFeed f ((stale.holds f).sendTable _)
    · exact (stale.setFeed f (x := (u.feed f).countShare _) (stale.holds f)).sendFrom f _
    · exact (stale.setFeed f (x := (u.feed f).countSpare _) (stale.holds f)).sendFrom f _
    · exact stale.setFeed f (x := (u.feed f).sendNull) (stale.holds f)
  exact filled.setFeed f (filled.holds f).nextSlot

end

/-! ### Requests -/

/-- The requests that write a feed's rate, plans or state. -/
def writesFeed : Request → Bool
  | .editPlan => true
  | .swapPlan => true
  | .setFeedRate => true
  | .startFeed => true
  | .stopFeed => true
  | .loadTable => true
  | .dropTable => true
  | _ => false

theorem OnlyStacks.feeds_eq {s t : State} (o : OnlyStacks s t) : t.feeds = s.feeds := by obtain ⟨_, _, _, rfl, _⟩ := o; rfl
theorem OnlyPorts.feeds_eq {s t : State} (o : OnlyPorts s t) : t.feeds = s.feeds := by obtain ⟨_, rfl, _⟩ := o; rfl

/-- Every other request leaves every feed alone. -/
theorem perform_feeds (r : Request) (p : PortNo) (b : List Byte) (s : State) (h : writesFeed r = false) :
    (perform r p b s).1.feeds = s.feeds := by
  cases r <;> try cases h
  case readPort => exact (reqReadPort_frame p b s).feeds_eq
  case readEvents => exact (reqReadEvents_frame p b s).feeds_eq
  case setMask => exact (reqSetMask_frame p b s).feeds_eq
  case readOutcomes => exact (reqReadOutcomes_frame p b s).feeds_eq
  case setTime => obtain ⟨_, e⟩ := reqSetTime_frame p b s; rw [perform, e]
  case readTime => exact (reqReadTime_frame p b s).feeds_eq
  case postEntry => obtain ⟨_, e⟩ := reqPostEntry_frame p b s; rw [perform, e]
  case cancelEntry => obtain ⟨_, e⟩ := reqCancelEntry_frame p b s; rw [perform, e]
  case clearEntries => obtain ⟨_, e⟩ := reqClearEntries_frame p b s; rw [perform, e]
  case listEntries => exact (reqListEntries_frame p b s).feeds_eq
  case setPosition => exact (reqSetPosition_frame p b s).feeds_eq
  case release => exact (reqRelease_frame p b s).feeds_eq
  case examinePosition => exact (reqExaminePosition_frame p b s).feeds_eq
  case setCueLine => obtain ⟨_, e⟩ := reqSetCueLine_frame p b s; rw [perform, e]
  case setSource =>
    obtain e | ⟨i, t, ⟨-, e⟩ | ⟨-, e⟩ | ⟨-, -, e⟩⟩ := reqSetSource_cases p b s <;> rw [perform, e]
    · exact (healthChanged_frame (s.setSrc i ((s.src i).withTable t)) i).feeds_eq
    · exact (permitChanged_frame (s.setSrc i ((s.src i).withTable t)) i).feeds_eq
    · rfl
  case readSource => exact (reqReadSource_frame p b s).feeds_eq
  case setScan => obtain ⟨_, e⟩ := reqSetScan_frame p b s; rw [perform, e]
  case ackFaults => obtain ⟨_, _, _, e, _⟩ := reqAckFaults_frame p b s; rw [perform, e]
  case readHealth => exact (reqReadHealth_frame p b s).feeds_eq
  case readPlan => exact (reqReadPlan_frame p b s).feeds_eq
  case readFeed => exact (reqReadFeed_frame p b s).feeds_eq

/-- No request changes the frame rate. -/
theorem perform_rate (r : Request) (p : PortNo) (b : List Byte) (s : State) : (perform r p b s).1.clock.rate = s.clock.rate := by
  by_cases h : r = .setTime
  · subst h
    unfold perform reqSetTime
    dsimp only
    split
    · rw [accept_state]
    · rfl
  · rw [perform_clock r p b s h]

theorem State.FeedsSound.request {cap : Prop} {s : State} (h : s.FeedsSound cap) (r : Request) (p : PortNo) (b : List Byte) :
    (perform r p b s).1.FeedsSound cap := by
  cases r
  case editPlan =>
    unfold perform reqEditPlan
    dsimp only
    split; · exact h
    rename_i f _
    split; · exact h
    split; · exact h
    split; · exact h
    rename_i swap
    obtain ⟨⟨active, -, hrest⟩, hcap⟩ := h.holds f
    rw [accept_state]
    refine h.setFeed f ?_
    unfold Feed.withShadow
    split
    · rename_i hb
      exact ⟨⟨by unfold Feed.active at active ⊢; rw [hb] at active ⊢; exact active, fun k => absurd k swap, hrest⟩, hcap⟩
    · rename_i hb
      rw [Bool.not_eq_true] at hb
      exact ⟨⟨by unfold Feed.active at active ⊢; rw [hb] at active ⊢; exact active, fun k => absurd k swap, hrest⟩, hcap⟩
  case swapPlan =>
    unfold perform reqSwapPlan
    dsimp only
    split; · exact h
    rename_i f _
    split; · exact h
    rename_i fits
    obtain ⟨⟨active, -, hrest⟩, hcap⟩ := h.holds f
    rw [accept_state]
    exact h.setFeed f ⟨⟨active, fun _ => not_lt.1 fits, hrest⟩, hcap⟩
  case setFeedRate =>
    unfold perform reqSetFeedRate
    dsimp only
    split; · exact h
    rename_i f _
    split; · exact h
    rename_i range
    split; · exact h
    rename_i state
    split; · exact h
    rename_i fits
    rw [not_or, not_lt, not_lt] at range
    rw [not_or, not_lt, not_and, not_lt] at fits
    obtain ⟨⟨-, -, -, -, wf⟩, -⟩ := h.holds f
    rw [accept_state]
    refine h.setFeed f ⟨⟨fits.1, fits.2, range, fun running => absurd ?_ state, wf⟩, fun _ => rfl⟩
    rw [show (s.feed f).running = true from running]
    rfl
  case startFeed =>
    unfold perform reqStartFeed
    dsimp only
    split; · exact h
    rename_i f _
    split; · exact h
    rw [accept_state]
    exact h.setFeed f (x := { s.feed f with startPending := true }) (h.holds f)
  case stopFeed =>
    obtain e | ⟨f, ⟨-, e⟩ | e⟩ := reqStopFeed_cases p b s <;> rw [perform, e]
    · exact h
    · refine foldl_keeps (State.FeedsSound cap) _ (fun s p h => h.movedStacks (restPosition_frame s f p).stacks) _ _ ?_
      obtain ⟨⟨active, shadow, rate, -, wf⟩, hcap⟩ := h.holds f
      exact h.setFeed f ⟨⟨active, shadow, rate, Bool.false_ne_true.elim, wf⟩, hcap⟩
    · exact h.setFeed f (x := { s.feed f with startPending := false }) (h.holds f)
  case loadTable =>
    unfold perform reqLoadTable
    dsimp only
    split; · exact h
    rename_i f _
    split; · exact h
    split; · exact h
    split; · exact h
    rw [accept_state]
    exact h.setFeed f (x := { s.feed f with carousel := _ }) (h.holds f)
  case dropTable =>
    unfold perform reqDropTable
    dsimp only
    split; · exact h
    rename_i f _
    split; · exact h
    rw [accept_state]
    exact h.setFeed f (x := { s.feed f with carousel := _ }) (h.holds f)
  all_goals exact h.same (perform_feeds _ p b s (by decide)) (perform_rate _ p b s)

/-! ### The image -/

/-- A feeds record holds a rate in its range (R115). -/
theorem feedRecordOf_rate {b : List Byte} {r : FeedRecord} (h : feedRecordOf b = some r) :
    Config.lowestRate ≤ r.rate ∧ r.rate ≤ Config.highestRate := by
  unfold feedRecordOf at h
  split at h
  · dsimp only at h
    rw [Option.ite_none_right_eq_some] at h
    obtain ⟨range, h⟩ := h
    cases h
    exact ⟨range.1, range.2.1⟩
  · cases h

/-- A feed that an image configures, with no swap pending and stopped, is sound: its active plan is within budget (R116, R167). -/
theorem Feed.SoundAt.configured {cap : Prop} {r : FrameRate} {x : Feed} (h : x.SoundAt cap r) (stopped : x.running = false)
    (swap : x.swapPending = false) {q : FeedRecord} (range : Config.lowestRate ≤ q.rate ∧ q.rate ≤ Config.highestRate)
    (budget : q.withinBudget r = true) : (x.configured q r).SoundAt cap r := by
  obtain ⟨⟨-, -, -, -, wf⟩, -⟩ := h
  refine ⟨⟨of_decide_eq_true budget, fun k => ?_, range, fun k => ?_, wf⟩, fun _ => rfl⟩
  · exact absurd (swap.symm.trans k) Bool.false_ne_true
  · exact absurd (stopped.symm.trans k) Bool.false_ne_true

theorem State.FeedsSound.readSections {cap : Prop} {s : State} (load : s.LoadSound) (h : s.FeedsSound cap) (b : List Byte) :
    (s.readSections b).FeedsSound cap := by
  obtain e | ⟨hphase, ⟨_, -, -, e⟩ | ⟨_, -, e⟩ | ⟨l, m, -, -, hm, passes, e⟩⟩ := s.readSections_cases b <;> rw [e]
  · exact h
  · exact ⟨h.holds⟩
  · exact ⟨h.holds⟩
  · obtain ⟨-, -, -, idle⟩ := load (.inr hphase)
    have clock : ({ s with loader := l }.applyImage m).clock = s.clock := by
      obtain ⟨_, _, _, _, _, _, _, e⟩ := applyImage_frame { s with loader := l } m
      rw [e]
    have budget : ∀ r ∈ m.feeds, r.withinBudget s.clock.rate = true := by
      simp only [Image.passes, Bool.and_eq_true, List.all_eq_true] at passes
      exact passes.2
    refine ⟨fun f => ?_⟩
    rw [State.applyImage_feed_eq, clock]
    obtain ⟨_, e⟩ := State.applyTables_rest ({ s with loader := l }.applyFeeds m) m f
    rw [e]
    rcases ({ s with loader := l }.applyFeeds_at m).2 f with same | ⟨r, hr, set⟩
    · rw [same]; exact h.holds f
    · rw [set]
      obtain ⟨c, hc⟩ := (imageOf_holds hm).2.2 r hr
      exact (h.holds f).configured (idle f).1 (idle f).2.2.1 (feedRecordOf_rate hc) (budget r hr)

/-! ### Every step -/

theorem capacity_reset (r : FrameRate) : (Feed.reset r).capacity = capacityOf (Feed.reset r).rate r := by cases r <;> rfl

theorem State.feedsSound_heldAt (cap : Prop) (r : FrameRate) (q : List Instr) : (State.heldAt r q).FeedsSound cap := by
  refine ⟨fun f => ?_⟩
  have e : (State.heldAt r q).feed f = Feed.reset r := by simp [State.heldAt, State.feed]
  rw [e]
  refine ⟨?_, fun _ => capacity_reset r⟩
  unfold Feed.Sound
  cases r <;> decide

theorem State.feedsSoundKept (cap : Prop) : KeptAtRate fun s => s.LoadSound ∧ s.FeedsSound cap where
  free s q h k l c u rate g := ⟨State.loadSoundKept.free s q h k l c u g.1, g.2.same rfl rate⟩
  reset r q := ⟨State.loadSoundKept.reset r q, State.feedsSound_heldAt cap r q⟩
  release s b := ⟨s.loadSound_release b, ⟨(State.feedsSound_heldAt cap (.ofFrsel b) s.pending).holds⟩⟩
  header s b h := ⟨State.loadSoundKept.header s b h.1, by obtain ⟨_, _, e⟩ := headerByte_frame s b; rw [e]; exact ⟨h.2.holds⟩⟩
  sections s b h := ⟨State.loadSoundKept.sections s b h.1, h.2.readSections h.1 b⟩
  counts s h := ⟨State.loadSoundKept.counts s h.1, ⟨fun f => by rw [State.counts_feed]; exact (h.2.holds f).countCarousel⟩⟩
  examine s h := ⟨State.loadSoundKept.examine s h.1, examine_keeps _ (fun _ _ h _ => ⟨h.holds⟩)
    (fun s h _ _ u o => ((show (s.setSrc s.scan.pointer _).FeedsSound cap from ⟨h.holds⟩).told o).movedStacks (healthChanged_frame u _))
    (fun _ _ h => ⟨h.holds⟩) s h.2⟩
  pass s b h := ⟨State.loadSoundKept.pass s b h.1, pass_keeps _ (fun _ _ h => ⟨h.holds⟩) (fun _ _ h => ⟨h.holds⟩)
    (fun _ _ h => ⟨h.holds⟩) (fun s e h => h.fire e) s b h.2⟩
  task s k h := ⟨State.loadSoundKept.task s k h.1, h.2.frameTask k⟩
  reload s h := ⟨State.loadSoundKept.reload s h.1, ⟨fun f => by
    have e : ({ s with feeds := tmap Feed.reloadRunning s.feeds } : State).feed f = (s.feed f).reloadRunning := by simp [State.feed]
    rw [e]
    exact (h.2.holds f).reloadRunning⟩⟩
  slot s f h := ⟨State.loadSoundKept.slot s f h.1, h.2.slotEvent f⟩
  byte s i b h := ⟨State.loadSoundKept.byte s i b h.1, by
    obtain ⟨_, _, _, e, _⟩ := takeByte_frame s i b
    rw [e]
    exact ⟨h.2.holds⟩⟩
  request r p b s ready h := ⟨State.loadSoundKept.request r p b s ready h.1, h.2.request r p b⟩

end Sys2Proof.Machine
end

section
/-! SUPPORT. The identifiers of each feed's positions and carousel slots stay distinct (R38, R134). -/

namespace Sys2Proof.Machine

/-! ### The identifiers of a feed -/

/-- The identifier of a carousel slot, if a table is loaded. -/
def tableId : Option Table → List Nat
  | some t => [t.id]
  | none => []

/-- The identifiers of a feed's carousel slots, but for one that is left out. -/
def Feed.tableIds (x : Feed) (skip : Option TableNo) : List Nat :=
  allSources.flatMap fun c => if skip = some c then [] else tableId (tget x.carousel c)

/-- The identifiers of a feed's positions, but for one that is left out. -/
def State.placeIds (s : State) (f : FeedNo) (skip : Option PosNo) : List Nat :=
  allPlaces.flatMap fun p => if skip = some p then [] else present (s.pos f p).ids

theorem State.feedIds_eq (s : State) (f : FeedNo) (p : Option PosNo) (c : Option TableNo) :
    s.feedIds f p c = s.placeIds f p ++ (s.feed f).tableIds c := by
  unfold State.feedIds State.placeIds Feed.tableIds
  congr 2

/-- Of a list over distinct numbers, the part of one number may be put first. -/
theorem flatMap_perm_skip {K : Type} [DecidableEq K] (l : List K) (hl : l.Nodup) (k : K) (hk : k ∈ l) (g : K → List Nat) :
    (l.flatMap g).Perm (g k ++ l.flatMap fun j => if some k = some j then [] else g j) := by
  induction l with
  | nil => cases hk
  | cons a l ih =>
    obtain ⟨fresh, hl⟩ := List.nodup_cons.1 hl
    simp only [List.flatMap_cons]
    by_cases e : a = k
    · subst e
      have rest : (l.flatMap fun j => if some a = some j then [] else g j) = l.flatMap g :=
        List.flatMap_congr fun j hj => if_neg fun e => fresh (by rwa [Option.some.inj e])
      rw [rest, if_pos rfl, List.nil_append]
    · rw [if_neg fun h => e (Option.some.inj h).symm]
      refine ((ih hl ((List.mem_cons.1 hk).resolve_left (Ne.symm e))).append_left (g a)).trans ?_
      rw [← List.append_assoc, ← List.append_assoc]
      exact List.perm_append_comm.append_right _

theorem State.placeIds_perm (s : State) (f : FeedNo) (p : PosNo) :
    (s.placeIds f none).Perm (present (s.pos f p).ids ++ s.placeIds f (some p)) := by
  unfold State.placeIds
  exact flatMap_perm_skip allPlaces (by decide) p (mem_allPlaces p) fun p => present (s.pos f p).ids

theorem Feed.tableIds_perm (x : Feed) (c : TableNo) :
    (x.tableIds none).Perm (tableId (tget x.carousel c) ++ x.tableIds (some c)) := by
  unfold Feed.tableIds
  exact flatMap_perm_skip allSources (by decide) c (mem_allSources c) fun c => tableId (tget x.carousel c)

/-- The identifiers of every feed are distinct. -/
structure State.IdsDistinct (s : State) : Prop where
  holds : ∀ f, (s.feedIds f none none).Nodup

/-- The second state has at every place the identifiers of the first. -/
def SameIds (s t : State) : Prop :=
  (∀ f p, (t.pos f p).ids = (s.pos f p).ids) ∧ ∀ f c, tableId (tget (t.feed f).carousel c) = tableId (tget (s.feed f).carousel c)

theorem SameIds.rfl' (s : State) : SameIds s s := ⟨fun _ _ => rfl, fun _ _ => rfl⟩

theorem SameIds.trans {s t u : State} (a : SameIds s t) (b : SameIds t u) : SameIds s u :=
  ⟨fun f p => (b.1 f p).trans (a.1 f p), fun f c => (b.2 f c).trans (a.2 f c)⟩

theorem SameIds.feedIds {s t : State} (h : SameIds s t) (f : FeedNo) (p : Option PosNo) (c : Option TableNo) :
    t.feedIds f p c = s.feedIds f p c := by
  rw [State.feedIds_eq, State.feedIds_eq]
  unfold State.placeIds Feed.tableIds
  simp only [h.1, h.2]

theorem State.IdsDistinct.same {s t : State} (h : s.IdsDistinct) (o : SameIds s t) : t.IdsDistinct :=
  ⟨fun f => by rw [o.feedIds]; exact h.holds f⟩

theorem State.IdsDistinct.units {s t : State} (h : s.IdsDistinct) (o : SameReading s t) (feeds : t.feeds = s.feeds) : t.IdsDistinct :=
  h.same ⟨fun f p => by unfold State.pos; rw [o.1], fun f c => by unfold State.feed; rw [feeds]⟩

theorem OnlyMoves.ids {s t : State} (o : OnlyMoves s t) : SameIds s t :=
  ⟨fun f p => (o.selects f p).1, fun f c => by unfold State.feed; rw [o.stacks.feeds_eq]⟩

theorem OnlyPorts.ids {s t : State} (o : OnlyPorts s t) : SameIds s t := o.moves.ids

theorem OnlyIntake.ids {s t : State} (o : OnlyIntake s t) : SameIds s t :=
  ⟨fun f p => (o.selects f p).1, fun f c => by rw [o.feed]⟩

theorem setPos_ids (s : State) (f : FeedNo) (p : PosNo) (x : Position) (h : x.ids = (s.pos f p).ids) : SameIds s (s.setPos f p x) := by
  refine ⟨fun g q => ?_, fun _ _ => rfl⟩
  rw [State.pos_setPos]
  split
  · rename_i e; obtain ⟨rfl, rfl⟩ := e; exact h
  · rfl

theorem setFeed_ids (s : State) (f : FeedNo) (x : Feed) (h : ∀ c, tableId (tget x.carousel c) = tableId (tget (s.feed f).carousel c)) :
    SameIds s (s.setFeed f x) := by
  refine ⟨fun _ _ => rfl, fun g c => ?_⟩
  rw [State.feed_setFeed]
  split
  · rename_i e; subst e; exact h c
  · rfl

/-! ### Events that keep them -/

theorem judgePosition_ids (s : State) (f : FeedNo) (p : PosNo) (k : Option SrcNo → Bool) : SameIds s (s.judgePosition f p k) :=
  SameIds.trans (setPos_ids s f p (s.judged (s.pos f p) k) rfl) (handOver_frame _ _ _ _ _ _).ids

theorem fire_ids (s : State) (e : Entry) : SameIds s (s.fire e) := by
  have put : ∀ y b k, y.ids = (s.pos e.feed e.position).ids → SameIds s ((s.setPos e.feed e.position y).entryStacked e b k) :=
    fun y b k h => (setPos_ids s _ _ y h).trans (entryStacked_frame _ _ _ _).ids
  have swap : SameIds s (s.swapNow e.feed) := by
    unfold State.swapNow
    dsimp only
    refine SameIds.trans (setFeed_ids s e.feed _ fun c => ?_) (raiseForFeed_frame _ _ _).ids
    split <;> rfl
  unfold State.fire
  split
  · unfold State.fireTake
    dsimp only
    split
    · exact (addOutcome_frame _ _ _).ids
    · refine put _ _ _ ?_; rfl
  · unfold State.fireReturn
    dsimp only
    split
    · refine put _ _ _ ?_; rfl
    · exact (addOutcome_frame _ _ _).ids
  · unfold State.fireBase
    dsimp only
    refine put _ _ _ ?_; rfl
  · unfold State.firePlan
    dsimp only
    split
    · exact (addOutcome_frame _ _ _).ids
    · split
      · exact swap.trans (addOutcome_frame _ _ _).ids
      · exact (addOutcome_frame _ _ _).ids
  · exact (addOutcome_frame _ _ _).ids

theorem tableId_map (o : Option Table) (g : Table → Table) (hg : ∀ t, (g t).id = t.id) : tableId (o.map g) = tableId o := by
  cases o with
  | none => rfl
  | some t => simp [tableId, hg]

/-- A loaded slot rewritten with its identifier. -/
theorem tableId_tset (v : Vector (Option Table) 16) (c j : TableNo) (k t : Table) (h : tget v c = some k) (ht : t.id = k.id) :
    tableId (tget (tset v c (some t)) j) = tableId (tget v j) := by
  rw [tget_tset]
  split
  · rename_i e; subst e; rw [h]; simp [tableId, ht]
  · rfl

theorem frameTask_ids (s : State) (k : FrameTask) : SameIds s (s.frameTask k) := by
  cases k with
  | windowEnd f p =>
    exact SameIds.trans (SameIds.trans (setPos_ids s f p { s.pos f p with upper := (s.pos f p).upper.filter fun e => e.window ≠ some 0 } rfl)
      (handOver_frame _ f p (s.pos f p).effective (s.pos f p).policy none).ids)
      (foldl_rel OnlyPorts OnlyPorts.rfl' OnlyPorts.trans _ (fun s _ => addOutcome_frame s _ _) _ _).ids
  | forcedSwitch f p => exact (forceSwitch_frame s f p).ids
  | dueMaking f c =>
    unfold State.frameTask State.makeDue
    dsimp only
    split
    · refine setFeed_ids s f _ fun j => ?_
      unfold Feed.makeDue
      split
      · rename_i k hk
        dsimp only
        split
        · exact tableId_tset (s.feed f).carousel c j k { k with countdown := k.interval, due := true } hk rfl
        · exact tableId_tset (s.feed f).carousel c j k { k with countdown := k.interval, due := true } hk rfl
      · rfl
    · exact .rfl' s
  | swap f =>
    unfold State.frameTask State.takeSwap
    dsimp only
    split
    · unfold State.swapNow
      dsimp only
      refine SameIds.trans (setFeed_ids s f _ fun c => ?_) (raiseForFeed_frame _ _ _).ids
      split <;> rfl
    · exact .rfl' s
  | start f =>
    unfold State.frameTask State.takeStart
    dsimp only
    split
    · refine SameIds.trans (setFeed_ids s f ((s.feed f).started s.clock.frameStart) fun c => ?_)
        (foldl_rel OnlyMoves OnlyMoves.rfl' OnlyMoves.trans _ (fun s p => (attachPosition_frame s f p).moves) allPlaces _).ids
      unfold Feed.started Feed.reload
      dsimp only
      rw [tget_tmap]
      exact tableId_map _ _ fun _ => rfl
    · exact .rfl' s

theorem slotEvent_ids (s : State) (f : FeedNo) : SameIds s (s.slotEvent f) := by
  have emission : ∀ {s t : State}, OnlyEmission s t → (∀ g c, tableId (tget (t.feed g).carousel c) = tableId (tget (s.feed g).carousel c)) →
      SameIds s t := fun o h => ⟨fun g q => (o.selects g q).1, h⟩
  have send : ∀ s p, SameIds s (State.sendFrom s f p) := fun s p => emission (sendFrom_frame s f p) fun g c => by
    rcases sendFrom_bumps s f g p with e | ⟨_, _, e⟩ <;> rw [e]
    rfl
  have stale := foldl_rel SameIds SameIds.rfl' SameIds.trans (fun s p => State.discardStale s f p)
    (fun s p => emission (discardStale_frame s f p) fun g c => by
      obtain ⟨_, e⟩ := discardStale_feed s f g p
      rw [e]) allPlaces s
  unfold State.slotEvent
  dsimp only
  generalize allPlaces.foldl (fun s p => s.discardStale f p) s = u at stale
  refine stale.trans (SameIds.trans (t := u.fillSlot f (u.choose f)) ?_ (setFeed_ids _ f _ fun c => ?_))
  · unfold State.fillSlot
    split
    · refine setFeed_ids u f _ fun j => ?_
      unfold Feed.sendTable
      split
      · rename_i k hk
        exact tableId_tset (u.feed f).carousel _ j k { k with due := false } hk rfl
      · rfl
    · exact (setFeed_ids u f ((u.feed f).countShare _) fun c => rfl).trans (send _ _)
    · exact (setFeed_ids u f ((u.feed f).countSpare _) fun c => rfl).trans (send _ _)
    · exact setFeed_ids u f _ fun c => rfl
  · rw [Feed.nextSlot_carousel]

/-! ### Requests -/

theorem State.withSettings_ids (s : State) (f : FeedNo) (p : PosNo) (flags : Byte)
    (v : Vector (Option Nat) 4 × Option SrcNo × Option SrcNo × Splice) : (s.withSettings f p flags v).ids = v.1 := by
  unfold State.withSettings State.judged
  dsimp only
  split_ifs <;> rfl

/-- A value of identifiers that is not flagged stays (R40). -/
theorem positionValues_ids {x : Position} {b : List Byte} {v : Vector (Option Nat) 4 × Option SrcNo × Option SrcNo × Splice}
    (h : positionValues x b = some v) (flag : (byteAt b 2).getLsbD 0 = false) : v.1 = x.ids := by
  unfold positionValues at h
  dsimp only at h
  split at h
  · cases h
  · split at h
    · rename_i ids _ _ _ hids _ _ _
      cases h
      rw [flag] at hids
      exact (Option.some.inj (show some x.ids = some ids from hids)).symm
    · cases h

/-- Identifiers that are free elsewhere in the feed (R38). -/
theorem State.IdsDistinct.setPos {s : State} (h : s.IdsDistinct) (f : FeedNo) (p : PosNo) (x : Position)
    (free : distinctFrom x.ids (s.feedIds f (some p) none) = true) : (s.setPos f p x).IdsDistinct := by
  refine ⟨fun g => ?_⟩
  have tables : ((s.setPos f p x).feed g) = s.feed g := rfl
  rw [State.feedIds_eq, tables]
  by_cases e : f = g
  · subst e
    have skip : (s.setPos f p x).placeIds f (some p) = s.placeIds f (some p) := by
      unfold State.placeIds
      refine List.flatMap_congr fun q _ => ?_
      split
      · rfl
      · rename_i hq
        rw [State.pos_setPos, if_neg fun e => hq (congrArg some e.2)]
    have new := (s.setPos f p x).placeIds_perm f p
    rw [State.pos_setPos, if_pos ⟨rfl, rfl⟩, skip] at new
    rw [(new.append_right _).nodup_iff, List.append_assoc, ← State.feedIds_eq, List.nodup_append]
    unfold distinctFrom at free
    simp only [Bool.and_eq_true, decide_eq_true_eq, List.all_eq_true, Bool.not_eq_true', List.contains_eq_mem,
      decide_eq_false_iff_not] at free
    refine ⟨free.1, ?_, fun a ha b hb e => free.2 a ha (e ▸ hb)⟩
    have old := h.holds f
    rw [State.feedIds_eq, ((s.placeIds_perm f p).append_right _).nodup_iff, List.append_assoc, ← State.feedIds_eq] at old
    exact (List.nodup_append.1 old).2.1
  · have places : (s.setPos f p x).placeIds g none = s.placeIds g none := by
      unfold State.placeIds
      refine List.flatMap_congr fun q _ => ?_
      rw [State.pos_setPos, if_neg fun k : f = g ∧ p = q => e k.1]
    rw [places, ← State.feedIds_eq]
    exact h.holds g

/-- A carousel slot filled, or emptied, with an identifier that is free elsewhere in the feed (R132, R134). -/
theorem State.IdsDistinct.setTable {s : State} (h : s.IdsDistinct) (f : FeedNo) (c : TableNo) (o : Option Table)
    (free : ∀ t, o = some t → t.id ∉ s.feedIds f none (some c)) :
    (s.setFeed f { s.feed f with carousel := tset (s.feed f).carousel c o }).IdsDistinct := by
  refine ⟨fun g => ?_⟩
  have places : ∀ p, (s.setFeed f { s.feed f with carousel := tset (s.feed f).carousel c o }).placeIds g p = s.placeIds g p := fun _ => rfl
  rw [State.feedIds_eq, places, State.feed_setFeed]
  split
  · rename_i e
    subst e
    have skip : Feed.tableIds { s.feed f with carousel := tset (s.feed f).carousel c o } (some c) = (s.feed f).tableIds (some c) := by
      unfold Feed.tableIds
      refine List.flatMap_congr fun j _ => ?_
      split
      · rfl
      · rename_i hj
        dsimp only
        rw [tget_tset, if_neg fun e => hj (congrArg some e)]
    have new := Feed.tableIds_perm { s.feed f with carousel := tset (s.feed f).carousel c o } c
    rw [skip] at new
    dsimp only at new
    rw [tget_tset, if_pos rfl] at new
    have old := h.holds f
    have front : ∀ (a b d : List Nat), (a ++ (b ++ d)).Perm (b ++ (a ++ d)) := fun a b d => by
      rw [← List.append_assoc, ← List.append_assoc]; exact List.perm_append_comm.append_right _
    rw [State.feedIds_eq, (((s.feed f).tableIds_perm c).append_left _).nodup_iff, (front _ _ _).nodup_iff, ← State.feedIds_eq] at old
    rw [(new.append_left _).nodup_iff, (front _ _ _).nodup_iff, ← State.feedIds_eq, List.nodup_append]
    refine ⟨by cases o <;> simp [tableId], (List.nodup_append.1 old).2.1, ?_⟩
    rintro a ha b hb rfl
    cases o with
    | none => cases ha
    | some t => rw [tableId, List.mem_singleton] at ha; exact free t rfl (ha ▸ hb)
  · rw [← State.feedIds_eq]
    exact h.holds g

theorem State.IdsDistinct.request (r : Request) (p : PortNo) (b : List Byte) {s : State} (h : s.IdsDistinct) :
    (perform r p b s).1.IdsDistinct := by
  have feed : ∀ f x, x.carousel = (s.feed f).carousel → (s.setFeed f x).IdsDistinct := fun f x hx =>
    h.same (setFeed_ids s f x fun c => by rw [hx])
  cases r
  case setPosition =>
    obtain e | ⟨f, k, v, hv, -, free, e⟩ := reqSetPosition_cases p b s <;> rw [perform, e]
    · exact h
    · refine State.IdsDistinct.same (s := s.setPos f k (s.withSettings f k (byteAt b 2) v)) ?_
        (SameIds.trans (trimOpt_frame _ _).reading.moves.ids (handOver_frame _ _ _ _ _ _).ids)
      by_cases flag : (byteAt b 2).getLsbD 0 = true
      · rw [not_and, Bool.not_eq_false] at free
        refine h.setPos f k _ ?_
        rw [State.withSettings_ids]
        exact free flag
      · refine h.same (setPos_ids s f k _ ?_)
        rw [State.withSettings_ids]
        exact positionValues_ids hv (by simpa using flag)
  case release =>
    obtain e | ⟨f, k, e⟩ := reqRelease_cases p b s <;> rw [perform, e]
    · exact h
    · refine h.same (SameIds.trans (setPos_ids s f k _ ?_) (handOver_frame _ _ _ _ _ _).ids)
      rfl
  case setSource =>
    have judge : ∀ s f p k, State.IdsDistinct s → (State.judgePosition s f p k).IdsDistinct := fun s f p k h =>
      h.same (judgePosition_ids s f p k)
    have put : ∀ i x, (s.setSrc i x).IdsDistinct := fun i x => ⟨h.holds⟩
    obtain e | ⟨i, t, ⟨-, e⟩ | ⟨-, e⟩ | ⟨-, -, e⟩⟩ := reqSetSource_cases p b s <;> rw [perform, e]
    · exact h
    · exact healthChanged_keeps State.IdsDistinct judge _ i (put _ _)
    · exact permitChanged_keeps State.IdsDistinct judge _ i (put _ _)
    · exact put _ _
  case ackFaults => exact h.same (reqAckFaults_frame p b s).ids
  case stopFeed =>
    obtain e | ⟨f, ⟨-, e⟩ | e⟩ := reqStopFeed_cases p b s <;> rw [perform, e]
    · exact h
    · exact h.same (SameIds.trans (setFeed_ids s f { s.feed f with running := false } fun c => rfl)
        (foldl_rel OnlyMoves OnlyMoves.rfl' OnlyMoves.trans _ (fun s p => restPosition_frame s f p) allPlaces _).ids)
    · exact feed f _ rfl
  case editPlan =>
    unfold perform reqEditPlan
    dsimp only
    split; · exact h
    split; · exact h
    split; · exact h
    split; · exact h
    rw [accept_state]
    exact feed _ _ (by unfold Feed.withShadow; split <;> rfl)
  case swapPlan =>
    unfold perform reqSwapPlan
    dsimp only
    split; · exact h
    split; · exact h
    rw [accept_state]
    exact feed _ _ rfl
  case setFeedRate =>
    unfold perform reqSetFeedRate
    dsimp only
    split; · exact h
    split; · exact h
    split; · exact h
    split; · exact h
    rw [accept_state]
    exact feed _ _ rfl
  case startFeed =>
    unfold perform reqStartFeed
    dsimp only
    split; · exact h
    split; · exact h
    rw [accept_state]
    exact feed _ _ rfl
  case loadTable =>
    unfold perform reqLoadTable
    dsimp only
    split; · exact h
    split; · exact h
    split; · exact h
    split; · exact h
    rename_i f _ _ c _ _ fresh
    rw [accept_state]
    refine h.setTable f c _ fun t ht => ?_
    cases ht
    simpa using fresh
  case dropTable =>
    unfold perform reqDropTable
    dsimp only
    split; · exact h
    split; · exact h
    rw [accept_state]
    exact h.setTable _ _ none fun t ht => by cases ht
  all_goals exact h.units (perform_reading _ p b s (by decide)) (perform_feeds _ p b s (by decide))

/-! ### The image -/

/-- The table that a carousel record loads. -/
def CarouselRecord.table (r : CarouselRecord) : Table := ⟨r.id, r.interval, r.payload, r.interval, true⟩

/-- Carousel records that fill empty slots bring their identifiers (R146). -/
theorem tableIds_applied (l : List CarouselRecord) (s : State) (f : FeedNo)
    (distinct : (l.map fun r => (r.feed, r.slot)).Nodup) (empty : ∀ r ∈ l, tget (s.feed r.feed).carousel r.slot = none) :
    (((l.foldl State.applyTable s).feed f).tableIds none).Perm
      ((l.filter fun r => r.feed = f).map CarouselRecord.id ++ (s.feed f).tableIds none) := by
  induction l generalizing s with
  | nil => exact .refl _
  | cons a l ih =>
    rw [List.map_cons, List.nodup_cons] at distinct
    obtain ⟨fresh, distinct⟩ := distinct
    have mine := empty a List.mem_cons_self
    rw [List.foldl_cons]
    have later : ∀ r ∈ l, tget ((s.applyTable a).feed r.feed).carousel r.slot = none := by
      intro r hr
      have differs : ¬(a.feed = r.feed ∧ a.slot = r.slot) := fun e => fresh (List.mem_map.2 ⟨r, hr, Prod.ext e.1.symm e.2.symm⟩)
      unfold State.applyTable
      dsimp only
      rw [State.feed_setFeed]
      split
      · rename_i e
        dsimp only
        rw [tget_tset, if_neg fun k => differs ⟨e, k⟩, e]
        exact empty r (List.mem_cons_of_mem _ hr)
      · exact empty r (List.mem_cons_of_mem _ hr)
    refine (ih (s.applyTable a) distinct later).trans ?_
    unfold State.applyTable
    dsimp only
    rw [State.feed_setFeed]
    by_cases e : a.feed = f
    · subst e
      rw [if_pos rfl, List.filter_cons_of_pos (by simp), List.map_cons, List.cons_append]
      have skip : Feed.tableIds { s.feed a.feed with carousel := tset (s.feed a.feed).carousel a.slot (some a.table) } (some a.slot) = (s.feed a.feed).tableIds (some a.slot) := by
        unfold Feed.tableIds
        refine List.flatMap_congr fun j _ => ?_
        split
        · rfl
        · rename_i hj
          dsimp only
          rw [tget_tset, if_neg fun e => hj (congrArg some e)]
      have old := (s.feed a.feed).tableIds_perm a.slot
      have new := Feed.tableIds_perm { s.feed a.feed with carousel := tset (s.feed a.feed).carousel a.slot (some a.table) } a.slot
      rw [mine] at old
      rw [skip] at new
      dsimp only at new
      rw [tget_tset, if_pos rfl] at new
      exact ((new.trans (old.symm.cons a.id)).append_left _).trans List.perm_middle
    · rw [if_neg e, List.filter_cons_of_neg (by simpa using e)]

/-- The identifiers that an image gives a feed's positions, in the records' order. -/
theorem placeIds_applied (s : State) (m : Image) (count : m.positions.length = 48) (f : FeedNo) :
    (s.applyImage m).placeIds f none = ((m.positions.drop (f.val * 8)).take 8).flatMap fun r => present r.ids := by
  have ids : ∀ p : PosNo, ((s.applyImage m).pos f p).ids = (m.positions[f.val * 8 + p.val]'(by omega)).ids := fun p => by
    rw [State.applyImage_pos s m f p _ (List.getElem?_eq_getElem (by omega))]
  have order : allPlaces = List.finRange 8 := by decide
  have records : (m.positions.drop (f.val * 8)).take 8 = (List.finRange 8).map fun p => m.positions[f.val * 8 + p.val]'(by omega) := by
    refine List.ext_getElem (by simp [count]; omega) fun n h1 h2 => ?_
    simp
  unfold State.placeIds
  rw [records, order, List.flatMap_map]
  refine List.flatMap_congr fun p _ => ?_
  rw [if_neg (by simp), ids]

theorem State.IdsDistinct.applyImage {s : State} (load : ∀ f c, tget (s.feed f).carousel c = none) (m : Image) (r : FrameRate)
    (count : m.positions.length = 48) (passes : m.passes r = true) : (s.applyImage m).IdsDistinct := by
  simp only [Image.passes, Bool.and_eq_true, decide_eq_true_eq, List.all_eq_true] at passes
  obtain ⟨⟨⟨distinct, -⟩, ids⟩, -⟩ := passes
  refine ⟨fun f => ?_⟩
  have kept : ∀ g c, tget ((s.applyFeeds m).feed g).carousel c = none := fun g c => by
    rcases (s.applyFeeds_at m).2 g with e | ⟨_, -, e⟩ <;> rw [e]
    · exact load g c
    · exact load g c
  have none' : ((s.applyFeeds m).feed f).tableIds none = [] := by
    unfold Feed.tableIds
    simp [kept, tableId]
  rw [State.feedIds_eq, placeIds_applied s m count, State.applyImage_feed_eq]
  have tables := tableIds_applied m.carousel (s.applyFeeds m) f distinct fun r _ => kept _ _
  rw [none', List.append_nil] at tables
  unfold State.applyTables
  rw [(List.Perm.append_left _ tables).nodup_iff]
  exact ids f (mem_allFeeds f)

theorem State.IdsDistinct.readSections {s : State} (load : s.LoadSound) (h : s.IdsDistinct) (b : List Byte) :
    (s.readSections b).IdsDistinct := by
  obtain e | ⟨hphase, ⟨_, -, -, e⟩ | ⟨_, -, e⟩ | ⟨l, m, -, -, hm, passes, e⟩⟩ := s.readSections_cases b <;> rw [e]
  · exact h
  · exact ⟨h.holds⟩
  · exact ⟨h.holds⟩
  · obtain ⟨-, -, -, idle⟩ := load (.inr hphase)
    exact State.IdsDistinct.applyImage (s := { s with loader := l }) (fun f c => (idle f).2.2.2 c) m s.clock.rate
      (imageOf_holds hm).1.2.2.1 passes

/-! ### Every step -/

theorem State.idsDistinct_heldAt (r : FrameRate) (q : List Instr) : (State.heldAt r q).IdsDistinct := by
  refine ⟨fun f => ?_⟩
  have places : (State.heldAt r q).placeIds f none = [] := by
    simp [State.placeIds, State.heldAt, State.pos, Position.reset, present]
  have tables : ((State.heldAt r q).feed f).tableIds none = [] := by
    simp [Feed.tableIds, State.heldAt, State.feed, Feed.reset, tableId]
  rw [State.feedIds_eq, places, tables]
  exact List.nodup_nil

theorem State.idsDistinctKept : Kept fun s => s.LoadSound ∧ s.IdsDistinct where
  free s q h k l c u g := ⟨State.loadSoundKept.free s q h k l c u g.1, ⟨g.2.holds⟩⟩
  reset r q := ⟨State.loadSoundKept.reset r q, State.idsDistinct_heldAt r q⟩
  release s b h := ⟨State.loadSoundKept.release s b h.1, ⟨(State.idsDistinct_heldAt (.ofFrsel b) s.pending).holds⟩⟩
  header s b h := ⟨State.loadSoundKept.header s b h.1, by obtain ⟨_, _, e⟩ := headerByte_frame s b; rw [e]; exact ⟨h.2.holds⟩⟩
  sections s b h := ⟨State.loadSoundKept.sections s b h.1, h.2.readSections h.1 b⟩
  counts s h := ⟨State.loadSoundKept.counts s h.1, h.2.same ⟨fun f p => by rw [State.counts_pos]; rfl, fun f c => by
    rw [State.counts_feed]
    unfold Feed.countCarousel
    split
    · dsimp only
      rw [tget_tmap]
      exact tableId_map _ _ fun _ => rfl
    · rfl⟩⟩
  examine s h := ⟨State.loadSoundKept.examine s h.1, examine_keeps _ (fun _ _ h _ => ⟨h.holds⟩)
    (fun s h _ _ u o => healthChanged_keeps State.IdsDistinct (fun s f p k h => h.same (judgePosition_ids s f p k)) u _
      ((show (s.setSrc s.scan.pointer _).IdsDistinct from ⟨h.holds⟩).same o.ids)) (fun _ _ h => ⟨h.holds⟩) s h.2⟩
  pass s b h := ⟨State.loadSoundKept.pass s b h.1, pass_keeps _ (fun _ _ h => ⟨h.holds⟩) (fun _ _ h => ⟨h.holds⟩)
    (fun _ _ h => ⟨h.holds⟩) (fun s e h => h.same (fire_ids s e)) s b h.2⟩
  task s k h := ⟨State.loadSoundKept.task s k h.1, h.2.same (frameTask_ids s k)⟩
  reload s h := ⟨State.loadSoundKept.reload s h.1, h.2.same ⟨fun _ _ => rfl, fun f c => by
    have e : ({ s with feeds := tmap Feed.reloadRunning s.feeds } : State).feed f = (s.feed f).reloadRunning := by simp [State.feed]
    rw [e]
    unfold Feed.reloadRunning
    split <;> rfl⟩⟩
  slot s f h := ⟨State.loadSoundKept.slot s f h.1, h.2.same (slotEvent_ids s f)⟩
  byte s i b h := ⟨State.loadSoundKept.byte s i b h.1, h.2.same (takeByte_frame s i b).ids⟩
  request r p b s ready h := ⟨State.loadSoundKept.request r p b s ready h.1, h.2.request r p b⟩

/-- Settles O53: each event keeps every feed's plans, rate, remainder and counters in their bounds, its capacity that of its rate, and its
identifiers distinct. -/
theorem stepKeepsFeedsSound : Obligations.StepKeepsFeedsSound := by
  unfold Obligations.StepKeepsFeedsSound
  intro s t load sound e
  have bare := (State.feedsSoundKept False).preserved.step (s := s) ⟨load, ⟨fun f => ⟨sound f, False.elim⟩⟩⟩ e
  refine ⟨⟨bare.1, fun f => (bare.2.holds f).1⟩, fun cap f => ?_, fun ids => ?_⟩
  · have whole := (State.feedsSoundKept True).preserved.step (s := s) ⟨load, ⟨fun f => ⟨sound f, fun _ => cap f⟩⟩⟩ e
    exact (whole.2.holds f).2 trivial
  · exact (State.idsDistinctKept.step s t ⟨load, ⟨ids⟩⟩ e).2.holds

end Sys2Proof.Machine
end

section
/-! SUPPORT. The switch list stays within its places (R20) and in its order (R16). -/

namespace Sys2Proof.Machine

/-! ### Places -/

theorem SwitchList.count_eq (l : SwitchList) (p : PortNo) : l.count p = l.entries.countP fun e => decide (e.owner = p) :=
  List.countP_eq_length_filter.symm

theorem sum_owner (q : PortNo) : (allPorts.map fun p => if q = p then 1 else 0).sum = 1 := by
  revert q; decide

/-- Every entry is some port's. -/
theorem length_eq_owned (l : List Entry) : l.length = (allPorts.map fun p => l.countP fun e => decide (e.owner = p)).sum := by
  induction l with
  | nil => simp
  | cons e l ih =>
    simp only [List.countP_cons, decide_eq_true_eq, List.length_cons, List.sum_map_add, sum_owner, ih]

/-- Quotas and pool bound the list (R20). -/
theorem SwitchList.sound_of {l : SwitchList} (quotas : (allPorts.map fun p => tget l.quotas p).sum ≤ Config.listPlaces)
    (pool : l.poolUse ≤ l.pool) : l.Sound := by
  refine ⟨quotas, pool, ?_⟩
  have fits : (allPorts.map fun p => l.count p).sum ≤ (allPorts.map fun p => tget l.quotas p + (l.count p - tget l.quotas p)).sum :=
    List.sum_le_sum fun p _ => by omega
  rw [List.sum_map_add] at fits
  change _ ≤ (allPorts.map fun p => tget l.quotas p).sum + l.poolUse at fits
  have owned : l.entries.length = (allPorts.map fun p => l.count p).sum := by
    simp only [SwitchList.count_eq]
    exact length_eq_owned _
  unfold SwitchList.pool at pool
  omega

/-- Entries leave, and owners stay who they are. -/
theorem SwitchList.Sound.fewer {l : SwitchList} (h : l.Sound) (es : List Entry) (q : BitVec 16)
    (fewer : ∀ p, (es.countP fun e => decide (e.owner = p)) ≤ l.entries.countP fun e => decide (e.owner = p)) :
    ({ l with entries := es, nextSeq := q } : SwitchList).Sound := by
  obtain ⟨quotas, pool, -⟩ := h
  refine SwitchList.sound_of quotas (le_trans ?_ pool)
  refine List.sum_le_sum fun p _ => ?_
  have := fewer p
  simp only [SwitchList.count_eq]
  omega

/-- An entry of a port for which the list has a place (R20). -/
theorem SwitchList.Sound.posted {l : SwitchList} (h : l.Sound) (l₁ l₂ : List Entry) (e : Entry) (parts : l₁ ++ l₂ = l.entries)
    (place : l.hasPlace e.owner = true) (q : BitVec 16) : ({ l with entries := l₁ ++ [e] ++ l₂, nextSeq := q } : SwitchList).Sound := by
  obtain ⟨quotas, pool, -⟩ := h
  have count : ∀ p, ({ l with entries := l₁ ++ [e] ++ l₂, nextSeq := q } : SwitchList).count p =
      l.count p + if e.owner = p then 1 else 0 := fun p => by
    simp only [SwitchList.count_eq, ← parts, List.countP_append, List.countP_singleton, decide_eq_true_eq]
    omega
  refine SwitchList.sound_of quotas ?_
  have sum := sum_map_update allPorts (by decide) e.owner (mem_allPorts e.owner) (fun p => l.count p - tget l.quotas p)
    (fun p => ({ l with entries := l₁ ++ [e] ++ l₂, nextSeq := q } : SwitchList).count p - tget l.quotas p)
    fun p _ hp => by rw [count, if_neg (Ne.symm hp), Nat.add_zero]
  rw [count, if_pos rfl] at sum
  unfold SwitchList.hasPlace at place
  simp only [Bool.or_eq_true, decide_eq_true_eq] at place
  change (allPorts.map fun p => ({ l with entries := l₁ ++ [e] ++ l₂, nextSeq := q } : SwitchList).count p - tget l.quotas p).sum ≤ l.pool
  change (allPorts.map fun p => l.count p - tget l.quotas p).sum ≤ l.pool at pool
  change _ ∨ (allPorts.map fun p => l.count p - tget l.quotas p).sum < l.pool at place
  omega

/-! ### What a pass leaves of the list -/

/-- An entry but for the mark that its cue has come about. -/
def Entry.uncued (e : Entry) : Entry := { e with cued := false }

theorem applyCue_uncued (s : State) (e : Entry) (k : Bool) : (s.applyCue e k).2.uncued = e.uncued := by
  unfold State.applyCue
  split
  · split <;> rfl
  · rfl

/-- A pass leaves in the list, in their order, the entries whose fate it is to stay (R24, R31). -/
theorem passEntries_uncued (b : Bool) (l : List Entry) (s : State) :
    (passEntries b l s).2.map Entry.uncued = (l.filter fun e => decide (e.fate b s.now s.day = .stays)).map Entry.uncued := by
  induction l generalizing s with
  | nil => rfl
  | cons e l ih =>
    have same : ∀ t : State, t.clock = s.clock → (passEntries b l t).2.map Entry.uncued =
        (l.filter fun e => decide (e.fate b s.now s.day = .stays)).map Entry.uncued := fun t ht => by
      rw [ih]
      unfold State.now State.day
      rw [ht]
    have cue : ∀ k x, (s.applyCue x k).1.clock = s.clock := fun k x => (applyCue_frame s x k).clock
    unfold passEntries
    split
    · rename_i late fate
      rw [List.filter_cons_of_neg (by simp [fate])]
      exact same _ (((fire_frame _ _).clock).trans (cue _ _))
    · rename_i fate
      rw [List.filter_cons_of_neg (by simp [fate])]
      have record : OnlyPorts s (s.discard e) := addOutcome_frame _ _ _
      exact same _ record.clock
    · rename_i fate
      rw [List.filter_cons_of_pos (by simp [fate])]
      dsimp only
      rw [List.map_cons, List.map_cons, applyCue_uncued, same _ (cue _ _)]

theorem countP_uncued (l : List Entry) (p : PortNo) :
    (l.countP fun e => decide (e.owner = p)) = (l.map Entry.uncued).countP fun e => decide (e.owner = p) := by
  rw [List.countP_map]
  rfl

/-- The list after a pass. -/
theorem State.pass_list (s : State) (b : Bool) : (s.pass b).list = { s.list with entries := (passEntries b s.list.entries s).2 } := by
  unfold State.pass
  dsimp only
  rw [(passEntries_frame b s.list.entries s).list]

theorem SwitchList.Sound.pass {s : State} (h : s.list.Sound) (b : Bool) : (s.pass b).list.Sound := by
  rw [State.pass_list]
  refine h.fewer _ s.list.nextSeq fun p => ?_
  rw [countP_uncued, passEntries_uncued, ← countP_uncued]
  exact List.filter_sublist.countP_le

/-- What requests make of a list within its places. -/
theorem SwitchList.Sound.request (r : Request) (p : PortNo) (b : List Byte) {s : State} (h : s.list.Sound) :
    (perform r p b s).1.list.Sound := by
  cases r
  case postEntry =>
    obtain e | ⟨e, he, -, place, -, eq⟩ := reqPostEntry_cases p b s
    · rw [perform, e]; exact h
    · rw [perform, eq]
      obtain ⟨rfl, -⟩ := postedEntry_owner he
      dsimp only
      refine h.posted _ _ _ (placeOf_append _ _ _ _) ?_ _
      exact place
  case cancelEntry =>
    unfold perform reqCancelEntry
    dsimp only
    split
    · rw [accept_state]
      exact h.fewer (s.list.entries.eraseP _) s.list.nextSeq fun q => List.eraseP_sublist.countP_le
    · exact h
  case clearEntries =>
    unfold perform reqClearEntries
    rw [accept_state]
    exact h.fewer (s.list.entries.filter _) s.list.nextSeq fun q => List.filter_sublist.countP_le
  case setTime => obtain ⟨_, e⟩ := reqSetTime_frame p b s; rw [perform, e]; exact h
  all_goals rw [(perform_work _ p b s (by decide)).list]; exact h

/-- The quotas of an image that passes sum to no more than the places; the list is empty then (R166). -/
theorem SwitchList.Sound.applyImage {s : State} (empty : s.list.entries = []) (m : Image) (r : FrameRate) (count : m.ports.length = 4)
    (passes : m.passes r = true) : (s.applyImage m).list.Sound := by
  simp only [Image.passes, Bool.and_eq_true, decide_eq_true_eq] at passes
  obtain ⟨⟨⟨-, sum⟩, -⟩, -⟩ := passes
  rw [(s.applyImage_ports_eq m).2]
  have entries : (s.applyPorts m).list.entries = [] := by
    obtain ⟨_, _, _, _, _, _, _, e⟩ := applyImage_frame s m
    rw [← (s.applyImage_ports_eq m).2, e]
    exact empty
  have quota : ∀ p : PortNo, tget (s.applyPorts m).list.quotas p = (m.ports[p.val]'(by omega)).quota := fun p =>
    congrArg Prod.snd ((s.applyPorts_at m).1 p _ (List.getElem?_eq_getElem (by omega)))
  have quotas : (allPorts.map fun p => tget (s.applyPorts m).list.quotas p) = m.ports.map PortRecord.quota := by
    have order : allPorts = List.finRange 4 := by decide
    refine List.ext_getElem (by simp [order, count]) fun n h1 h2 => ?_
    simp [order, quota]
  refine SwitchList.sound_of (by rw [quotas]; exact sum) ?_
  have none' : (s.applyPorts m).list.poolUse = 0 := by
    unfold SwitchList.poolUse
    refine List.sum_eq_zero fun n hn => ?_
    obtain ⟨p, -, rfl⟩ := List.mem_map.1 hn
    simp [SwitchList.count, entries]
  omega

theorem SwitchList.sound_heldAt (r : FrameRate) (q : List Instr) : (State.heldAt r q).list.Sound := by
  refine SwitchList.sound_of ?_ ?_
  · change (allPorts.map fun p => tget SwitchList.reset.quotas p).sum ≤ Config.listPlaces
    decide
  · simp [State.heldAt, SwitchList.reset, SwitchList.poolUse, SwitchList.count]

theorem SwitchList.Sound.readSections {s : State} (load : s.LoadSound) (h : s.list.Sound) (b : List Byte) : (s.readSections b).list.Sound := by
  obtain e | ⟨hphase, ⟨_, -, -, e⟩ | ⟨_, -, e⟩ | ⟨l, m, -, -, hm, passes, e⟩⟩ := s.readSections_cases b <;> rw [e]
  · exact h
  · exact h
  · exact h
  · exact SwitchList.Sound.applyImage (s := { s with loader := l }) (load (.inr hphase)).2.1 m s.clock.rate (imageOf_holds hm).1.1 passes

theorem SwitchList.soundKept : Kept fun s => s.LoadSound ∧ s.list.Sound where
  free s q h k l c u g := ⟨State.loadSoundKept.free s q h k l c u g.1, g.2⟩
  reset r q := ⟨State.loadSoundKept.reset r q, SwitchList.sound_heldAt r q⟩
  release s b h := ⟨State.loadSoundKept.release s b h.1, SwitchList.sound_heldAt (.ofFrsel b) s.pending⟩
  header s b h := ⟨State.loadSoundKept.header s b h.1, by obtain ⟨_, _, e⟩ := headerByte_frame s b; rw [e]; exact h.2⟩
  sections s b h := ⟨State.loadSoundKept.sections s b h.1, h.2.readSections h.1 b⟩
  counts s h := ⟨State.loadSoundKept.counts s h.1, h.2⟩
  examine s h := ⟨State.loadSoundKept.examine s h.1, by obtain ⟨_, _, _, _, _, _, e, _⟩ := examine_frame s; rw [e]; exact h.2⟩
  pass s b h := ⟨State.loadSoundKept.pass s b h.1, h.2.pass b⟩
  task s k h := ⟨State.loadSoundKept.task s k h.1, by rw [(frameTask_frame s k).list]; exact h.2⟩
  reload s h := ⟨State.loadSoundKept.reload s h.1, h.2⟩
  slot s f h := ⟨State.loadSoundKept.slot s f h.1, by rw [(slotEvent_frame s f).work.list]; exact h.2⟩
  byte s i b h := ⟨State.loadSoundKept.byte s i b h.1, by rw [(takeByte_frame s i b).work.list]; exact h.2⟩
  request r p b s ready h := ⟨State.loadSoundKept.request r p b s ready h.1, h.2.request r p b⟩

end Sys2Proof.Machine
end

section
/-! SUPPORT. The switch list stays in its order: late entries first, then by distance (R16, R22, R24, R31). -/

namespace Sys2Proof.Machine

/-! ### Distances -/

theorem FrameRate.day_bounds (r : FrameRate) : 2160000 ≤ r.day ∧ r.day ≤ 2592000 := by
  cases r <;> decide

/-- A time of day stands at a frame of the day (R3). -/
theorem TimeOfDay.frameOfDay_lt {t : TimeOfDay} {r : FrameRate} (h : t.valid r = true) : t.frameOfDay r < r.day := by
  simp only [TimeOfDay.valid, Bool.and_eq_true, decide_eq_true_eq] at h
  unfold TimeOfDay.frameOfDay FrameRate.day
  cases r <;> simp only [FrameRate.fps] at h ⊢ <;> omega

/-- The time of day one frame on stands one frame of the day on, or at the first (R10). -/
theorem TimeOfDay.advance_frameOfDay {t : TimeOfDay} {r : FrameRate} (h : t.valid r = true) :
    (t.advance r).frameOfDay r = if t.frameOfDay r + 1 = r.day then 0 else t.frameOfDay r + 1 := by
  simp only [TimeOfDay.valid, Bool.and_eq_true, decide_eq_true_eq] at h
  unfold TimeOfDay.advance FrameRate.day
  split_ifs <;> unfold TimeOfDay.frameOfDay at * <;> cases r <;> simp only [FrameRate.fps] at * <;> omega

/-- The distance of a due frame of the day (R19). -/
theorem distance_eq {due now day : Nat} (hdue : due < day) (hnow : now < day) :
    distance due now day = if now ≤ due then due - now else due + day - now := by
  unfold distance
  rw [Nat.mod_eq_of_lt hnow]
  split
  · rw [show due + day - now = due - now + day by omega, Nat.add_mod_right, Nat.mod_eq_of_lt (by omega)]
  · exact Nat.mod_eq_of_lt (by omega)

/-- One frame on, a distance of at least one is one less (R19). -/
theorem distance_next {due now next day : Nat} (hdue : due < day) (hnow : now < day)
    (hnext : next = if now + 1 = day then 0 else now + 1) (far : 1 ≤ distance due now day) :
    distance due next day + 1 = distance due now day := by
  have bound : next < day := by rw [hnext]; split <;> omega
  rw [distance_eq hdue hnow] at far ⊢
  rw [distance_eq hdue bound, hnext]
  split_ifs at far ⊢ <;> omega

/-- The timing of a distance at a day of many frames (R19). -/
theorem timing_scheduled {d day : Nat} : timing d day = .scheduled ↔ 1 ≤ d ∧ d ≤ day - 50 ∧ d ≤ day / 2 := by
  unfold timing
  split_ifs with late half
  · simp; omega
  · simp; omega
  · simp; omega

theorem timing_late {d day : Nat} : timing d day = .late ↔ d = 0 ∨ day - 50 < d := by
  unfold timing
  split_ifs with late half
  · simpa using late
  · simpa using late
  · simpa using late

/-! ### The order -/

/-- The first entry may stand before the second (R16). -/
def Entry.Before (now day : Nat) (x y : Entry) : Prop :=
  x.late = true ∨ (y.late = false ∧ distance x.due now day ≤ distance y.due now day)

/-- An entry is late, or within its reach (R16, R19). -/
def Entry.InReach (now day : Nat) (e : Entry) : Prop :=
  e.late = true ∨ (e.due < day ∧ 1 ≤ distance e.due now day ∧ distance e.due now day ≤ day / 2)

/-- A list in its order (R16). -/
structure EntriesOrdered (now day : Nat) (l : List Entry) : Prop where
  sorted : l.Pairwise (Entry.Before now day)
  reach : ∀ e ∈ l, e.InReach now day

theorem late_prefix {now day : Nat} {l : List Entry} (h : EntriesOrdered now day l) :
    ∃ late rest, l = late ++ rest ∧ (∀ e ∈ late, e.late = true) ∧ (∀ e ∈ rest, e.late = false) ∧
      (rest.map fun e => distance e.due now day).Pairwise (· ≤ ·) := by
  obtain ⟨sorted, -⟩ := h
  induction l with
  | nil => exact ⟨[], [], rfl, by simp, by simp, by simp⟩
  | cons e l ih =>
    obtain ⟨first, sorted⟩ := List.pairwise_cons.1 sorted
    cases he : e.late with
    | true =>
      obtain ⟨late, rest, rfl, hlate, hrest, order⟩ := ih sorted
      exact ⟨e :: late, rest, rfl, by simpa [he] using hlate, hrest, order⟩
    | false =>
      have far : ∀ x ∈ l, x.late = false ∧ distance e.due now day ≤ distance x.due now day := fun x hx =>
        (first x hx).resolve_left (by simp [he])
      refine ⟨[], e :: l, rfl, by simp, by simpa [he] using fun x hx => (far x hx).1, ?_⟩
      rw [List.pairwise_map, List.pairwise_cons]
      exact ⟨fun x hx => (far x hx).2, sorted.imp_of_mem fun {a b} ha _ hab =>
        (hab.resolve_left (by simp [(far a ha).1])).2⟩

theorem State.listOrdered_iff (s : State) : s.ListOrdered ↔ EntriesOrdered s.now s.day s.list.entries := by
  constructor
  · rintro ⟨late, rest, e, hlate, hrest, order⟩
    rw [e]
    refine ⟨List.pairwise_append.2 ⟨?_, ?_, fun x hx y hy => .inl (hlate x hx)⟩, fun x hx => ?_⟩
    · exact List.pairwise_of_forall_mem_list fun x hx y hy => .inl (hlate x hx)
    · exact (List.pairwise_map.1 order).imp_of_mem fun {a b} _ hb hab => .inr ⟨(hrest b hb).1, hab⟩
    · rcases List.mem_append.1 hx with hx | hx
      · exact .inl (hlate x hx)
      · exact .inr (hrest x hx).2
  · intro h
    obtain ⟨late, rest, e, hlate, hrest, order⟩ := late_prefix h
    refine ⟨late, rest, e, hlate, fun x hx => ⟨hrest x hx, ?_⟩, order⟩
    exact (h.reach x (by rw [e]; exact List.mem_append_right _ hx)).resolve_left (by simp [hrest x hx])

theorem EntriesOrdered.sublist {now day : Nat} {l m : List Entry} (h : EntriesOrdered now day l) (sub : m.Sublist l) :
    EntriesOrdered now day m :=
  ⟨h.sorted.sublist sub, fun e he => h.reach e (sub.subset he)⟩

/-- The order does not speak of cues. -/
theorem EntriesOrdered.uncued_iff {now day : Nat} {l : List Entry} :
    EntriesOrdered now day (l.map Entry.uncued) ↔ EntriesOrdered now day l := by
  constructor
  · rintro ⟨sorted, reach⟩
    exact ⟨(List.pairwise_map (f := Entry.uncued)).1 sorted, fun e he => reach e.uncued (List.mem_map_of_mem he)⟩
  · rintro ⟨sorted, reach⟩
    refine ⟨List.pairwise_map.2 sorted, fun e he => ?_⟩
    obtain ⟨x, hx, rfl⟩ := List.mem_map.1 he
    exact reach x hx

/-- Entries not late, each still within reach and in the same order at another frame of the day. -/
theorem EntriesOrdered.shift {now next day : Nat} {l : List Entry} (h : EntriesOrdered now day l) (scheduled : ∀ e ∈ l, e.late = false)
    (reach : ∀ e ∈ l, e.InReach next day)
    (order : ∀ x ∈ l, ∀ y ∈ l, distance x.due now day ≤ distance y.due now day → distance x.due next day ≤ distance y.due next day) :
    EntriesOrdered next day l := by
  refine ⟨h.sorted.imp_of_mem fun {x y} hx hy hxy => ?_, reach⟩
  obtain ⟨hl, hd⟩ := hxy.resolve_left (by simp [scheduled x hx])
  exact .inr ⟨hl, order x hx y hy hd⟩

/-! ### A frame event -/

/-- At an ordinary frame event, the entries that stay are those that were scheduled and are not yet due (R24). -/
theorem Entry.stays_iff (e : Entry) (now day : Nat) : e.fate false now day = .stays ↔ e.late = false ∧ e.due ≠ now := by
  unfold Entry.fate
  split_ifs with late due <;> simp_all

/-- At a frame event that takes a time load, the entries that stay are those that were scheduled and still are (R31). -/
theorem Entry.stays_loaded_iff (e : Entry) (now day : Nat) :
    e.fate true now day = .stays ↔ e.late = false ∧ timing (distance e.due now day) day = .scheduled := by
  unfold Entry.fate
  cases e.late
  · simp only [Bool.false_eq_true, if_false, if_true, true_and]
    split_ifs with due
    · simp [due, timing]
    · cases timing (distance e.due now day) day <;> simp
  · simp

/-- One frame on, what stays of a list is in order. -/
theorem EntriesOrdered.nextFrame {now next day : Nat} {l : List Entry} (h : EntriesOrdered now day l) (hnow : now < day)
    (hnext : next = if now + 1 = day then 0 else now + 1) :
    EntriesOrdered next day (l.filter fun e => decide (e.fate false next day = .stays)) := by
  have bound : next < day := by rw [hnext]; split <;> omega
  have stay : ∀ e ∈ l.filter fun e => decide (e.fate false next day = .stays), e ∈ l ∧ e.late = false ∧ e.due ≠ next := fun e he => by
    simpa [Entry.stays_iff] using he
  have closer : ∀ e ∈ l.filter fun e => decide (e.fate false next day = .stays),
      e.due < day ∧ 1 ≤ distance e.due next day ∧ distance e.due next day + 1 = distance e.due now day ∧
        distance e.due now day ≤ day / 2 := fun e he => by
    obtain ⟨mem, late, due⟩ := stay e he
    obtain ⟨hdue, one, half⟩ := (h.reach e mem).resolve_left (by simp [late])
    refine ⟨hdue, ?_, distance_next hdue hnow hnext one, half⟩
    rw [distance_eq hdue bound]
    split <;> omega
  refine (h.sublist List.filter_sublist).shift (fun e he => (stay e he).2.1) (fun e he => ?_) fun x hx y hy hxy => ?_
  · obtain ⟨hdue, one, step, half⟩ := closer e he
    exact .inr ⟨hdue, one, by omega⟩
  · obtain ⟨-, -, xstep, -⟩ := closer x hx
    obtain ⟨-, -, ystep, -⟩ := closer y hy
    omega

/-- At any other frame of the day, what stays of a list is in order: the distances of all entries move by the same number of frames, and
one that would fall behind another's is out of reach. -/
theorem EntriesOrdered.reload {now next day : Nat} {l : List Entry} (h : EntriesOrdered now day l) (hnow : now < day) (hnext : next < day) :
    EntriesOrdered next day (l.filter fun e => decide (e.fate true next day = .stays)) := by
  have stay : ∀ e ∈ l.filter fun e => decide (e.fate true next day = .stays),
      e.late = false ∧ (e.due < day ∧ 1 ≤ distance e.due now day ∧ distance e.due now day ≤ day / 2) ∧
        1 ≤ distance e.due next day ∧ distance e.due next day ≤ day / 2 := fun e he => by
    rw [List.mem_filter, decide_eq_true_eq, Entry.stays_loaded_iff, timing_scheduled] at he
    obtain ⟨mem, late, one, -, half⟩ := he
    exact ⟨late, (h.reach e mem).resolve_left (by simp [late]), one, half⟩
  refine (h.sublist List.filter_sublist).shift (fun e he => (stay e he).1) (fun e he => ?_) fun x hx y hy hxy => ?_
  · obtain ⟨-, ⟨hdue, -⟩, one, half⟩ := stay e he
    exact .inr ⟨hdue, one, half⟩
  · obtain ⟨-, ⟨xdue, -, xhalf⟩, -, xhalf'⟩ := stay x hx
    obtain ⟨-, ⟨ydue, yone, yhalf⟩, yone', yhalf'⟩ := stay y hy
    simp only [distance_eq xdue hnow, distance_eq xdue hnext, distance_eq ydue hnow, distance_eq ydue hnext] at *
    split_ifs at * <;> omega

/-- The list after a frame event: a pass at the new time of day (R10, R24, R31). -/
theorem frameEvent_list (s : State) (o : FrameOrder) : ∃ u : State, u.list = s.list ∧ u.clock = s.clockFrame.clock ∧
    (s.frameEvent o).list = (u.pass s.clock.load.isSome).list := by
  have tasks : ∀ (s : State) (l : List FrameTask), OnlyWork s (s.frameTasks l) := fun s l => (frameTasks_frame s l)
  have examine : ∀ s : State, OnlyWork s s.examine := fun s => examine_frame s
  have clock : s.clockFrame.list = s.list := by
    unfold State.clockFrame
    split
    · exact (raiseAll_frame _ _).work.list
    · rfl
  unfold State.frameEvent
  dsimp only
  rw [(tasks _ _).list, (tasks _ _).list]
  cases o.examineFirst
  · refine ⟨s.clockFrame.counts.frameTasks o.first, (tasks _ _).list.trans clock, (tasks _ _).clock, ?_⟩
    simp only [Bool.false_eq_true, if_false]
    rw [(examine _).list, (tasks _ _).list]
  · refine ⟨(s.clockFrame.counts.frameTasks o.first).examine.frameTasks o.between, ?_, ?_, rfl⟩
    · exact (tasks _ _).list.trans ((examine _).list.trans ((tasks _ _).list.trans clock))
    · exact (tasks _ _).clock.trans ((examine _).clock.trans (tasks _ _).clock)

/-- A state's list is in order. -/
structure State.InOrder (s : State) : Prop where
  holds : EntriesOrdered s.now s.day s.list.entries

theorem State.InOrder.same {s t : State} (h : s.InOrder) (list : t.list = s.list) (tod : t.clock.tod = s.clock.tod)
    (rate : t.clock.rate = s.clock.rate) : t.InOrder :=
  ⟨by have := h.holds; unfold State.now State.day at *; rw [list, tod, rate]; exact this⟩

theorem State.InOrder.work {s t : State} (h : s.InOrder) (o : OnlyWork s t) : t.InOrder :=
  h.same o.list (by rw [o.clock]) (by rw [o.clock])

theorem State.InOrder.frameEvent {s : State} (h : s.InOrder) (tod : s.clock.tod.valid s.clock.rate = true)
    (load : ∀ t, s.clock.load = some t → t.valid s.clock.rate = true) (o : FrameOrder) : (s.frameEvent o).InOrder := by
  obtain ⟨u, list, clock, e⟩ := frameEvent_list s o
  refine ⟨?_⟩
  have now : (s.frameEvent o).now = u.now := by unfold State.now; rw [frameEvent_clock, clock]
  have day : (s.frameEvent o).day = u.day := by unfold State.day; rw [frameEvent_clock, clock]
  rw [now, day, e, State.pass_list, ← EntriesOrdered.uncued_iff, passEntries_uncued, EntriesOrdered.uncued_iff, list]
  have same : u.day = s.day := by unfold State.day; rw [clock, State.clockFrame_clock]
  have held := h.holds
  unfold State.day at same
  unfold State.now State.day at *
  rw [clock, State.clockFrame_clock]
  cases hl : s.clock.load with
  | none => exact held.nextFrame (TimeOfDay.frameOfDay_lt tod) (TimeOfDay.advance_frameOfDay tod)
  | some t => exact held.reload (TimeOfDay.frameOfDay_lt tod) (TimeOfDay.frameOfDay_lt (load t hl))

/-! ### POST ENTRY -/

/-- An entry posted goes to its place in the order (R16, R22). -/
theorem EntriesOrdered.posted {now day : Nat} {l : List Entry} (h : EntriesOrdered now day l) {e : Entry} (reach : e.InReach now day) :
    EntriesOrdered now day ((placeOf l e now day).1 ++ [e] ++ (placeOf l e now day).2) := by
  have parts := placeOf_append l e now day
  have first : ∀ x ∈ (placeOf l e now day).1, x.Before now day e := fun x hx => by
    have := List.mem_takeWhile_imp hx
    simp only [Bool.or_eq_true, Bool.and_eq_true, Bool.not_eq_true', decide_eq_true_eq] at this
    exact this
  have sorted := h.sorted
  rw [← parts, List.pairwise_append] at sorted
  obtain ⟨sorted1, sorted2, cross⟩ := sorted
  have last : ∀ y ∈ (placeOf l e now day).2, e.Before now day y := fun y hy => by
    cases hr : (placeOf l e now day).2 with
    | nil => rw [hr] at hy; cases hy
    | cons z r =>
      have head := List.head?_dropWhile_not
        (fun x : Entry => x.late || (!e.late && decide (distance x.due now day ≤ distance e.due now day))) l
      rw [show List.dropWhile _ l = z :: r from hr] at head
      simp only [List.head?_cons, Bool.or_eq_false_iff, Bool.and_eq_false_iff, Bool.not_eq_false', decide_eq_false_iff_not] at head
      obtain ⟨zlate, far⟩ := head
      rw [hr] at hy sorted2
      have after : y.late = false ∧ distance z.due now day ≤ distance y.due now day := by
        rcases List.mem_cons.1 hy with rfl | hy
        · exact ⟨zlate, le_rfl⟩
        · exact ((List.pairwise_cons.1 sorted2).1 y hy).resolve_left (by simp [zlate])
      rcases far with late | far
      · exact .inl late
      · exact .inr ⟨after.1, by omega⟩
  refine ⟨?_, fun x hx => ?_⟩
  · rw [List.append_assoc, List.pairwise_append]
    refine ⟨sorted1, ?_, fun x hx y hy => ?_⟩
    · exact List.pairwise_cons.2 ⟨last, sorted2⟩
    · rcases List.mem_cons.1 hy with rfl | hy
      · exact first x hx
      · exact cross x hx y hy
  · rw [List.append_assoc, List.mem_append, List.singleton_append, List.mem_cons] at hx
    rcases hx with hx | rfl | hx
    · exact h.reach x (by rw [← parts]; exact List.mem_append_left _ hx)
    · exact reach
    · exact h.reach x (by rw [← parts]; exact List.mem_append_right _ hx)

theorem State.InOrder.request (r : Request) (p : PortNo) (b : List Byte) {s : State} (h : s.InOrder) : (perform r p b s).1.InOrder := by
  cases r
  case postEntry =>
    obtain e | ⟨e, he, -, -, past, eq⟩ := reqPostEntry_cases p b s
    · rw [perform, e]; exact h
    · rw [perform, eq]
      obtain ⟨-, due⟩ := postedEntry_owner he
      refine ⟨h.holds.posted ?_⟩
      cases ht : timing (distance e.due s.now s.day) s.day with
      | past => exact absurd ht past
      | late => exact .inl rfl
      | scheduled =>
        obtain ⟨one, -, half⟩ := timing_scheduled.1 ht
        exact .inr ⟨due, one, half⟩
  case cancelEntry =>
    unfold perform reqCancelEntry
    dsimp only
    split
    · rw [accept_state]
      exact ⟨h.holds.sublist List.eraseP_sublist⟩
    · exact h
  case clearEntries =>
    unfold perform reqClearEntries
    rw [accept_state]
    exact ⟨h.holds.sublist List.filter_sublist⟩
  case setTime =>
    unfold perform reqSetTime
    dsimp only
    split
    · rw [accept_state]; exact h.same rfl rfl rfl
    · exact h
  all_goals exact h.work (perform_work _ p b s (by decide))

/-! ### Every step -/

/-- A sound clock and a list in order. -/
def State.OnTime (s : State) : Prop := s.clock.Sound ∧ s.InOrder

theorem State.inOrder_requests : KeptByRequests fun s => s.OnTime where
  ports _ _ h := ⟨h.1, ⟨h.2.holds⟩⟩
  request r p b s ready h := ⟨Clock.soundKeptByRequests.request r p b s ready h.1, h.2.request r p b⟩

/-- A pulse's frame event, or what it makes of the clock alone, leaves the list in order. -/
theorem State.InOrder.judgePulse {s : State} (h : s.InOrder) (clock : s.clock.Sound) (o : FrameOrder) : (s.judgePulse o).InOrder := by
  obtain ⟨tod, load, -⟩ := clock
  have locked : ∀ t : State, t.InOrder → t.lockReference.InOrder := fun t ht => by
    refine ht.same ?_ (by rw [State.lockReference_clock]) (by rw [State.lockReference_clock])
    unfold State.lockReference
    dsimp only
    split
    · exact (raiseAll_frame _ _).work.list
    · rfl
  have zero : (s.reloadTimer.setRun 0).InOrder := h.same rfl rfl rfl
  unfold State.judgePulse
  split_ifs
  · refine (locked _ zero).frameEvent ?_ ?_ o
    · simpa [State.lockReference_clock, State.reloadTimer, State.setRun] using tod
    · simpa [State.lockReference_clock, State.reloadTimer, State.setRun] using load
  · exact (locked _ zero).same rfl rfl rfl
  · exact h.same rfl rfl rfl
  · refine (locked _ (zero.work (raiseAll_frame _ _).work)).frameEvent ?_ ?_ o
    · simpa [State.lockReference_clock, State.reloadTimer, State.setRun, (raiseAll_frame _ _).clock] using tod
    · simpa [State.lockReference_clock, State.reloadTimer, State.setRun, (raiseAll_frame _ _).clock] using load

theorem State.InOrder.expireLate {s : State} (h : s.InOrder) : s.expireLate.InOrder := by
  refine h.same ?_ (by rw [State.expireLate_clock]) (by rw [State.expireLate_clock])
  unfold State.expireLate
  dsimp only
  split
  · exact (raiseAll_frame _ _).work.list
  · rfl

theorem State.InOrder.onlyPort {s t : State} (h : s.InOrder) {p : PortNo} (o : OnlyPort s t p) : t.InOrder := by
  obtain ⟨_, rfl⟩ := o
  exact h.same rfl rfl rfl

theorem State.InOrder.takeTimed {s : State} (h : s.InOrder) (clock : s.clock.Sound) (o : FrameOrder) (e : TimedEvent) :
    (s.takeTimed o e).InOrder := by
  cases e
  case windowEnd f p => exact h.work (endWindows_frame s f p).work
  case forcedSwitch f p => exact h.work (forceSwitch_frame s f p).stacks.work
  case dueMaking f c => exact h.work (makeDue_frame s f c).work
  case lineSpeed p => exact h.onlyPort (changeSpeed_port s p)
  case lateExpiry => exact h.expireLate
  case slot f => exact h.work (slotEvent_frame s f).work
  case byteGap p => exact h.onlyPort (gapExpired_port s p)
  case underflow =>
    obtain ⟨tod, load, -⟩ := clock
    unfold State.takeTimed State.underflow
    dsimp only
    refine State.InOrder.frameEvent ?_ ?_ ?_ o
    · exact h.same rfl rfl rfl
    · exact tod
    · exact load

theorem State.inOrder_heldAt (r : FrameRate) (q : List Instr) : (State.heldAt r q).InOrder :=
  ⟨⟨by simp [State.heldAt, SwitchList.reset], by simp [State.heldAt, SwitchList.reset]⟩⟩

theorem State.inOrder_readSections {s : State} (h : s.InOrder) (b : List Byte) : (s.readSections b).InOrder := by
  obtain e | ⟨-, ⟨_, -, -, e⟩ | ⟨_, -, e⟩ | ⟨l, m, -, -, -, -, e⟩⟩ := s.readSections_cases b <;> rw [e]
  · exact h
  · exact ⟨h.holds⟩
  · exact ⟨h.holds⟩
  · obtain ⟨_, _, _, _, _, _, _, e⟩ := applyImage_frame { s with loader := l } m
    rw [e]
    exact ⟨h.holds⟩

theorem State.onTimePreserved : Preserved State.OnTime where
  queue _ _ h := ⟨h.1, ⟨h.2.holds⟩⟩
  reset r q := ⟨Clock.soundPreserved.reset r q, State.inOrder_heldAt r q⟩
  release s b := ⟨Clock.soundPreserved.release s b, ⟨(State.inOrder_heldAt (.ofFrsel b) s.pending).holds⟩⟩
  header s b h := ⟨Clock.soundPreserved.header s b h.1, by obtain ⟨_, _, e⟩ := headerByte_frame s b; rw [e]; exact ⟨h.2.holds⟩⟩
  sections s b h := ⟨Clock.soundPreserved.sections s b h.1, State.inOrder_readSections h.2 b⟩
  time s d quiet h := ⟨Clock.soundPreserved.time s d quiet h.1, h.2.same rfl rfl rfl⟩
  timed s o e h := ⟨Clock.soundPreserved.timed s o e h.1, h.2.takeTimed h.1 o e⟩
  pulse s o h := by
    refine ⟨Clock.soundPreserved.pulse s o h.1, ?_⟩
    unfold State.pulse
    split
    · exact h.2.expireLate.judgePulse (Clock.sound_expireLate s h.1) o
    · exact h.2.judgePulse h.1 o
  byte s i b h := ⟨Clock.soundPreserved.byte s i b h.1, h.2.work (takeByte_frame s i b).work⟩
  received := State.inOrder_requests.received
  accepted := State.inOrder_requests.accepted
  replied := State.inOrder_requests.replied

/-- Settles O56: requests and passes keep the list within its places, and each frame event moves the distances of all its entries
together. -/
theorem stepKeepsListSound : Obligations.StepKeepsListSound := by
  unfold Obligations.StepKeepsListSound
  intro s t load list e
  refine ⟨SwitchList.soundKept.step s t ⟨load, list⟩ e, fun clock order => ?_⟩
  exact t.listOrdered_iff.2 (State.onTimePreserved.step ⟨clock, ⟨s.listOrdered_iff.1 order⟩⟩ e).2.holds

end Sys2Proof.Machine
end

section
/-! SUPPORT. Reset, the release of RESETN, the header of the image, and the steps of a part that is held or idle. -/

namespace Sys2Proof.Machine

/-- Settles O10: a step on a queue that is not empty is that case of its definition. -/
theorem stepRunsFrontCommand : Obligations.StepRunsFrontCommand := fun _ _ _ => rfl

/-! ### What each command does, but those of requests -/

section
variable (s : State)

theorem exec_imageHeaderRead (format : Byte) (length : Vector Byte 2) (check : Vector Byte 4) :
    exec (.imageHeaderRead format length check) s = s.act fun s => s.readHeader ([format] ++ length.toList ++ check.toList) := rfl

theorem exec_imageReadComplete (bytes : List Byte) : exec (.imageReadComplete bytes) s = s.act fun s => s.readSections bytes := rfl

theorem exec_lineSpeedChange (p : PortNo) : exec (.lineSpeedChange p) s = s.actPiece (.lineSpeed p) := rfl

theorem exec_flywheelUnderflow (o : FrameOrder) : exec (.flywheelUnderflow o) s = s.act fun s => s.runTimed .underflow o := rfl

theorem exec_lateWindowExpiry : exec .lateWindowExpiry s = s.act fun s => s.runTimed .lateExpiry FrameOrder.plain := rfl

theorem exec_houseReferencePulse (o : FrameOrder) : exec (.houseReferencePulse o) s = s.act fun s => s.pulse o := rfl

theorem exec_windowEnd (f : FeedNo) (p : PosNo) : exec (.windowEnd f p) s = s.actPiece (.windowEnd f p) := rfl

theorem exec_forcedSwitch (f : FeedNo) (p : PosNo) : exec (.forcedSwitch f p) s = s.actPiece (.forcedSwitch f p) := rfl

theorem exec_carouselDueMaking (f : FeedNo) (c : TableNo) : exec (.carouselDueMaking f c) s = s.actPiece (.dueMaking f c) := rfl

theorem exec_packetArrival (i : SrcNo) (b : Byte) : exec (.packetArrival i b) s = s.act fun s => s.takeByte i b := rfl

theorem exec_sourcePortByte (i : SrcNo) (b : Byte) : exec (.sourcePortByte i b) s = s.act fun s => s.takeByte i b := rfl

theorem exec_slotEvent (f : FeedNo) : exec (.slotEvent f) s = s.act fun s => s.runTimed (.slot f) FrameOrder.plain := rfl

theorem exec_controlFrame (p : PortNo) (b : Byte) : exec (.controlFrame p b) s = s.act fun s => s.receive p b false := rfl

theorem exec_controlPortByte (p : PortNo) (b : Byte) (framing : Bool) :
    exec (.controlPortByte p b framing) s = s.act fun s => s.receive p b framing := rfl

theorem exec_byteGapExpiry (p : PortNo) : exec (.byteGapExpiry p) s = s.act fun s => s.runTimed (.byteGap p) FrameOrder.plain := rfl

theorem exec_replySent (p : PortNo) : exec (.replySent p) s = s.act fun s => s.replyDone p := rfl

theorem exec_unknownRequest (p : PortNo) (sequence code : Byte) (body : List Byte) :
    exec (.unknownRequest p sequence code body) s = s.act fun s => s.acceptFrame p ⟨sequence, code, body⟩ := rfl

end

/-- Every command is the two of RESETN, the taking of a piece, or an action on the state in which the pieces are taken. -/
theorem exec_forms (c : Instr) : (∃ b, c = .resetAssert b) ∨ (∃ b, c = .resetRelease b) ∨ (∃ k, ∀ s, exec c s = s.actPiece k) ∨
    ∃ f, ∀ s, exec c s = s.act f := by
  cases c
  case resetAssert b => exact .inl ⟨b, rfl⟩
  case resetRelease b => exact .inr (.inl ⟨b, rfl⟩)
  case windowEnd f p => exact .inr (.inr (.inl ⟨.windowEnd f p, fun _ => rfl⟩))
  case forcedSwitch f p => exact .inr (.inr (.inl ⟨.forcedSwitch f p, fun _ => rfl⟩))
  case carouselDueMaking f c => exact .inr (.inr (.inl ⟨.dueMaking f c, fun _ => rfl⟩))
  case lineSpeedChange p => exact .inr (.inr (.inl ⟨.lineSpeed p, fun _ => rfl⟩))
  all_goals exact .inr (.inr (.inr ⟨_, fun s => by unfold exec; rfl⟩))

/-- Settles O3: the commands of a held part act on nothing. -/
theorem heldPartIgnoresCommands : Obligations.HeldPartIgnoresCommands := by
  unfold Obligations.HeldPartIgnoresCommands
  refine fun s held => ⟨fun c assert release => ?_, fun empty => ?_⟩
  · obtain ⟨b, e⟩ | ⟨b, e⟩ | ⟨k, e⟩ | ⟨f, e⟩ := exec_forms c
    · exact absurd e (assert b)
    · exact absurd e (release b)
    · exact (e s).trans (by simp [State.actPiece, held])
    · exact (e s).trans (by simp [State.act, held])
  · simp [step, empty, State.idle, held]

/-- Settles O12: where no event is due now, one tick passes. -/
theorem idleStepPassesOneTick : Obligations.IdleStepPassesOneTick := by
  unfold Obligations.IdleStepPassesOneTick
  intro s held empty quiet
  have due : ∀ e ∈ allTimed, ∀ n, s.dueIn e = some n → 1 ≤ n := fun e he n hn => by
    simpa [hn] using List.all_eq_true.1 quiet e he
  have none' : (allTimed.find? fun e => s.dueIn e == some 0) = none := by
    rw [List.find?_eq_none]
    intro e he zero
    exact absurd (due e he 0 (by simpa using zero)) (by decide)
  have under : 1 ≤ s.clock.untilUnderflow := due .underflow (by simp [allTimed]) _ rfl
  have later : s.clock.atUnderflow = false ∧ 1 ≤ s.clock.timer := by
    unfold Clock.untilUnderflow at under
    split at under
    · omega
    · rename_i taken
      exact ⟨by simpa using taken, under⟩
  have one : s.advance 1 = { s with clock := { s.clock with
      tick := s.clock.tick + 1
      timer := if s.clock.timer = 1 then 1 else s.clock.timer - 1
      atUnderflow := decide (s.clock.timer = 1) } } := by
    unfold State.advance
    rw [later.1, Bool.false_or]
    have timer : s.clock.timer - min 1 (s.clock.timer - 1) = if s.clock.timer = 1 then 1 else s.clock.timer - 1 := by
      split <;> omega
    have last : decide (0 < 1 ∧ s.clock.timer ≤ 1) = decide (s.clock.timer = 1) := decide_eq_decide.2 (by omega)
    rw [timer, last]
    rfl
  simp only [step, empty, State.idle, held, none', one, Bool.false_eq_true, if_false]

/-! ### Reset -/

section
variable (r : FrameRate) (q : List Instr)

@[simp] theorem State.heldAt_pos (f : FeedNo) (p : PosNo) : (State.heldAt r q).pos f p = .reset := by
  simp [State.heldAt, State.pos]

@[simp] theorem State.heldAt_line (l : LineNo) : (State.heldAt r q).line l = .reset := by simp [State.heldAt, State.line]

@[simp] theorem State.heldAt_src (i : SrcNo) : (State.heldAt r q).src i = .reset := by simp [State.heldAt, State.src]

@[simp] theorem State.heldAt_feed (f : FeedNo) : (State.heldAt r q).feed f = .reset r := by simp [State.heldAt, State.feed]

@[simp] theorem State.heldAt_port (p : PortNo) : (State.heldAt r q).port p = .reset (if p = 0 then .master else .guest) := by
  have four : ∀ p : PortNo, p = 0 ∨ p = 1 ∨ p = 2 ∨ p = 3 := by decide
  rcases four p with rfl | rfl | rfl | rfl <;> rfl

end

/-- Settles O1: block by block, the reset values. -/
theorem resetAssertHoldsEveryBlock : Obligations.ResetAssertHoldsEveryBlock := by
  unfold Obligations.ResetAssertHoldsEveryBlock
  intro s frsel
  refine ⟨State.heldAt (.ofFrsel frsel) s.pending, rfl, rfl, rfl, ?clock, rfl, rfl, ?quotas, ?pos, ?line, ?src, rfl, ?feed, ?port, rfl⟩
  case clock => cases frsel <;> rfl
  case quotas => exact (by decide : ∀ p : PortNo, tget SwitchList.reset.quotas p = if p = 0 then 32 else 16)
  case pos => exact fun f p => State.heldAt_pos _ _ f p
  case line => exact fun l => State.heldAt_line _ _ l
  case src => exact fun i => ⟨.reset, State.heldAt_src _ _ i⟩
  case feed => exact fun f => ⟨.reset (.ofFrsel frsel), by rw [State.heldAt_feed]; cases frsel <;> rfl⟩
  case port =>
    intro p
    rw [State.heldAt_port]
    split <;> rfl

/-- Settles O2: the release of a held part. -/
theorem resetReleaseStartsLoading : Obligations.ResetReleaseStartsLoading := by
  unfold Obligations.ResetReleaseStartsLoading
  intro s frsel held
  have release : exec (.resetRelease frsel) s = .next (s.release frsel) := by
    simp [exec, execResetRelease, held]
  refine ⟨State.heldAt (.ofFrsel frsel) s.pending, rfl, release, fun t ht => ?_⟩
  rw [release] at ht
  injection ht with ht
  subst ht
  exact ⟨rfl, rfl⟩

/-- Settles O60: the reset state meets each invariant. -/
theorem resetIsSound : Obligations.ResetIsSound := by
  unfold Obligations.ResetIsSound
  have feeds := State.feedsSound_heldAt True .fps25 []
  have lags : ∀ i, State.reset.lags i = [] := by decide
  refine ⟨Clock.sound_reset _, State.loadSound_heldAt _ _, SwitchList.sound_heldAt _ _, fun f => (feeds.holds f).1, fun f p => ⟨?_, ?_⟩,
    State.sourcesSound_heldAt _ _, fun i h => absurd (lags i) h, State.reset.listOrdered_iff.2 (State.inOrder_heldAt _ _).holds,
    fun f => (feeds.holds f).2 trivial, (State.idsDistinct_heldAt _ _).holds, fun f p => ?_, ?_, State.portsSound_heldAt _ _, ?_⟩
  · unfold State.reset
    rw [State.heldAt_pos]
    exact ⟨by decide, List.Pairwise.nil⟩
  · unfold State.reset
    rw [State.heldAt_pos, State.heldAt_feed]
    rfl
  · unfold State.reset
    rw [State.heldAt_pos]
    have none' : ¬State.reset.markDue none none := by
      rintro ⟨_, _, h, -⟩
      cases h
    exact ⟨⟨fun h => (by cases h), fun h => absurd h none'⟩, fun e he => by cases he⟩
  · exact Scan.sound_default
  · exact State.reset.tagsDistinct_iff.2 (State.stacked_heldAt _ _)

/-! ### The header of the image -/

/-- After the end of the read, no header byte is taken. -/
theorem State.readHeader_ended (s : State) (b : List Byte) (h : s.loader.phase ≠ .header) : s.readHeader b = s := by
  unfold State.readHeader
  induction b with
  | nil => rfl
  | cons a b ih => rw [List.foldl_cons, State.headerByte, if_pos h, ih]

theorem toNat_append_byte {w : Nat} (x : BitVec w) (y : Byte) : (x ++ y).toNat = x.toNat * 256 + y.toNat := by
  rw [BitVec.toNat_append, ← Nat.shiftLeft_add_eq_or_of_lt y.isLt, Nat.shiftLeft_eq]

theorem Vector.toList_two {α : Type} (v : Vector α 2) : v.toList = [tget v 0, tget v 1] :=
  List.ext_getElem (by simp) fun n h1 h2 => by
    have : n = 0 ∨ n = 1 := by simp at h2; omega
    rcases this with rfl | rfl <;> simp [tget]

theorem Vector.toList_four {α : Type} (v : Vector α 4) : v.toList = [tget v 0, tget v 1, tget v 2, tget v 3] :=
  List.ext_getElem (by simp) fun n h1 h2 => by
    have : n = 0 ∨ n = 1 ∨ n = 2 ∨ n = 3 := by simp at h2; omega
    rcases this with rfl | rfl | rfl | rfl <;> simp [tget]

/-- The state with the given bytes of the header read. -/
def State.withHeader (s : State) (h : List Byte) : State := { s with loader := { s.loader with header := h } }

/-- A header byte while the header is read (R164). -/
theorem State.headerByte_reading {s : State} (h : s.loader.phase = .header) (l : List Byte) (b : Byte) :
    (s.withHeader l).headerByte b =
      if l.length = 0 ∧ b ≠ 1 then (s.withHeader (l ++ [b])).defaulted
      else if l.length = 2 ∧ (natAt (l ++ [b]) 1 2 < 1078 ∨ 24576 < natAt (l ++ [b]) 1 2) then (s.withHeader (l ++ [b])).defaulted
      else if l.length < 6 then s.withHeader (l ++ [b])
      else { s with loader := { s.loader with
        header := l ++ [b], phase := .sections, store := [], crc := 0xFFFFFFFF, check := BitVec.ofNat 32 (natAt (l ++ [b]) 3 4)
        remaining := natAt (l ++ [b]) 1 2 } } := by
  have one : (l ++ [b]).length = 1 ↔ l.length = 0 := by simp
  have three : (l ++ [b]).length = 3 ↔ l.length = 2 := by simp
  have seven : (l ++ [b]).length < 7 ↔ l.length < 6 := by simp; omega
  unfold State.headerByte
  rw [if_neg (not_not_intro (show (s.withHeader l).loader.phase = .header from h))]
  simp only [← one, ← three, ← seven]
  rfl

/-- A byte of the header but the last, where the header does not fail at it (R164). -/
theorem State.headerByte_collects {s : State} (h : s.loader.phase = .header) (l : List Byte) (b : Byte)
    (format : l.length = 0 → b = 1) (length : l.length = 2 → 1078 ≤ natAt (l ++ [b]) 1 2 ∧ natAt (l ++ [b]) 1 2 ≤ 24576)
    (short : l.length < 6) : (s.withHeader l).headerByte b = s.withHeader (l ++ [b]) := by
  rw [State.headerByte_reading h, if_neg (fun k => k.2 (format k.1)), if_neg (fun k => by have := length k.1; have := k.2; omega),
    if_pos short]

/-- A byte at which the header fails ends the read (R164, R169). -/
theorem State.headerByte_fails {s : State} (h : s.loader.phase = .header) (l : List Byte) (b : Byte)
    (fails : l.length = 0 ∧ b ≠ 1 ∨ l.length = 2 ∧ (natAt (l ++ [b]) 1 2 < 1078 ∨ 24576 < natAt (l ++ [b]) 1 2)) :
    (s.withHeader l).headerByte b = (s.withHeader (l ++ [b])).defaulted := by
  rw [State.headerByte_reading h]
  rcases fails with format | length
  · rw [if_pos format]
  · rw [if_neg (by omega), if_pos length]

/-- A header that names a format other than 1 ends at its first byte (R164, R169). -/
theorem State.readHeader_format {s : State} (h : s.loader.phase = .header) (format : Byte) (rest : List Byte) (other : format ≠ 1) :
    (s.withHeader []).readHeader (format :: rest) = (s.withHeader [format]).defaulted := by
  unfold State.readHeader
  rw [List.foldl_cons, State.headerByte_fails h [] format (.inl ⟨rfl, other⟩)]
  exact State.readHeader_ended _ _ (by simp [State.defaulted])

/-- Where the format is 1, two bytes are collected before a length is known. -/
theorem State.readHeader_two {s : State} (h : s.loader.phase = .header) (high : Byte) (rest : List Byte) :
    (s.withHeader []).readHeader (1 :: high :: rest) = (s.withHeader [1, high]).readHeader rest := by
  unfold State.readHeader
  rw [List.foldl_cons, State.headerByte_collects h [] 1 (fun _ => rfl) (by simp) (by simp), List.foldl_cons,
    State.headerByte_collects h _ _ (by simp) (by simp) (by simp)]
  rfl

/-- A length out of range ends the header at its last byte (R164, R169). -/
theorem State.readHeader_length {s : State} (h : s.loader.phase = .header) (high low : Byte) (rest : List Byte)
    (out : natAt [1, high, low] 1 2 < 1078 ∨ 24576 < natAt [1, high, low] 1 2) :
    (s.withHeader []).readHeader (1 :: high :: low :: rest) = (s.withHeader [1, high, low]).defaulted := by
  rw [State.readHeader_two h]
  unfold State.readHeader
  rw [List.foldl_cons, State.headerByte_fails h [1, high] low (.inr ⟨rfl, out⟩)]
  exact State.readHeader_ended _ _ (by simp [State.defaulted])

/-- The number of four bytes is their word. -/
theorem ofNat_natAt_four (b : List Byte) (i : Nat) (w x y z : Byte) (h : (b.drop i).take 4 = [w, x, y, z]) :
    BitVec.ofNat 32 (natAt b i 4) = w ++ x ++ y ++ z := by
  refine BitVec.eq_of_toNat_eq ?_
  have := (w ++ x ++ y ++ z).isLt
  rw [BitVec.toNat_ofNat, show natAt b i 4 = ((w.toNat * 256 + x.toNat) * 256 + y.toNat) * 256 + z.toNat by simp [natAt, h]]
  simp only [toNat_append_byte] at this ⊢
  omega

/-- A whole header starts the read of the sections (R164). -/
theorem State.readHeader_whole {s : State} (h : s.loader.phase = .header) (high low w x y z : Byte)
    (within : 1078 ≤ natAt [1, high, low] 1 2 ∧ natAt [1, high, low] 1 2 ≤ 24576) :
    (s.withHeader []).readHeader [1, high, low, w, x, y, z] =
      { s with loader := ⟨s.loader.state, .sections, [1, high, low, w, x, y, z], [], 0xFFFFFFFF, w ++ x ++ y ++ z,
        natAt [1, high, low] 1 2⟩ } := by
  rw [State.readHeader_two h]
  unfold State.readHeader
  rw [List.foldl_cons, State.headerByte_collects h [1, high] low (by simp) (fun _ => within) (by simp), List.foldl_cons,
    State.headerByte_collects h _ w (by simp) (by simp) (by simp), List.foldl_cons,
    State.headerByte_collects h _ x (by simp) (by simp) (by simp), List.foldl_cons,
    State.headerByte_collects h _ y (by simp) (by simp) (by simp), List.foldl_cons, List.foldl_nil,
    State.headerByte_reading h, if_neg (by simp), if_neg (by simp), if_neg (by simp)]
  simp only [List.cons_append, List.nil_append]
  rw [ofNat_natAt_four _ 3 w x y z rfl]
  rfl

/-- Settles O4: the header's bytes taken one by one. -/
theorem imageHeaderJudged : Obligations.ImageHeaderJudged := by
  unfold Obligations.ImageHeaderJudged
  intro s format length check awake phase empty
  dsimp only
  have start : s.withHeader [] = s := by unfold State.withHeader; rw [← empty]
  have run : exec (.imageHeaderRead format length check) s = .next ((s.withHeader []).readHeader
      [format, tget length 0, tget length 1, tget check 0, tget check 1, tget check 2, tget check 3]) := by
    rw [start, exec_imageHeaderRead, s.act_awake _ awake, Vector.toList_two, Vector.toList_four]
    rfl
  have size : natAt [1, tget length 0, tget length 1] 1 2 = (tget length 0).toNat * 256 + (tget length 1).toNat := natAt_two _ 1 _ _ rfl
  rw [run, Vector.toList_two, Vector.toList_four, ← size]
  by_cases one : format = 1
  · subst one
    by_cases within : 1078 ≤ natAt [1, tget length 0, tget length 1] 1 2 ∧ natAt [1, tget length 0, tget length 1] 1 2 ≤ 24576
    · rw [State.readHeader_whole phase _ _ _ _ _ _ within]
      refine ⟨fun _ _ _ => rfl, fun other => absurd rfl other, fun _ out => by omega, fun t ht => ?_⟩
      injection ht with ht
      subst ht
      simp only [Loader.csLow, true_and]
      exact ⟨by simpa using within, by simp⟩
    · rw [State.readHeader_length phase _ _ _ (by omega)]
      refine ⟨fun _ low high => absurd ⟨low, high⟩ within, fun other => absurd rfl other, fun _ _ => rfl, fun t ht => ?_⟩
      injection ht with ht
      subst ht
      exact ⟨(decide_eq_false fun k => within k.2).symm, fun _ => rfl⟩
  · rw [State.readHeader_format phase _ _ one]
    refine ⟨fun k => absurd k one, fun _ => rfl, fun k => absurd k one, fun t ht => ?_⟩
    injection ht with ht
    subst ht
    exact ⟨(decide_eq_false fun k => one k.1).symm, fun _ => rfl⟩

end Sys2Proof.Machine
end

section
/-! SUPPORT. Records, and what a frame event makes due: window ends, forced switches and due-makings (R46, R66, R131, R159). -/

namespace Sys2Proof.Machine

/-! ### Records -/

/-- Settles O16: of a log within its places, the part that a record pushes out is its oldest record, where it is full. -/
theorem outcomeLogKeepsNewestSixteen : Obligations.OutcomeLogKeepsNewestSixteen := by
  unfold Obligations.OutcomeLogKeepsNewestSixteen
  intro s p r within
  have places : Config.logPlaces = 16 := rfl
  unfold State.addOutcome
  by_cases full : (s.port p).log.length = 16
  · simp only [if_pos full, if_pos (show Config.logPlaces ≤ (s.port p).log.length by omega)]
    rw [show (s.port p).log.length + 1 - Config.logPlaces = 1 by omega, List.drop_one]
    rfl
  · simp only [if_neg full, if_neg (show ¬Config.logPlaces ≤ (s.port p).log.length by omega)]
    rw [show (s.port p).log.length + 1 - Config.logPlaces = 0 by omega, List.drop_zero]
    rfl

/-- A record is the last of its port's log, and OUTCOME is pending. -/
theorem State.addOutcome_told (s : State) (p : PortNo) (r : Outcome) :
    ((s.addOutcome p r).port p).log.getLast? = some r ∧ ((s.addOutcome p r).port p).notices.getLsbD 0 = true := by
  unfold State.addOutcome
  dsimp only
  rw [State.port_setPort, if_pos rfl]
  refine ⟨List.getLast?_concat, ?_⟩
  rw [BitVec.getLsbD_or]
  split <;> simp [Notice.bit]

/-! ### Pieces -/

theorem State.soonest_zero (s : State) : s.soonest 0 = true := by
  unfold State.soonest
  rw [List.all_eq_true]
  intro e _
  split
  · exact decide_eq_true (Nat.zero_le _)
  · rfl

/-- A timed event that is due now is taken at the present tick. -/
theorem State.runTimed_now {s : State} {e : TimedEvent} (o : FrameOrder) (h : s.dueIn e = some 0) : s.runTimed e o = s.takeTimed o e := by
  unfold State.runTimed
  rw [h]
  dsimp only
  rw [if_pos s.soonest_zero, State.advance_zero]

/-- Settles O15: the due-making of a table whose countdown stands at 0. -/
theorem dueMakingReloadsCountdown : Obligations.DueMakingReloadsCountdown := by
  unfold Obligations.DueMakingReloadsCountdown
  intro s f c t held running table zero
  have due : (s.feed f).dueMakingDue c = true := by simp [Feed.dueMakingDue, running, table, zero]
  have now : s.dueIn (.dueMaking f c) = some 0 := by simp [State.dueIn, due]
  rw [exec_carouselDueMaking, State.actPiece_released _ _ held, State.runTimed_now _ now, State.takeTimed, State.makeDue, if_pos due]
  have made : (s.feed f).makeDue c = { s.feed f with
      carousel := tset (s.feed f).carousel c (some { t with countdown := t.interval, due := true })
      counts := { (s.feed f).counts with late := if t.due then min ((s.feed f).counts.late + 1) 65535 else (s.feed f).counts.late } } := by
    unfold Feed.makeDue
    simp only [table]
    split <;> rfl
  rw [made]

/-- Settles O14: the switch of a search whose wait stands at 0 moves the cursor, and its owner has the record. -/
theorem forcedSwitchMovesCursor : Obligations.ForcedSwitchMovesCursor := by
  unfold Obligations.ForcedSwitchMovesCursor
  intro s f p i o held slot
  have now : s.dueIn (.forcedSwitch f p) = some 0 := by simp [State.dueIn, slot]
  have writes := s.moveOnAir_writes f p (some ⟨i, 0⟩) 0xF
  have forced := writes.ownerDone_eq o { OutcomeFlags.none with forced := true }
  have freed : ∀ j, (s.src j).trimmedTo (tget ((s.moveOnAir f p (some ⟨i, 0⟩) 0xF).ownerDone f p o { OutcomeFlags.none with forced := true }).sources j) := by
    obtain ⟨w, e, freed⟩ := writes
    obtain ⟨_, e', -⟩ := ownerDone_frame (s.moveOnAir f p (some ⟨i, 0⟩) 0xF) f p o { OutcomeFlags.none with forced := true }
    rw [e', e]
    exact fun j => freed.trimmedTo j
  refine ⟨_, ?_, freed⟩
  rw [exec_forcedSwitch, State.actPiece_released _ _ held, State.runTimed_now _ now, State.takeTimed, State.forceSwitch]
  simp only [slot]
  cases o with
  | none => exact congrArg _ forced
  | some w => exact congrArg _ forced

/-! ### Window ends -/

/-- A position that differs from another at most in where it reads. -/
def Position.ReadsAnew (x y : Position) : Prop := y = { x with slot := y.slot, onAir := y.onAir, marks := y.marks }

/-- A change taken moves one position, and there only where it reads. -/
theorem takeChange_anew (s : State) (f : FeedNo) (p : PosNo) (t : Option SrcNo) (policy : Splice) (o : Option Owner) :
    ∃ y, MovedTo s f p y (s.takeChange f p t policy o) ∧ (s.pos f p).ReadsAnew y := by
  have told := fun old => ownerDone_frame s f p old ⟨false, false, false, false, true⟩
  have done : ∀ (u : State) o fl, OnlyPorts u (u.ownerDone f p o fl) := fun u o fl => ownerDone_frame u f p o fl
  have now : ∀ u : State, u.pos f p = s.pos f p → ∃ y, MovedTo u f p y (u.switchNow f p t) ∧ (s.pos f p).ReadsAnew y := fun u hu =>
    ⟨_, (u.switchNow_writes f p t).movedTo, by rw [hu]; rfl⟩
  cases hslot : (s.pos f p).slot with
  | steady =>
    by_cases hair : t = (s.pos f p).onAirSource
    · rw [State.takeChange_steady_onAir o hslot hair]
      exact ⟨_, (done s o .none).movedTo, rfl⟩
    · cases hwait : s.searchWait f p t policy with
      | none =>
        rw [State.takeChange_steady_now o hslot hair hwait]
        obtain ⟨y, moved, anew⟩ := now s rfl
        exact ⟨y, moved.told (done _ _ _), anew⟩
      | some w =>
        cases t with
        | none => cases policy <;> simp [State.searchWait] at hwait
        | some i =>
          rw [State.takeChange_steady_search o hslot hair hwait]
          exact ⟨_, (s.seek_writes f p i w o).movedTo, rfl⟩
  | seeking j v old =>
    by_cases hair : t = (s.pos f p).onAirSource
    · rw [State.takeChange_seeking_onAir o hslot hair]
      exact ⟨_, (MovedTo.after (told old) (trim_frame _ j).movedTo).told (done _ _ _), rfl⟩
    · cases hwait : s.searchWait f p t policy with
      | none =>
        rw [State.takeChange_seeking_now o hslot hair hwait]
        obtain ⟨y, moved, anew⟩ := now _ ((told old).pos f p)
        exact ⟨y, (MovedTo.after (told old) moved).told (done _ _ _), anew⟩
      | some w =>
        cases t with
        | none => cases policy <;> simp [State.searchWait] at hwait
        | some i =>
          rw [State.takeChange_seeking_search o hslot hair hwait]
          exact ⟨_, MovedTo.after (told old) (State.seek_writes _ f p i v o).movedTo, by rw [(told old).pos]; rfl⟩

/-- A position replaced, and its change handed over: nothing but one position moves, and there only where it reads. -/
theorem handedOver_anew (s : State) (f : FeedNo) (p : PosNo) (x : Position) (policy : Splice) (o : Option Owner) :
    ∃ y, MovedTo s f p y (s.handedOver f p x policy o) ∧ x.ReadsAnew y := by
  unfold State.handedOver
  split
  · obtain ⟨y, moved, anew⟩ := takeChange_anew (s.setPos f p x) f p x.effective policy o
    rw [State.pos_setPos, if_pos ⟨rfl, rfl⟩] at anew
    exact ⟨y, MovedTo.again (OnlySources.movedTo (.rfl' _)) moved, anew⟩
  · exact ⟨x, OnlySources.movedTo (.rfl' _), rfl⟩

/-- The record of an ended window (R46). -/
def StackEntry.endRecord (e : StackEntry) (hidden : Bool) (f : FeedNo) (p : PosNo) (tod : TimeOfDay) : Outcome :=
  ⟨e.tag, .windowEnd, ⟨false, false, hidden, false, false⟩, f, p, tod⟩

/-- A WINDOW END takes the ended entries out, hands the change over, and makes their records. -/
theorem State.endWindows_eq (s : State) (f : FeedNo) (p : PosNo) :
    s.endWindows f p = (endings (s.pos f p).upper).foldl (fun u e => u.addOutcome e.1.owner (e.1.endRecord e.2 f p s.clock.tod))
      (s.handedOver f p { s.pos f p with upper := (s.pos f p).upper.filter fun e => e.window ≠ some 0 } (s.pos f p).policy none) := by
  unfold State.endWindows
  dsimp only
  rw [State.setPos_handOver]
  have clock : ∀ u : State, u.clock = s.clock → ∀ l : List (StackEntry × Bool),
      l.foldl (fun s e => s.addOutcome e.1.owner ⟨e.1.tag, .windowEnd, { OutcomeFlags.none with hidden := e.2 }, f, p, s.clock.tod⟩) u =
        l.foldl (fun u e => u.addOutcome e.1.owner (e.1.endRecord e.2 f p s.clock.tod)) u := fun u hu l => by
    induction l generalizing u with
    | nil => rfl
    | cons e l ih =>
      rw [List.foldl_cons, List.foldl_cons, hu]
      exact ih _ ((addOutcome_frame u _ _).clock.trans hu)
  refine clock _ ?_ _
  obtain ⟨_, ⟨_, _, e, _⟩, -⟩ := handedOver_anew s f p { s.pos f p with upper := (s.pos f p).upper.filter fun e => e.window ≠ some 0 }
    (s.pos f p).policy none
  rw [e]
  rfl

theorem endings_none {l : List StackEntry} (h : ∀ e ∈ l, e.window ≠ some 0) : endings l = [] := by
  induction l with
  | nil => rfl
  | cons e l ih =>
    rw [endings, if_neg (h e List.mem_cons_self)]
    exact ih fun x hx => h x (List.mem_cons_of_mem _ hx)

/-- The command of a window end, whether one is due or not: where none is, nothing leaves the stack. -/
theorem exec_windowEnd_eq (s : State) (f : FeedNo) (p : PosNo) (held : s.held = false) :
    exec (.windowEnd f p) s = .next (s.endWindows f p) := by
  rw [exec_windowEnd, State.actPiece_released _ _ held]
  by_cases due : ((s.pos f p).upper.any fun e => e.window = some 0) = true
  · rw [State.runTimed_now (e := .windowEnd f p) _ (show s.dueIn (.windowEnd f p) = some 0 from if_pos due), State.takeTimed]
  · rw [State.runTimed_none _ _ _ (show s.dueIn (.windowEnd f p) = none from if_neg due)]
    have stays : ∀ e ∈ (s.pos f p).upper, e.window ≠ some 0 := fun e he k => due (List.any_eq_true.2 ⟨e, he, by simp [k]⟩)
    have all : (s.pos f p).upper.filter (fun e => e.window ≠ some 0) = (s.pos f p).upper :=
      List.filter_eq_self.2 fun e he => by simpa using stays e he
    rw [State.endWindows_eq, endings_none stays, all, State.handedOver_same _ _ _ _ _ _ (.inr rfl)]
    exact congrArg _ (s.setPos_pos f p).symm

/-- The ended entries, read off the tails of the stack. -/
theorem endings_eq_tails {α : Type} (pick : List StackEntry → Option α) (g : StackEntry → Bool → α) (none' : pick [] = none)
    (ended : ∀ e above, e.window = some 0 → pick (e :: above) = some (g e (decide (above ≠ []))))
    (stays : ∀ e above, e.window ≠ some 0 → pick (e :: above) = none) (l : List StackEntry) :
    l.tails.filterMap pick = (endings l).map fun e => g e.1 e.2 := by
  induction l with
  | nil => simp [none', endings]
  | cons e l ih =>
    rw [List.tails_cons, endings]
    by_cases h : e.window = some 0
    · rw [List.filterMap_cons_some (ended e l h), ih, if_pos h, List.map_cons]
      cases l <;> rfl
    · rw [List.filterMap_cons_none (stays e l h), ih, if_neg h]

/-- Of a stack in which one entry's window has ended, that one ends. -/
theorem endings_one (low high : List StackEntry) (e : StackEntry) (h : e.window = some 0)
    (rest : ∀ x, x ∈ low ∨ x ∈ high → x.window ≠ some 0) : endings (low ++ e :: high) = [(e, decide (high ≠ []))] := by
  induction low with
  | nil =>
    rw [List.nil_append, endings, if_pos h, endings_none fun x hx => rest x (.inr hx)]
    cases high <;> rfl
  | cons x low ih =>
    rw [List.cons_append, endings, if_neg (rest x (.inl List.mem_cons_self))]
    exact ih fun y hy => rest y (hy.imp_left (List.mem_cons_of_mem _))

/-- The effective source is that of the top entry, whatever lies below it (R52). -/
theorem Position.effective_of_last (x : Position) (l : List StackEntry) (h : l.getLast? = x.upper.getLast?) :
    Position.effective { x with upper := l } = x.effective := by
  unfold Position.effective Position.topMark
  simp only [h]

/-- Settles O13: the entries that have ended, read off the stack, and one change handed over before their records. -/
theorem windowEndRemovesEntry : Obligations.WindowEndRemovesEntry := by
  unfold Obligations.WindowEndRemovesEntry
  refine ⟨fun s f p low high e held stack ended rest => ?_, fun s f p held => ?_⟩
  · have kept : (s.pos f p).upper.filter (fun e => e.window ≠ some 0) = low ++ high := by
      have all : ∀ l : List StackEntry, (∀ x ∈ l, x.window ≠ some 0) → l.filter (fun e => e.window ≠ some 0) = l := fun l h =>
        List.filter_eq_self.2 fun x hx => by simpa using h x hx
      rw [stack, List.filter_append, List.filter_cons_of_neg (by simp [ended]), all _ fun x hx => rest x (.inl hx),
        all _ fun x hx => rest x (.inr hx)]
    dsimp only
    refine ⟨s.endWindows f p, exec_windowEnd_eq s f p held, ?_⟩
    have eq := s.endWindows_eq f p
    rw [kept, stack, endings_one low high e ended rest, List.foldl_cons, List.foldl_nil] at eq
    obtain ⟨last, pending⟩ := State.addOutcome_told
      (s.handedOver f p { s.pos f p with upper := low ++ high } (s.pos f p).policy none) e.owner
      (e.endRecord (decide (high ≠ [])) f p s.clock.tod)
    obtain ⟨y, moved, anew⟩ := handedOver_anew s f p { s.pos f p with upper := low ++ high } (s.pos f p).policy none
    rw [eq]
    refine ⟨?_, rfl, last, pending, fun same => ?_⟩
    · rw [(addOutcome_frame _ _ _).pos, moved.pos, if_pos ⟨rfl, rfl⟩]
      exact anew
    · rw [State.handedOver_same]
      · rfl
      · refine same.imp_right fun above => Position.effective_of_last (s.pos f p) _ ?_
        rw [stack, List.getLast?_append_of_ne_nil _ above, ← List.singleton_append, ← List.append_assoc,
          List.getLast?_append_of_ne_nil _ above]
  · dsimp only
    rw [exec_windowEnd_eq s f p held, State.endWindows_eq, endings_eq_tails _
      (fun (e : StackEntry) hidden => (e.owner, e.endRecord hidden f p s.clock.tod)) rfl (fun _ _ h => if_pos h) (fun _ _ h => if_neg h),
      List.foldl_map]

end Sys2Proof.Machine
end

section
/-! SUPPORT. What an entry that fires does, and its cue (R25 to R29, R74, R75); the notices of an event (R155). -/

namespace Sys2Proof.Machine

/-! ### Notices -/

/-- A port with kinds raised beside those pending. -/
def ControlPort.told (x : ControlPort) (n : NoticeSet) : ControlPort := { x with notices := x.notices ||| n }

theorem ControlPort.told_zero (x : ControlPort) : x.told 0 = x := by
  simp [ControlPort.told]

theorem ControlPort.told_told (x : ControlPort) (m n : NoticeSet) : (x.told m).told n = x.told (m ||| n) := by
  unfold ControlPort.told
  rw [BitVec.or_assoc]

/-- A kind raised for the ports that a test picks, by what the port's authority holds. -/
theorem raise_each (s : State) (k : Notice) (picks : ControlPort → Bool) (q : PortNo) :
    (allPorts.foldl (fun s p => if picks (s.port p) then s.raise p k else s) s).port q =
      (s.port q).told (if picks (s.port q) then k.bit else 0) := by
  obtain ⟨-, each⟩ := foldl_each (fun s p => s.port p) (fun _ => ()) (fun _ _ x => x.told (if picks x then k.bit else 0))
    (fun s p => if picks (s.port p) then s.raise p k else s) (fun s p j => by
      by_cases e : p = j
      · subst e
        rw [if_pos rfl]
        split
        · unfold State.raise; rw [State.port_setPort, if_pos rfl]; rfl
        · rw [ControlPort.told_zero]
      · rw [if_neg e]
        split
        · unfold State.raise; rw [State.port_setPort, if_neg e]
        · rfl) (fun _ _ => rfl) allPorts (by decide) s
  rw [each, if_pos (mem_allPorts q)]

/-- A kind raised for all ports. -/
theorem State.raiseAll_port (s : State) (k : Notice) (q : PortNo) : (s.raiseAll k).port q = (s.port q).told k.bit :=
  raise_each s k (fun _ => true) q

/-- A kind raised for the ports whose feed map holds a feed. -/
theorem State.raiseForFeed_port (s : State) (f : FeedNo) (k : Notice) (q : PortNo) :
    (s.raiseForFeed f k).port q = (s.port q).told (if (s.port q).authority.feedMap.getLsbD f then k.bit else 0) :=
  raise_each s k (fun x => x.holdsFeed f) q

/-- What is told to ports changes the ports. -/
theorem OnlyPorts.eq {s t : State} (h : OnlyPorts s t) : t = { s with ports := t.ports } := by
  obtain ⟨_, rfl, _⟩ := h
  rfl

/-! ### Actions -/

/-- The end of a firing that writes a position (R25 to R27, R29). -/
theorem State.setPos_entryStacked (s : State) (e : Entry) (y : Position) (hidden : Bool) :
    (s.setPos e.feed e.position y).entryStacked e (s.pos e.feed e.position).effective hidden =
      if (s.feed e.feed).running = true ∧ y.effective ≠ (s.pos e.feed e.position).effective then
        (s.setPos e.feed e.position y).takeChange e.feed e.position y.effective e.splice (some ⟨e.owner, e.tag, e.late⟩)
      else (s.setPos e.feed e.position y).addOutcome e.owner
        ⟨e.tag, .done, ⟨e.late, false, hidden, false, false⟩, e.feed, e.position, s.clock.tod⟩ := by
  unfold State.entryStacked State.differs
  simp only [State.pos_setPos, and_self, if_true, State.setPos_feed, Bool.and_eq_true, decide_eq_true_eq]
  rfl

/-- The test by which a RETURN passes over an entry (R26). -/
def StackEntry.otherThan (o : PortNo) (c : SelClass) (x : StackEntry) : Bool := !(decide (x.owner = o) && decide (x.cls = c))

theorem StackEntry.otherThan_iff (o : PortNo) (c : SelClass) (x : StackEntry) : x.otherThan o c = true ↔ ¬(x.owner = o ∧ x.cls = c) := by
  simp [StackEntry.otherThan, imp_iff_not_or]

/-- A stack that holds no entry of an owner and class (R26). -/
theorem removeTopmost_none {l : List StackEntry} {o : PortNo} {c : SelClass} (h : ∀ y ∈ l, ¬(y.owner = o ∧ y.cls = c)) :
    removeTopmost l o c = none := by
  have all : l.reverse.dropWhile (StackEntry.otherThan o c) = [] :=
    List.dropWhile_eq_nil_iff.2 fun y hy => (y.otherThan_iff o c).2 (h y (List.mem_reverse.1 hy))
  unfold removeTopmost
  dsimp only
  split
  · rfl
  · rename_i k
    exact absurd (k.symm.trans all) (by simp)

/-- The topmost entry of an owner and class, found below others (R26). -/
theorem removeTopmost_some (low high : List StackEntry) (y : StackEntry) {o : PortNo} {c : SelClass} (hy : y.owner = o ∧ y.cls = c)
    (h : ∀ z ∈ high, ¬(z.owner = o ∧ z.cls = c)) : removeTopmost (low ++ y :: high) o c = some (low ++ high, decide (high ≠ [])) := by
  have order : (low ++ y :: high).reverse = high.reverse ++ y :: low.reverse := by simp
  have passed : ∀ x ∈ high.reverse, x.otherThan o c = true := fun x hx => (x.otherThan_iff o c).2 (h x (List.mem_reverse.1 hx))
  have found : ¬y.otherThan o c = true := fun k => (y.otherThan_iff o c).1 k hy
  have drop : (low ++ y :: high).reverse.dropWhile (StackEntry.otherThan o c) = y :: low.reverse := by
    rw [order, List.dropWhile_append_of_pos passed, List.dropWhile_cons_of_neg found]
  have take : (low ++ y :: high).reverse.takeWhile (StackEntry.otherThan o c) = high.reverse := by
    rw [order, List.takeWhile_append_of_pos passed, List.takeWhile_cons_of_neg found, List.append_nil]
  have isEmpty : (!high.reverse.isEmpty) = decide (high ≠ []) := by cases high <;> simp
  change (match (low ++ y :: high).reverse.dropWhile (StackEntry.otherThan o c) with
    | [] => none
    | _ :: l => some (((low ++ y :: high).reverse.takeWhile (StackEntry.otherThan o c) ++ l).reverse,
        !((low ++ y :: high).reverse.takeWhile (StackEntry.otherThan o c)).isEmpty)) = _
  rw [drop, take]
  dsimp only
  rw [isEmpty, List.reverse_append, List.reverse_reverse, List.reverse_reverse]

/-- A swap made at the present frame event (R119). -/
theorem State.swapNow_eq (s : State) (f : FeedNo) :
    let y := s.feed f
    let shadow := if y.activeB then y.planA else y.planB
    ∃ ports, (∀ q, tget ports q = (s.port q).told (if (s.port q).authority.feedMap.getLsbD f then 0x100 else 0)) ∧
      s.swapNow f = { s.setFeed f { y with
        activeB := !y.activeB, swapPending := false
        lastSwap := some (s.clock.frameStart, s.clock.tod)
        shares := if y.running then shadow.shares else y.shares
        carouselShare := if y.running then shadow.carousel else y.carouselShare } with ports := ports } := by
  dsimp only
  have feed : ∀ y : Feed, (if y.running then Feed.reload { y with
        activeB := !y.activeB, swapPending := false, lastSwap := some (s.clock.frameStart, s.clock.tod) }
      else { y with activeB := !y.activeB, swapPending := false, lastSwap := some (s.clock.frameStart, s.clock.tod) }) =
      { y with
        activeB := !y.activeB, swapPending := false, lastSwap := some (s.clock.frameStart, s.clock.tod)
        shares := if y.running then (if y.activeB then y.planA else y.planB).shares else y.shares
        carouselShare := if y.running then (if y.activeB then y.planA else y.planB).carousel else y.carouselShare } := fun y => by
    cases hr : y.running <;> cases hb : y.activeB <;> simp [Feed.reload, Feed.active]
  refine ⟨(s.swapNow f).ports, fun q => ?_, ?_⟩
  · exact State.raiseForFeed_port (s.setFeed f _) f .planSwapped q
  · unfold State.swapNow
    dsimp only
    rw [feed]
    exact (raiseForFeed_frame _ _ _).eq

/-! ### Cues -/

/-- A cue that comes about is applied to its line, once (R23, R74, R75). -/
theorem State.applyCue_taken {s : State} {e : Entry} {fires : Bool} {c : EntryCue} (cue : e.cue = some c) (fresh : e.cued = false)
    (comes : fires = true ∨ distance e.due s.now s.day ≤ c.lead) :
    s.applyCue e fires = (s.setLine c.line ((s.line c.line).takeCue c.kind e.owner s.clock.tod), { e with cued := true }) := by
  unfold State.applyCue
  simp only [cue]
  rw [if_pos (by simpa [fresh] using comes)]

/-- One that does not come about, or was applied before, is not. -/
theorem State.applyCue_none {s : State} {e : Entry} {fires : Bool}
    (stays : ∀ c, e.cue = some c → e.cued = true ∨ fires = false ∧ c.lead < distance e.due s.now s.day) : s.applyCue e fires = (s, e) := by
  unfold State.applyCue
  cases cue : e.cue with
  | none => rfl
  | some c =>
    dsimp only
    rw [if_neg]
    rcases stays c cue with k | ⟨rfl, k⟩
    · simp [k]
    · simp [k]

theorem CueLine.takeCue_eq (l : CueLine) (k : CueKind) (p : PortNo) (tod : TimeOfDay) :
    l.takeCue k p tod = if l.mode = .tally then l else { l with
      level := if k = .toggle then !l.level else l.level
      pulse := if k = .pulse then true else l.pulse
      last := some ⟨p, k, tod⟩ } := by
  unfold CueLine.takeCue
  cases l.mode <;> cases k <;> simp

/-- Settles O17: the five actions by what they do to the stack, the base or the plans, and the cue. -/
theorem entriesFire : Obligations.EntriesFire := by
  unfold Obligations.EntriesFire
  intro s e
  dsimp only
  refine ⟨fun take => ⟨fun full => ?_, fun low high stack room below above => ?_⟩, fun back => ⟨fun none' => ?_,
    fun low y high stack owner cls rest => ?_⟩, fun base => ?_, fun plan => ?_, fun cue => ?_,
    fun fires => ⟨fun c cue fresh comes => ?_, State.applyCue_none⟩⟩
  · have full' : Config.stackUpper ≤ (s.pos e.feed e.position).upper.length := full
    unfold State.fire State.fireTake
    rw [take]
    simp only [if_pos full']
    rfl
  · have room' : ¬Config.stackUpper ≤ (s.pos e.feed e.position).upper.length := by
      rw [stack, List.length_append, show Config.stackUpper = 3 from rfl]; omega
    unfold State.fire State.fireTake
    rw [take]
    simp only [if_neg room']
    rw [stack, insertEntry_of_split low high _ below above, State.setPos_entryStacked]
  · unfold State.fire State.fireReturn
    rw [back]
    simp only [removeTopmost_none none']
    rfl
  · unfold State.fire State.fireReturn
    rw [back]
    simp only [stack, removeTopmost_some low high y ⟨owner, cls⟩ rest]
    rw [State.setPos_entryStacked]
  · have hidden : (!(s.pos e.feed e.position).upper.isEmpty) = decide ((s.pos e.feed e.position).upper ≠ []) := by
      cases (s.pos e.feed e.position).upper <;> simp
    unfold State.fire State.fireBase
    rw [base]
    dsimp only
    rw [hidden, State.setPos_entryStacked]
  · have swaps : (s.hasSwapped e.feed || (s.feed e.feed).swapPending) = true ↔
        ¬((s.feed e.feed).swapPending = false ∧ (s.feed e.feed).lastSwap.map Prod.fst ≠ some s.clock.frameStart) := by
      simp only [State.hasSwapped, Bool.or_eq_true, decide_eq_true_eq, not_and, not_not]
      cases (s.feed e.feed).swapPending <;> simp
    have fire : s.fire e = s.firePlan e := by unfold State.fire; rw [plan]
    rw [fire]
    unfold State.firePlan
    dsimp only
    refine ⟨fun no => ?_, fun yes big => ?_, fun yes fits => ?_⟩
    · rw [if_pos (swaps.2 no)]
      rfl
    · rw [if_neg fun k => swaps.1 k yes, if_neg (show ¬(s.feed e.feed).shadow.total ≤ _ from not_le.2 big)]
      rfl
    · rw [if_neg fun k => swaps.1 k yes, if_pos (show (s.feed e.feed).shadow.total ≤ _ from fits)]
      obtain ⟨ports, told, eq⟩ := s.swapNow_eq e.feed
      refine ⟨ports, told, ?_⟩
      rw [eq, yes.1]
      rfl
  · unfold State.fire
    rw [cue]
    rfl
  · rw [State.applyCue_taken cue fresh comes, CueLine.takeCue_eq]

end Sys2Proof.Machine
end

section
/-! SUPPORT. Commands: the next state of each, the pieces of a frame event that each finds taken (log 6, 35), and the two ends of the late
window (R6, R8). -/

namespace Sys2Proof.Machine

/-! ### The late window -/

/-- The lock of the reference: REFERENCE REGAINED from FLYWHEEL (R8). -/
theorem State.lockReference_eq (s : State) : ∃ ports, s.lockReference = { s with clock := { s.clock with ref := .locked }, ports := ports } ∧
    ∀ p, tget ports p = (s.port p).told (if s.clock.ref = .flywheel then 0x020 else 0) := by
  unfold State.lockReference
  dsimp only
  split
  · rename_i h
    rw [(raiseAll_frame _ _).eq]
    exact ⟨_, rfl, fun p => State.raiseAll_port { s with clock := { s.clock with ref := .locked } } .referenceRegained p⟩
  · exact ⟨s.ports, rfl, fun p => (ControlPort.told_zero _).symm⟩

/-- The late window expires: REFERENCE LOST from LOCKED (R6, R8). -/
theorem State.expireLate_eq (s : State) : ∃ ports, s.expireLate = { s with
      clock := { s.clock with late := none, ref := if s.clock.ref = .locked then .flywheel else s.clock.ref }, ports := ports } ∧
    ∀ p, tget ports p = (s.port p).told (if s.clock.ref = .locked then 0x010 else 0) := by
  unfold State.expireLate
  dsimp only
  split
  · rename_i h
    rw [(raiseAll_frame _ _).eq]
    exact ⟨_, rfl, fun p => State.raiseAll_port { s with clock := { s.clock with late := none, ref := .flywheel } } .referenceLost p⟩
  · exact ⟨s.ports, rfl, fun p => (ControlPort.told_zero _).symm⟩

/-- A timed event to which no other comes sooner is taken at its tick (log 2). -/
theorem State.runTimed_at {s : State} {e : TimedEvent} {d : Nat} (o : FrameOrder) (due : s.dueIn e = some d) (first : s.soonest d = true) :
    s.runTimed e o = (s.advance d).takeTimed o e := by
  unfold State.runTimed
  rw [due]
  exact if_pos first

theorem Tick.add_ofNat_sub (a b : Tick) : a + BitVec.ofNat 40 (b - a).toNat = b := by
  rw [BitVec.ofNat_toNat, BitVec.setWidth_eq]
  exact add_sub_cancel a b

/-- Settles O9: a pulse while the late window is open, and the expiry's own tick. -/
theorem lateWindowCloses : Obligations.LateWindowCloses := by
  unfold Obligations.LateWindowCloses
  intro s u awake late
  refine ⟨fun order far near => ?_, fun first => ?_⟩
  · have open' : s.clock.inLateWindow = true := by
      unfold Clock.inLateWindow
      rw [late]
      exact decide_eq_true near
    rw [exec_houseReferencePulse, s.act_awake _ awake]
    unfold State.pulse
    rw [if_neg (by simp [open'])]
    unfold State.judgePulse
    rw [if_neg (by rw [show Config.windowTicks = 270 from rfl]; omega), if_pos open']
    obtain ⟨ports, e, told⟩ := State.lockReference_eq (s.reloadTimer.setRun 0)
    dsimp only
    rw [e]
    exact ⟨ports, rfl, told⟩
  · have due : s.dueIn .lateExpiry = some (u + 271 - s.clock.tick).toNat := by
      unfold State.dueIn
      rw [late]
      rfl
    rw [exec_lateWindowExpiry, s.act_awake _ awake]
    dsimp only
    rw [State.runTimed_at _ due first, State.takeTimed]
    obtain ⟨ports, e, told⟩ := State.expireLate_eq (s.advance (u + 271 - s.clock.tick).toNat)
    rw [e]
    refine ⟨ports, ?_, told⟩
    have tick := Tick.add_ofNat_sub s.clock.tick (u + 271)
    generalize (u + 271 - s.clock.tick).toNat = d at tick ⊢
    rw [← tick]
    rfl

/-! ### Pieces -/

/-- The place of a piece of a frame event in the order in which they are taken (log 6, 35). -/
def TimedEvent.turn : TimedEvent → Nat
  | .windowEnd _ _ => 0
  | .forcedSwitch _ _ => 1
  | .dueMaking _ _ => 2
  | .lineSpeed _ => 3
  | _ => 4

/-- Carousel intervals of at least one frame (R132). -/
structure State.Intervals (s : State) : Prop where
  holds : ∀ f c k, tget (s.feed f).carousel c = some k → 1 ≤ k.interval

theorem allPieces_turns : (allPieces.Pairwise fun d e => d.turn ≤ e.turn) ∧ ∀ e ∈ allPieces, e.turn ≤ 3 := by
  have same : ∀ (n : Nat) (l : List TimedEvent), (∀ e ∈ l, e.turn = n) → l.Pairwise fun d e => d.turn ≤ e.turn := fun n l h =>
    List.pairwise_of_forall_mem_list fun d hd e he => by rw [h d hd, h e he]
  have windows : ∀ e ∈ allPositions.map fun fp => TimedEvent.windowEnd fp.1 fp.2, e.turn = 0 := fun e he => by
    obtain ⟨_, -, rfl⟩ := List.mem_map.1 he; rfl
  have switches : ∀ e ∈ allPositions.map fun fp => TimedEvent.forcedSwitch fp.1 fp.2, e.turn = 1 := fun e he => by
    obtain ⟨_, -, rfl⟩ := List.mem_map.1 he; rfl
  have makings : ∀ e ∈ allFeeds.flatMap fun f => allSources.map fun c => TimedEvent.dueMaking f c, e.turn = 2 := fun e he => by
    obtain ⟨_, -, he⟩ := List.mem_flatMap.1 he
    obtain ⟨_, -, rfl⟩ := List.mem_map.1 he; rfl
  have speeds : ∀ e ∈ allPorts.map TimedEvent.lineSpeed, e.turn = 3 := fun e he => by
    obtain ⟨_, -, rfl⟩ := List.mem_map.1 he; rfl
  have join : ∀ (n : Nat) (l m : List TimedEvent), ((l.Pairwise fun d e => d.turn ≤ e.turn) ∧ ∀ e ∈ l, e.turn ≤ n) → (∀ e ∈ m, e.turn = n + 1) →
      ((l ++ m).Pairwise fun d e => d.turn ≤ e.turn) ∧ ∀ e ∈ l ++ m, e.turn ≤ n + 1 := fun n l m hl hm => by
    refine ⟨List.pairwise_append.2 ⟨hl.1, same _ _ hm, fun d hd e he => ?_⟩, fun e he => ?_⟩
    · have := hl.2 d hd; have := hm e he; omega
    · rcases List.mem_append.1 he with he | he
      · have := hl.2 e he; omega
      · have := hm e he; omega
  exact join 2 _ _ (join 1 _ _ (join 0 _ _ ⟨same 0 _ windows, fun e he => (windows e he).le⟩ switches) makings) speeds

section
variable (s : State)

theorem State.windowEnd_none (f : FeedNo) (p : PosNo) : s.dueIn (.windowEnd f p) = none ↔ ∀ e ∈ (s.pos f p).upper, e.window ≠ some 0 := by
  change (if ((s.pos f p).upper.any fun e => e.window = some 0) then some 0 else none) = none ↔ _
  simp

theorem State.forcedSwitch_none (f : FeedNo) (p : PosNo) :
    s.dueIn (.forcedSwitch f p) = none ↔ ∀ i o, (s.pos f p).slot ≠ .seeking i 0 o := by
  constructor
  · intro h i o slot
    simp [State.dueIn, slot] at h
  · intro h
    simp only [State.dueIn]

theorem State.dueMaking_none (f : FeedNo) (c : TableNo) : s.dueIn (.dueMaking f c) = none ↔ (s.feed f).dueMakingDue c = false := by
  change (if (s.feed f).dueMakingDue c then some 0 else none) = none ↔ _
  simp

theorem State.lineSpeed_none (p : PortNo) : s.dueIn (.lineSpeed p) = none ↔ ((s.port p).pendingSpeed.isSome && (s.port p).quiet) = false := by
  change (if ((s.port p).pendingSpeed.isSome && (s.port p).quiet) then some 0 else none) = none ↔ _
  simp

/-- A piece is due now or not at all. -/
theorem State.dueIn_piece {e : TimedEvent} (h : e.turn ≤ 3) : s.dueIn e = none ∨ s.dueIn e = some 0 := by
  cases e with
  | windowEnd f p => change (if _ then _ else _) = _ ∨ (if _ then _ else _) = _; split <;> simp
  | forcedSwitch f p => simp only [State.dueIn]; split <;> simp
  | dueMaking f c => change (if _ then _ else _) = _ ∨ (if _ then _ else _) = _; split <;> simp
  | lineSpeed p => change (if _ then _ else _) = _ ∨ (if _ then _ else _) = _; split <;> simp
  | lateExpiry => simp [TimedEvent.turn] at h
  | slot f => simp [TimedEvent.turn] at h
  | byteGap p => simp [TimedEvent.turn] at h
  | underflow => simp [TimedEvent.turn] at h

end

/-- A window end leaves at its position the entries whose window has not ended, and every other stack as it was. -/
theorem State.endWindows_upper (s : State) (f g : FeedNo) (p q : PosNo) :
    ((s.endWindows f p).pos g q).upper =
      if f = g ∧ p = q then (s.pos f p).upper.filter fun e => e.window ≠ some 0 else (s.pos g q).upper := by
  rw [State.endWindows_eq]
  have told : ∀ (l : List (StackEntry × Bool)) (u : State), OnlyPorts u
      (l.foldl (fun u e => u.addOutcome e.1.owner (e.1.endRecord e.2 f p s.clock.tod)) u) := fun l u =>
    foldl_rel OnlyPorts OnlyPorts.rfl' OnlyPorts.trans _ (fun u _ => addOutcome_frame u _ _) l u
  rw [(told _ _).pos]
  obtain ⟨y, moved, anew⟩ := handedOver_anew s f p { s.pos f p with upper := (s.pos f p).upper.filter fun e => e.window ≠ some 0 }
    (s.pos f p).policy none
  rw [moved.pos]
  split
  · rw [anew]
  · rfl

/-- A forced switch leaves a slot where one was due STEADY, every other slot as it was, and every stack. -/
theorem State.forceSwitch_pos (s : State) (f g : FeedNo) (p q : PosNo) :
    ((s.forceSwitch f p).pos g q).upper = (s.pos g q).upper ∧
      (((s.forceSwitch f p).pos g q).slot = (s.pos g q).slot ∧ ¬(f = g ∧ p = q ∧ s.dueIn (.forcedSwitch f p) ≠ none) ∨
        ((s.forceSwitch f p).pos g q).slot = .steady) := by
  unfold State.forceSwitch
  split
  · rename_i i o hslot
    rw [(ownerDone_frame _ _ _ _ _).pos, State.switchTo, (s.moveOnAir_writes f p (some ⟨i, 0⟩) 0xF).pos, State.pos_setPos]
    split
    · rename_i e
      obtain ⟨rfl, rfl⟩ := e
      exact ⟨rfl, .inr rfl⟩
    · rename_i e
      exact ⟨rfl, .inl ⟨rfl, fun k => e ⟨k.1, k.2.1⟩⟩⟩
  · rename_i none'
    exact ⟨rfl, .inl ⟨rfl, fun k => k.2.2 ((s.forcedSwitch_none f p).2 fun i o slot => none' i o slot)⟩⟩

/-- A due-making leaves its countdown at its interval, and every other countdown as it was. -/
theorem State.makeDue_due {s : State} (h : s.Intervals) (f g : FeedNo) (c j : TableNo)
    (other : (f = g ∧ c = j) ∨ (s.feed g).dueMakingDue j = false) : ((s.makeDue f c).feed g).dueMakingDue j = false := by
  unfold State.makeDue
  split
  · rename_i due
    rw [State.feed_setFeed]
    split
    · rename_i e
      subst e
      unfold Feed.dueMakingDue at due other ⊢
      rw [Bool.and_eq_true] at due
      obtain ⟨running, due⟩ := due
      have made : ((s.feed f).makeDue c).running = (s.feed f).running ∧ ∃ t, tget (s.feed f).carousel c = some t ∧
          ((s.feed f).makeDue c).carousel = tset (s.feed f).carousel c (some { t with countdown := t.interval, due := true }) := by
        unfold Feed.makeDue
        split
        · rename_i t ht
          dsimp only
          split <;> exact ⟨rfl, t, ht, rfl⟩
        · rename_i none'
          rw [none'] at due
          cases due
      obtain ⟨run, t, ht, car⟩ := made
      rw [run, car, running, Bool.true_and, tget_tset]
      by_cases e : c = j
      · rw [if_pos e]
        have := h.holds f c t ht
        exact decide_eq_false (by dsimp only; omega)
      · rw [if_neg e]
        simpa [e, running] using other
    · rename_i e
      exact other.resolve_left fun k => e k.1
  · rename_i due
    rcases other with ⟨rfl, rfl⟩ | other
    · simpa using due
    · exact other

/-- A speed change leaves its port with no speed to take, and every other port as it was. -/
theorem State.changeSpeed_port' (s : State) (p q : PortNo)
    (other : p = q ∨ ((s.port q).pendingSpeed.isSome && (s.port q).quiet) = false) :
    (((s.changeSpeed p).port q).pendingSpeed.isSome && ((s.changeSpeed p).port q).quiet) = false := by
  unfold State.changeSpeed
  dsimp only
  split
  · split
    · rw [State.port_setPort]
      split
      · rfl
      · exact other.resolve_left ‹_›
    · rename_i quiet
      rcases other with rfl | other
      · simp [Bool.eq_false_iff.2 quiet]
      · exact other
  · rename_i none'
    rcases other with rfl | other
    · simp [none']
    · exact other

theorem State.Intervals.same {s t : State} (h : s.Intervals) (feeds : t.feeds = s.feeds) : t.Intervals :=
  ⟨fun f c k hk => h.holds f c k (by unfold State.feed at *; rw [← feeds]; exact hk)⟩

theorem State.Intervals.makeDue {s : State} (h : s.Intervals) (f : FeedNo) (c : TableNo) : (s.makeDue f c).Intervals := by
  refine ⟨fun g j k hk => ?_⟩
  unfold State.makeDue at hk
  split at hk
  · rw [State.feed_setFeed] at hk
    split at hk
    · rename_i e
      subst e
      unfold Feed.makeDue at hk
      split at hk
      · rename_i t ht
        have car : tget (tset (s.feed f).carousel c (some { t with countdown := t.interval, due := true })) j = some k := by
          dsimp only at hk
          split at hk <;> exact hk
        rw [tget_tset] at car
        split at car
        · cases car
          exact h.holds f c t ht
        · exact h.holds f j k car
      · exact h.holds f j k hk
    · exact h.holds g j k hk
  · exact h.holds g j k hk

/-- A piece taken is due no more, and neither is any before it or of its kind that was not. -/
theorem State.piece_taken {s : State} (h : s.Intervals) {d e : TimedEvent} (last : e.turn ≤ 3) (before : d.turn ≤ e.turn)
    (none' : d = e ∨ s.dueIn d = none) : (s.runTimed e FrameOrder.plain).dueIn d = none := by
  rcases s.dueIn_piece last with idle | now
  · rw [s.runTimed_none e _ idle]
    rcases none' with rfl | none'
    · exact idle
    · exact none'
  · rw [State.runTimed_now _ now]
    cases e with
    | windowEnd f p =>
      cases d with
      | windowEnd g q =>
        rw [State.takeTimed, State.windowEnd_none, State.endWindows_upper]
        split
        · intro e he
          simpa using (List.mem_filter.1 he).2
        · rename_i other
          rcases none' with e | none'
          · cases e; exact absurd ⟨rfl, rfl⟩ other
          · exact (s.windowEnd_none g q).1 none'
      | _ => simp [TimedEvent.turn] at before
    | forcedSwitch f p =>
      cases d with
      | windowEnd g q =>
        rw [State.takeTimed, State.windowEnd_none, (s.forceSwitch_pos f g p q).1]
        exact (s.windowEnd_none g q).1 (none'.resolve_left fun k => by cases k)
      | forcedSwitch g q =>
        rw [State.takeTimed, State.forcedSwitch_none]
        rcases (s.forceSwitch_pos f g p q).2 with ⟨slot, other⟩ | slot
        · rw [slot]
          refine (s.forcedSwitch_none g q).1 (none'.resolve_left fun k => other ?_)
          cases k
          exact ⟨rfl, rfl, by rw [now]; simp⟩
        · rw [slot]; simp
      | _ => simp [TimedEvent.turn] at before
    | dueMaking f c =>
      have pos : ∀ g q, (s.makeDue f c).pos g q = s.pos g q := fun g q => (makeDue_frame s f c).pos g q
      cases d with
      | windowEnd g q =>
        rw [State.takeTimed, State.windowEnd_none, pos]
        exact (s.windowEnd_none g q).1 (none'.resolve_left fun k => by cases k)
      | forcedSwitch g q =>
        rw [State.takeTimed, State.forcedSwitch_none, pos]
        exact (s.forcedSwitch_none g q).1 (none'.resolve_left fun k => by cases k)
      | dueMaking g j =>
        rw [State.takeTimed, State.dueMaking_none]
        refine State.makeDue_due h f g c j (none'.imp (fun k => ?_) fun k => (s.dueMaking_none g j).1 k)
        cases k
        exact ⟨rfl, rfl⟩
      | _ => simp [TimedEvent.turn] at before
    | lineSpeed p =>
      obtain ⟨x, e⟩ := changeSpeed_port s p
      cases d with
      | windowEnd g q =>
        rw [State.takeTimed, State.windowEnd_none, e]
        exact (s.windowEnd_none g q).1 (none'.resolve_left fun k => by cases k)
      | forcedSwitch g q =>
        rw [State.takeTimed, State.forcedSwitch_none, e]
        exact (s.forcedSwitch_none g q).1 (none'.resolve_left fun k => by cases k)
      | dueMaking g j =>
        rw [State.takeTimed, State.dueMaking_none, e]
        exact (s.dueMaking_none g j).1 (none'.resolve_left fun k => by cases k)
      | lineSpeed q =>
        rw [State.takeTimed, State.lineSpeed_none]
        refine s.changeSpeed_port' p q (none'.imp (fun k => ?_) fun k => (s.lineSpeed_none q).1 k)
        cases k
        rfl
      | _ => simp [TimedEvent.turn] at before
    | _ => simp [TimedEvent.turn] at last

/-- A piece taken leaves every interval. -/
theorem State.Intervals.taken {s : State} (h : s.Intervals) {e : TimedEvent} (last : e.turn ≤ 3) :
    (s.runTimed e FrameOrder.plain).Intervals := by
  rcases s.dueIn_piece last with idle | now
  · rw [s.runTimed_none e _ idle]
    exact h
  · rw [State.runTimed_now _ now]
    cases e with
    | windowEnd f p => exact h.same (endWindows_frame s f p).feeds_eq
    | forcedSwitch f p => exact h.same (forceSwitch_frame s f p).stacks.feeds_eq
    | dueMaking f c => exact h.makeDue f c
    | lineSpeed p =>
      obtain ⟨x, e⟩ := changeSpeed_port s p
      refine h.same ?_
      rw [State.takeTimed, e]
      rfl
    | _ => simp [TimedEvent.turn] at last

/-- Pieces taken in their order: none of them is due then (log 6, 35). -/
theorem State.pieces_taken (l done : List TimedEvent) (s : State) (h : s.Intervals)
    (order : (done ++ l).Pairwise fun d e => d.turn ≤ e.turn) (last : ∀ e ∈ l, e.turn ≤ 3) (taken : ∀ d ∈ done, s.dueIn d = none) :
    ∀ d ∈ done ++ l, (l.foldl (fun s e => s.runTimed e FrameOrder.plain) s).dueIn d = none := by
  induction l generalizing done s with
  | nil => simpa using taken
  | cons e l ih =>
    have turn := last e List.mem_cons_self
    rw [List.append_cons] at order ⊢
    refine ih (done ++ [e]) _ (h.taken turn) order (fun x hx => last x (List.mem_cons_of_mem _ hx)) fun d hd => ?_
    rw [List.mem_append, List.mem_singleton] at hd
    obtain ⟨-, -, cross⟩ := List.pairwise_append.1 (List.pairwise_append.1 order).1
    rcases hd with hd | rfl
    · exact State.piece_taken h turn (cross d hd e (List.mem_singleton.2 rfl)) (.inr (taken d hd))
    · exact State.piece_taken h turn le_rfl (.inl rfl)

theorem State.settle_calm {s : State} (h : s.Intervals) : s.settle.calm = true := by
  have taken := State.pieces_taken allPieces [] s h allPieces_turns.1 allPieces_turns.2 (by simp)
  unfold State.calm
  rw [List.all_eq_true]
  exact fun d hd => Option.isNone_iff_eq_none.2 (taken d hd)

/-! ### Every command -/

theorem State.act_pending {s : State} (f : State → State) (h : ∀ u : State, (f u).pending = u.pending) :
    ∃ t, s.act f = .next t ∧ t.pending = s.pending := by
  refine ⟨_, rfl, ?_⟩
  split
  · rfl
  · rw [h, (settle_frame s).1]

/-- The command of a piece. -/
def TimedEvent.command : TimedEvent → Instr
  | .windowEnd f p => .windowEnd f p
  | .forcedSwitch f p => .forcedSwitch f p
  | .dueMaking f c => .carouselDueMaking f c
  | .lineSpeed p => .lineSpeedChange p
  | .lateExpiry => .lateWindowExpiry
  | .slot f => .slotEvent f
  | .byteGap p => .byteGapExpiry p
  | .underflow => .flywheelUnderflow FrameOrder.plain

theorem exec_command {e : TimedEvent} (h : e.turn ≤ 3) (s : State) : exec e.command s = s.actPiece e := by
  cases e with
  | windowEnd f p => rfl
  | forcedSwitch f p => rfl
  | dueMaking f c => rfl
  | lineSpeed p => rfl
  | _ => simp [TimedEvent.turn] at h

theorem readHeader_pending (s : State) (b : List Byte) : (s.readHeader b).pending = s.pending := by
  obtain ⟨_, _, e⟩ := readHeader_frame s b
  rw [e]

theorem readSections_pending (s : State) (b : List Byte) : (s.readSections b).pending = s.pending := by
  obtain e | ⟨-, ⟨_, -, -, e⟩ | ⟨_, -, e⟩ | ⟨l, m, -, -, -, -, e⟩⟩ := s.readSections_cases b <;> rw [e]
  obtain ⟨_, _, _, _, _, _, _, e'⟩ := applyImage_frame { s with loader := l } m
  rw [e']

/-- Every command is one of RESETN's, that of a piece, or an action that keeps the commands that wait. -/
theorem exec_acts (c : Instr) : (∃ b, c = .resetAssert b) ∨ (∃ b, c = .resetRelease b) ∨
    (∃ k : TimedEvent, k.turn ≤ 3 ∧ c = k.command) ∨ ∃ f : State → State, (∀ s, exec c s = s.act f) ∧ ∀ u, (f u).pending = u.pending := by
  cases c
  case resetAssert b => exact .inl ⟨b, rfl⟩
  case resetRelease b => exact .inr (.inl ⟨b, rfl⟩)
  case windowEnd f p => exact .inr (.inr (.inl ⟨.windowEnd f p, by simp [TimedEvent.turn], rfl⟩))
  case forcedSwitch f p => exact .inr (.inr (.inl ⟨.forcedSwitch f p, by simp [TimedEvent.turn], rfl⟩))
  case carouselDueMaking f c => exact .inr (.inr (.inl ⟨.dueMaking f c, by simp [TimedEvent.turn], rfl⟩))
  case lineSpeedChange p => exact .inr (.inr (.inl ⟨.lineSpeed p, by simp [TimedEvent.turn], rfl⟩))
  all_goals refine .inr (.inr (.inr ⟨_, fun s => by unfold exec; rfl, fun u => ?_⟩))
  case imageHeaderRead => exact readHeader_pending u _
  case imageReadComplete b => exact readSections_pending u b
  case flywheelUnderflow => exact (runTimed_frame u _ _).1
  case lateWindowExpiry => exact (runTimed_frame u _ _).1
  case slotEvent => exact (runTimed_frame u _ _).1
  case byteGapExpiry => exact (runTimed_frame u _ _).1
  case houseReferencePulse => exact (pulse_frame u _).units.1
  case packetArrival => exact (takeByte_frame u _ _).work.blocks.units.1
  case sourcePortByte => exact (takeByte_frame u _ _).work.blocks.units.1
  case controlFrame => exact (receive_frame u _ _ _).1
  case controlPortByte => exact (receive_frame u _ _ _).1
  case replySent => exact (replyDone_frame u _).1
  all_goals exact (acceptFrame_frame u _ _).1

/-- Every command answers a next state, and touches no command that waits (log 28). -/
theorem exec_pending (c : Instr) (s : State) : ∃ t, exec c s = .next t ∧ t.pending = s.pending := by
  obtain ⟨b, rfl⟩ | ⟨b, rfl⟩ | ⟨k, turn, rfl⟩ | ⟨f, e, kept⟩ := exec_acts c
  · exact ⟨_, rfl, rfl⟩
  · refine ⟨_, rfl, ?_⟩
    split <;> rfl
  · rw [exec_command turn s]
    refine ⟨_, rfl, ?_⟩
    split
    · rfl
    · exact (runTimed_frame s _ _).1
  · rw [e]
    exact State.act_pending f kept

/-- The commands of pieces, one after another, take the pieces. -/
theorem execAll_pieces (l : List TimedEvent) (c : TimedEvent → Instr) (piece : ∀ e ∈ l, ∀ s, exec (c e) s = s.actPiece e) (rest : List Instr)
    (s : State) (held : s.held = false) :
    execAll (l.map c ++ rest) s = execAll rest (l.foldl (fun s e => s.runTimed e FrameOrder.plain) s) := by
  induction l generalizing s with
  | nil => rfl
  | cons e l ih =>
    rw [List.map_cons, List.cons_append, execAll, piece e List.mem_cons_self s, State.actPiece_released s e held]
    exact ih (fun x hx => piece x (List.mem_cons_of_mem _ hx)) _ (by rw [(runTimed_frame s _ _).2.1]; exact held)

/-- Settles O11: each command by its form; the pieces' commands in their order are what every other command finds done. -/
theorem commandsAnswerNextAndKeepQueue : Obligations.CommandsAnswerNextAndKeepQueue := by
  unfold Obligations.CommandsAnswerNextAndKeepQueue
  refine ⟨exec_pending, fun s held intervals => ?_⟩
  have calm := State.settle_calm (s := s) ⟨intervals⟩
  have frame := settle_frame s
  refine ⟨s.settle, ⟨by rw [frame.2.1]; exact held, calm⟩, frame.1, ?_, fun c notAssert notRelease notWindow notSwitch notMaking notSpeed => ?_⟩
  · have all := execAll_pieces allPieces TimedEvent.command (fun e he => exec_command (allPieces_turns.2 e he)) [] s held
    rw [List.append_nil] at all
    rw [← show execAll [] s.settle = .next s.settle from rfl]
    refine Eq.trans ?_ all
    congr 1
  · obtain ⟨b, e⟩ | ⟨b, e⟩ | ⟨k, turn, e⟩ | ⟨f, e, -⟩ := exec_acts c
    · exact absurd e (notAssert b)
    · exact absurd e (notRelease b)
    · cases k with
      | windowEnd f p => exact absurd e (notWindow f p)
      | forcedSwitch f p => exact absurd e (notSwitch f p)
      | dueMaking f k => exact absurd e (notMaking f k)
      | lineSpeed p => exact absurd e (notSpeed p)
      | _ => simp [TimedEvent.turn] at turn
    · rw [e, e, State.act_released _ _ held, State.act_released _ _ (by rw [frame.2.1]; exact held), State.settle_of_calm _ calm]

end Sys2Proof.Machine
end

section
/-! SUPPORT. Bytes and numbers (R170), packets as bytes (R171), and the sync machine of a source port (R81 to R83). -/

namespace Sys2Proof.Machine

/-! ### Numbers in bytes -/

theorem natBytes_length (k n : Nat) : (natBytes k n).length = k := by
  induction k generalizing n with
  | zero => rfl
  | succ k ih => rw [natBytes, List.length_append, ih, List.length_singleton]

/-- The number that bytes spell after the digits of another. -/
theorem foldl_natBytes (k n a : Nat) : (natBytes k n).foldl (fun a (x : Byte) => a * 256 + x.toNat) a = a * 256 ^ k + n % 256 ^ k := by
  induction k generalizing n with
  | zero => simp [natBytes, Nat.mod_one]
  | succ k ih =>
    rw [natBytes, List.foldl_append, ih, List.foldl_cons, List.foldl_nil, BitVec.toNat_ofNat]
    have digit : n % 256 ^ (k + 1) = n / 256 % 256 ^ k * 256 + n % 256 := by
      rw [pow_succ', Nat.mod_mul]
      ring
    rw [digit]
    change (a * 256 ^ k + n / 256 % 256 ^ k) * 256 + n % 256 = _
    ring

/-- A number written in its place is read there (R170). -/
theorem natAt_natBytes (front rest : List Byte) (k n : Nat) : natAt (front ++ natBytes k n ++ rest) front.length k = n % 256 ^ k := by
  unfold natAt
  rw [List.append_assoc, List.drop_left, List.take_left' (natBytes_length k n), foldl_natBytes, Nat.zero_mul, Nat.zero_add]

theorem byteAt_eq_some {b : List Byte} {n : Nat} {x : Byte} (nonzero : x ≠ 0) : byteAt b n = x ↔ b[n]? = some x := by
  unfold byteAt
  rw [List.getD_eq_getElem?_getD]
  cases b[n]? with
  | none => simpa using Ne.symm nonzero
  | some y => simp

/-! ### Packets as bytes -/

/-- The second byte of a packet: its three flags, and the high bits of its identifier (R171). -/
theorem flags_and_id (entry clocked disc : Bool) (h : Fin 32) :
    let b : Byte := (boolByte entry <<< 7) ||| (boolByte clocked <<< 6) ||| (boolByte disc <<< 5) ||| nat8 h.val
    b.getLsbD 7 = entry ∧ b.getLsbD 6 = clocked ∧ b.getLsbD 5 = disc ∧ b.toNat % 32 = h.val := by
  revert entry clocked disc h
  decide

section
variable (id : Nat) (entry disc : Bool) (count : BitVec 4) (clock : Option Tick) (payload : List Byte)

/-- The second byte of a packet sent. -/
def secondByte : Byte := (boolByte entry <<< 7) ||| (boolByte clock.isSome <<< 6) ||| (boolByte disc <<< 5) ||| nat8 (id / 256 % 32)

/-- What follows the four bytes of a packet's header. -/
def afterHeader : List Byte := (match clock with
  | some c => tickBytes c
  | none => []) ++ payload

theorem packetBytes_eq : packetBytes id entry disc count clock payload =
    0x47 :: secondByte id entry disc clock :: nat8 id :: count.setWidth 8 :: afterHeader clock payload := by
  cases clock <;> rfl

theorem secondByte_reads : (secondByte id entry disc clock).getLsbD 7 = entry ∧ (secondByte id entry disc clock).getLsbD 6 = clock.isSome ∧
    (secondByte id entry disc clock).getLsbD 5 = disc ∧ (secondByte id entry disc clock).toNat % 32 = id / 256 % 32 :=
  flags_and_id entry clock.isSome disc ⟨id / 256 % 32, Nat.mod_lt _ (by decide)⟩

/-- The identifier read back (R171). -/
theorem headerId_packetBytes (h : id < 8192) : headerId (packetBytes id entry disc count clock payload) = id := by
  obtain ⟨-, -, -, high⟩ := secondByte_reads id entry disc clock
  have low : (nat8 id).toNat = id % 256 := by rw [nat8, BitVec.toNat_ofNat]
  rw [packetBytes_eq]
  change (secondByte id entry disc clock).toNat % 32 * 256 + (nat8 id).toNat = id
  rw [high, low]
  omega

/-- A packet read back from its bytes (R171). -/
theorem packetOf_packetBytes (h : id < 8192) (c : CompNo) (tick : Tick) :
    packetOf (packetBytes id entry disc count clock payload) c tick = ⟨c, tick, entry, disc, id, count, clock, payload⟩ := by
  obtain ⟨e, k, d, -⟩ := secondByte_reads id entry disc clock
  have header := headerId_packetBytes id entry disc count clock payload h
  have low : (count.setWidth 8).setWidth 4 = count := by
    refine BitVec.eq_of_toNat_eq ?_
    have := count.isLt
    simp only [BitVec.toNat_setWidth]
    omega
  have second : byteAt (packetBytes id entry disc count clock payload) 1 = secondByte id entry disc clock := by rw [packetBytes_eq]; rfl
  have fourth : byteAt (packetBytes id entry disc count clock payload) 3 = count.setWidth 8 := by rw [packetBytes_eq]; rfl
  unfold packetOf
  rw [second, fourth, e, k, d, header, low]
  cases clock with
  | none =>
    rw [packetBytes_eq]
    rfl
  | some t =>
    have time : natAt (packetBytes id entry disc count (some t) payload) 4 5 = t.toNat := by
      have read := natAt_natBytes [0x47, secondByte id entry disc (some t), nat8 id, count.setWidth 8] payload 5 t.toNat
      rw [Nat.mod_eq_of_lt (show t.toNat < 256 ^ 5 from t.isLt)] at read
      rw [packetBytes_eq]
      exact read
    have rest : (packetBytes id entry disc count (some t) payload).drop 9 = payload := by
      rw [packetBytes_eq]
      change ((natBytes 5 t.toNat) ++ payload).drop 5 = payload
      exact List.drop_left' (natBytes_length 5 _)
    dsimp only [Option.isSome_some]
    rw [if_pos rfl, if_pos rfl, time, rest, BitVec.ofNat_toNat, BitVec.setWidth_eq]

end

/-- Bits 7 to 4 of byte 3 are not read (R171). -/
theorem packetOf_low (b0 b1 b2 b3 b3' : Byte) (rest : List Byte) (c : CompNo) (tick : Tick) (h : b3.toNat % 16 = b3'.toNat % 16) :
    packetOf (b0 :: b1 :: b2 :: b3' :: rest) c tick = packetOf (b0 :: b1 :: b2 :: b3 :: rest) c tick ∧
      headerId (b0 :: b1 :: b2 :: b3' :: rest) = headerId (b0 :: b1 :: b2 :: b3 :: rest) := by
  have low : b3'.setWidth 4 = b3.setWidth 4 := by
    refine BitVec.eq_of_toNat_eq ?_
    simp only [BitVec.toNat_setWidth]
    omega
  refine ⟨?_, rfl⟩
  change (⟨c, tick, b1.getLsbD 7, b1.getLsbD 5, _, b3'.setWidth 4, _, _⟩ : Packet) = _
  rw [low]
  rfl

/-- Settles O22: each field of a packet from its bytes. -/
theorem packetBytesReadBack : Obligations.PacketBytesReadBack := by
  unfold Obligations.PacketBytesReadBack
  refine ⟨fun id entry disc count clock payload c tick h => ⟨packetOf_packetBytes id entry disc count clock payload h c tick,
    headerId_packetBytes id entry disc count clock payload h, by rw [packetBytes_eq]; rfl⟩, rfl, packetOf_low⟩

/-! ### A port that is SYNCED -/

/-- Settles O21: each place of a byte in a packet, and the packet that is discarded. -/
theorem syncedPortTakesByte : Obligations.SyncedPortTakesByte := by
  unfold Obligations.SyncedPortTakesByte
  refine ⟨fun s i b => rfl, fun s i b awake synced => ?_⟩
  rw [exec_sourcePortByte, s.act_awake _ awake]
  have short : (s.src i).bytes.length ≠ 187 → s.takeByte i b = s.setSrc i ((s.src i).syncByte b) := fun h => by
    unfold State.takeByte
    simp only [synced, if_neg h]
  have whole : (s.src i).bytes.length = 187 → s.takeByte i b =
      if byteAt (s.src i).bytes 0 = 0x47 then (s.setSrc i { s.src i with bytes := [] }).arrive i ((s.src i).bytes ++ [b])
      else s.setSrc i { s.src i with bytes := [] } := fun h => by
    unfold State.takeByte
    simp only [synced, if_pos h]
  have first : (s.src i).bytes = [] → s.takeByte i b = s.setSrc i ((s.src i).syncByte b) := fun h => short (by rw [h]; decide)
  refine ⟨fun empty good => ?_, fun empty bad run => ?_, fun empty bad run => ?_, fun low high => ?_, fun full bad => ?_, fun full good stray => ?_⟩
  · subst good
    simp only [first empty, Source.syncByte, empty, List.isEmpty_nil, if_true]
  · simp only [first empty, Source.syncByte, empty, List.isEmpty_nil, if_true, if_neg bad, if_neg (show ¬3 ≤ (s.src i).badRun + 1 by omega)]
  · simp only [first empty, Source.syncByte, empty, List.isEmpty_nil, if_true, if_neg bad, if_pos (show 3 ≤ (s.src i).badRun + 1 by omega),
      Source.loseSync]
  · have some' : (s.src i).bytes.isEmpty = false := by
      cases h : (s.src i).bytes with
      | nil => rw [h] at low; simp at low
      | cons => rfl
    simp only [short (by omega), Source.syncByte, some', Bool.false_eq_true, if_false]
  · have bad' : ¬byteAt (s.src i).bytes 0 = 0x47 := fun k => bad ((byteAt_eq_some (by decide)).1 k)
    simp only [whole full, if_neg bad']
  · have good' : byteAt (s.src i).bytes 0 = 0x47 := (byteAt_eq_some (by decide)).2 good
    have id : headerId ((s.src i).bytes ++ [b]) = (byteAt (s.src i).bytes 1).toNat % 32 * 256 + (byteAt (s.src i).bytes 2).toNat := by
      unfold headerId byteAt
      rw [List.getD_append _ _ _ _ (by omega), List.getD_append _ _ _ _ (by omega)]
    simp only [whole full, if_pos good']
    unfold State.arrive
    simp only [State.src_setSrc, if_true]
    rcases stray with off | absent
    · simp only [off, Bool.false_eq_true, if_false]
    · have none' : (s.src i).table.compOf (headerId ((s.src i).bytes ++ [b])) = none := by
        unfold SourceEntry.compOf
        rw [List.find?_eq_none]
        intro c _
        rw [id]
        simpa using absent c
      simp only [none', ite_self]

/-! ### A port that hunts -/

/-- The spacing of sync bytes, in the model's words and in the statements'. -/
theorem candidateHolds_iff (r : List Byte) : candidateHolds r = true ↔ holdsSync r := by
  have sync : ∀ n, byteAt r n = 0x47 ↔ r[n]? = some 0x47 := fun n => byteAt_eq_some (by decide)
  unfold candidateHolds holdsSync
  simp only [Bool.and_eq_true, Bool.or_eq_true, beq_iff_eq, decide_eq_true_eq, sync, and_assoc]
  refine and_congr_right fun _ => and_congr ?_ ?_
  · rw [← not_lt, ← imp_iff_not_or]
  · rw [← not_lt, ← imp_iff_not_or]

/-- The candidate that stands is the longest run that holds (R82). -/
theorem candidate_longest (l : List Byte) : candidate l <:+ l ∧ (candidate l = [] ∨ holdsSync (candidate l)) ∧
    ∀ r, r <:+ l → holdsSync r → r.length ≤ (candidate l).length := by
  induction l with
  | nil => exact ⟨List.suffix_rfl, .inl rfl, fun r h k => by rw [List.suffix_nil.1 h] at k; simp [holdsSync] at k⟩
  | cons b l ih =>
    obtain ⟨suffix, holds, longest⟩ := ih
    unfold candidate
    split
    · rename_i h
      exact ⟨List.suffix_rfl, .inr ((candidateHolds_iff _).1 h), fun r h _ => h.length_le⟩
    · rename_i h
      refine ⟨suffix.trans (List.suffix_cons b l), holds, fun r hr k => ?_⟩
      rcases List.suffix_cons_iff.1 hr with rfl | hr
      · exact absurd ((candidateHolds_iff _).2 k) h
      · exact longest r hr k

theorem candidate_of_longest {l r : List Byte} (suffix : r <:+ l) (holds : r = [] ∨ holdsSync r)
    (longest : ∀ x, x <:+ l → holdsSync x → x.length ≤ r.length) : candidate l = r := by
  obtain ⟨suffix', holds', longest'⟩ := candidate_longest l
  have le : (candidate l).length ≤ r.length := by
    rcases holds' with e | h
    · rw [e]; exact Nat.zero_le _
    · exact longest _ suffix' h
  have ge : r.length ≤ (candidate l).length := by
    rcases holds with rfl | h
    · exact Nat.zero_le _
    · exact longest' _ suffix h
  exact (List.suffix_of_suffix_length_le suffix' suffix le).eq_of_length (le_antisymm le ge)

theorem goodRunOf_eq (r : List Byte) : goodRunOf r = (r.length + 187) / 188 := by
  unfold goodRunOf
  cases r with
  | nil => rfl
  | cons b r => simp only [List.isEmpty_cons, Bool.false_eq_true, if_false, List.length_cons]; omega

/-- A byte on a HUNTING port, by the candidate that it leaves (R82). -/
theorem State.takeByte_hunting {s : State} {i : SrcNo} (hunting : (s.src i).sync = .hunting) (b : Byte) {r : List Byte}
    (short : r.length ≤ 377) (h : candidate ((s.src i).bytes ++ [b]) = r) :
    s.takeByte i b = s.setSrc i (if r.length = 377 then { s.src i with sync := .synced, bytes := [b], goodRun := 0, badRun := 0 }
      else { s.src i with bytes := r, goodRun := (r.length + 187) / 188 }) := by
  have third : (r.length + 187) / 188 = 3 ↔ r.length = 377 := by omega
  unfold State.takeByte
  simp only [hunting, Source.huntByte, h, goodRunOf_eq]
  exact congrArg (s.setSrc i) (ite_congr (propext third) (fun _ => rfl) fun _ => rfl)

/-- The beginning of a run that holds holds. -/
theorem holdsSync_take {l : List Byte} (h : holdsSync l) {k : Nat} (one : 1 ≤ k) : holdsSync (l.take k) := by
  obtain ⟨first, second, third⟩ := h
  refine ⟨by rw [List.getElem?_take_of_lt (by omega)]; exact first, fun h => ?_, fun h => ?_⟩
  · rw [List.length_take] at h
    rw [List.getElem?_take_of_lt (by omega)]
    exact second (by omega)
  · rw [List.length_take] at h
    rw [List.getElem?_take_of_lt (by omega)]
    exact third (by omega)

theorem execAll_cons {c : Instr} {s t : State} (h : exec c s = .next t) (rest : List Instr) : execAll (c :: rest) s = execAll rest t := by
  rw [execAll, h]

theorem execAll_append (a b : List Instr) {s t : State} (h : execAll a s = .next t) : execAll (a ++ b) s = execAll b t := by
  induction a generalizing s with
  | nil => injection h with h; rw [h]; rfl
  | cons c a ih =>
    rw [List.cons_append]
    cases e : exec c s with
    | next u => rw [execAll_cons e] at h ⊢; exact ih h
    | fault r => rw [execAll, e] at h; cases h
    | refused r => rw [execAll, e] at h; cases h

theorem State.setSrc_src (s : State) (i : SrcNo) : s.setSrc i (s.src i) = s := by
  unfold State.setSrc State.src
  rw [tset_tget]

theorem State.setSrc_setSrc (s : State) (i : SrcNo) (x y : Source) : (s.setSrc i x).setSrc i y = s.setSrc i y := by
  have twice : tset (tset s.sources i x) i y = tset s.sources i y := tget_ext _ _ fun j => by
    simp only [tget_tset]
    split <;> rfl
  unfold State.setSrc
  rw [twice]

theorem State.awake_setSrc {s : State} (h : s.awake) (i : SrcNo) (x : Source) : (s.setSrc i x).awake :=
  ⟨h.1, by rw [State.calm_setSrc]; exact h.2⟩

/-- A run of bytes that hold the spacing, as far as the third sync byte, is collected (R82). -/
theorem execAll_hunting {s : State} {i : SrcNo} (awake : s.awake) (hunting : (s.src i).sync = .hunting) (empty : (s.src i).bytes = [])
    {l : List Byte} (holds : holdsSync l) (k : Nat) (short : k ≤ 376) (within : k ≤ l.length) :
    ∃ g, execAll ((l.take k).map (Instr.sourcePortByte i ·)) s = .next (s.setSrc i { s.src i with bytes := l.take k, goodRun := g }) := by
  induction k with
  | zero =>
    refine ⟨(s.src i).goodRun, ?_⟩
    have same : s.setSrc i { s.src i with bytes := [], goodRun := (s.src i).goodRun } = s := by
      rw [← empty]
      exact s.setSrc_src i
    rw [List.take_zero, same]
    rfl
  | succ k ih =>
    obtain ⟨g, run⟩ := ih (by omega) (by omega)
    have step : l.take (k + 1) = l.take k ++ [l[k]] := (List.take_concat_get' l k (by omega)).symm
    rw [step, List.map_append, execAll_append _ _ run, List.map_singleton]
    have whole : candidate (l.take k ++ [l[k]]) = l.take (k + 1) := by
      rw [← step]
      exact candidate_of_longest List.suffix_rfl (.inr (holdsSync_take holds (by omega))) fun x hx _ => hx.length_le
    have length : (l.take (k + 1)).length = k + 1 := List.length_take_of_le within
    refine ⟨(k + 1 + 187) / 188, ?_⟩
    unfold execAll
    rw [exec_sourcePortByte, State.act_awake _ _ (State.awake_setSrc awake i _)]
    dsimp only
    rw [State.takeByte_hunting (r := l.take (k + 1)) (by rw [State.src_setSrc, if_pos rfl]; exact hunting) _ (by omega)
      (by rw [State.src_setSrc, if_pos rfl]; exact whole), if_neg (by omega), State.src_setSrc, if_pos rfl, length, step]
    rw [State.setSrc_setSrc]
    rfl

/-- Settles O20: byte by byte, the candidate is the longest run that holds. -/
theorem huntFindsSync : Obligations.HuntFindsSync := by
  unfold Obligations.HuntFindsSync
  refine ⟨fun s i bytes awake hunting empty length first second third => ?_, fun s i b rest awake hunting short suffix holds longest => ?_⟩
  · have holds : holdsSync bytes := ⟨first, fun _ => second, fun _ => third⟩
    obtain ⟨g, run⟩ := execAll_hunting awake hunting empty holds 376 le_rfl (by omega)
    have step : bytes = bytes.take 376 ++ [bytes[376]] := by
      rw [List.take_concat_get' bytes 376 (by omega), List.take_of_length_le (by omega)]
    have last : bytes[376] = 0x47 := Option.some.inj ((List.getElem?_eq_getElem (by omega)).symm.trans third)
    have whole : candidate (bytes.take 376 ++ [bytes[376]]) = bytes := by
      rw [← step]
      exact candidate_of_longest List.suffix_rfl (.inr holds) fun x hx _ => hx.length_le
    conv_lhs => rw [step]
    rw [List.map_append, execAll_append _ _ run, List.map_singleton]
    unfold execAll
    rw [exec_sourcePortByte, State.act_awake _ _ (State.awake_setSrc awake i _)]
    dsimp only
    rw [State.takeByte_hunting (r := bytes) (by rw [State.src_setSrc, if_pos rfl]; exact hunting) _ (by omega)
      (by rw [State.src_setSrc, if_pos rfl]; exact whole), if_pos length, State.src_setSrc, if_pos rfl, last]
    rw [State.setSrc_setSrc]
    rfl
  · rw [exec_sourcePortByte, s.act_awake _ awake]
    have fits := suffix.length_le
    rw [List.length_append, List.length_singleton] at fits
    dsimp only
    rw [State.takeByte_hunting hunting b (by omega) (candidate_of_longest suffix holds longest)]

end Sys2Proof.Machine
end

section
/-! SUPPORT. A request does not look at the reply list in which it waits (R151, R152): what it does and answers is that of its owner on the
state without it. -/

namespace Sys2Proof.Machine

section
variable (s : State) (p : PortNo) (l : List Item)

/-! ### Operations beside a reply list -/

theorem foldl_setReplies {α : Type} (g : State → α → State) (h : ∀ s x, g (s.setReplies p l) x = (g s x).setReplies p l) (xs : List α) :
    xs.foldl g (s.setReplies p l) = (xs.foldl g s).setReplies p l := by
  induction xs generalizing s with
  | nil => rfl
  | cons x xs ih => rw [List.foldl_cons, List.foldl_cons, h, ih]

/-- What a port holds beside its reply list. -/
theorem State.port_setReplies (q : PortNo) : (s.setReplies p l).port q = if q = p then { s.port p with replies := l } else s.port q := by
  unfold State.setReplies
  rw [State.port_setPort]
  exact if_congr eq_comm rfl rfl

theorem State.port_setReplies_authority (q : PortNo) : ((s.setReplies p l).port q).authority = (s.port q).authority := by
  rw [State.port_setReplies]
  split
  · rename_i e; rw [e]
  · rfl

theorem State.addOutcome_setReplies (q : PortNo) (r : Outcome) : (s.setReplies p l).addOutcome q r = (s.addOutcome q r).setReplies p l := by
  have ports : ∀ x y : Vector ControlPort 4, (∀ i, tget x i = tget y i) → ({ s with ports := x } : State) = { s with ports := y } :=
    fun x y h => by rw [tget_ext x y h]
  refine ports _ _ fun i => ?_
  unfold State.addOutcome State.setReplies State.setPort State.port
  simp only [tget_tset]
  by_cases pq : p = q
  · subst pq
    by_cases ip : p = i
    · subst ip; simp
    · simp [ip]
  · by_cases ip : p = i
    · subst ip; simp [Ne.symm pq]
    · by_cases iq : q = i
      · subst iq; simp [pq]
      · simp [ip, iq]

theorem State.ownerDone_setReplies (f : FeedNo) (k : PosNo) (o : Option Owner) (flags : OutcomeFlags) :
    (s.setReplies p l).ownerDone f k o flags = (s.ownerDone f k o flags).setReplies p l := by
  cases o with
  | none => rfl
  | some o => exact s.addOutcome_setReplies p l _ _

theorem State.trim_setReplies (i : SrcNo) : (s.setReplies p l).trim i = (s.trim i).setReplies p l := by
  have lags : (s.setReplies p l).lags i = s.lags i := rfl
  unfold State.trim
  rw [lags]
  split <;> rfl

theorem State.trimOpt_setReplies (i : Option SrcNo) : (s.setReplies p l).trimOpt i = (s.trimOpt i).setReplies p l := by
  cases i with
  | none => rfl
  | some i => exact s.trim_setReplies p l i

theorem State.moveOnAir_setReplies (f : FeedNo) (k : PosNo) (c : Option Cursor) (m : BitVec 4) :
    (s.setReplies p l).moveOnAir f k c m = (s.moveOnAir f k c m).setReplies p l := by
  unfold State.moveOnAir
  rw [← State.trimOpt_setReplies, ← State.trimOpt_setReplies, ← State.trimOpt_setReplies]
  rfl

theorem State.switchNow_setReplies (f : FeedNo) (k : PosNo) (t : Option SrcNo) :
    (s.setReplies p l).switchNow f k t = (s.switchNow f k t).setReplies p l := by
  cases t with
  | none => exact s.moveOnAir_setReplies p l f k none _
  | some i => exact s.moveOnAir_setReplies p l f k _ _

theorem State.seek_setReplies (f : FeedNo) (k : PosNo) (t : SrcNo) (w : Nat) (o : Option Owner) :
    (s.setReplies p l).seek f k t w o = (s.seek f k t w o).setReplies p l := by
  unfold State.seek
  rw [← State.trimOpt_setReplies, ← State.trim_setReplies]
  rfl

theorem State.takeChange_setReplies (f : FeedNo) (k : PosNo) (t : Option SrcNo) (policy : Splice) (o : Option Owner) :
    (s.setReplies p l).takeChange f k t policy o = (s.takeChange f k t policy o).setReplies p l := by
  have wait : ∀ u : State, (u.setReplies p l).searchWait f k t policy = u.searchWait f k t policy := fun _ => rfl
  have pos : (s.setReplies p l).pos f k = s.pos f k := rfl
  by_cases air : t = (s.pos f k).onAirSource
  · cases e : (s.pos f k).slot with
    | steady => rw [State.takeChange_steady_onAir o e air, State.takeChange_steady_onAir o (pos ▸ e) (pos ▸ air), State.ownerDone_setReplies]
    | seeking target w old =>
      rw [State.takeChange_seeking_onAir o e air, State.takeChange_seeking_onAir o (pos ▸ e) (pos ▸ air), pos,
        ← State.ownerDone_setReplies, ← State.trim_setReplies, State.ownerDone_setReplies]
      rfl
  · cases none' : s.searchWait f k t policy with
    | none =>
      cases e : (s.pos f k).slot with
      | steady =>
        rw [State.takeChange_steady_now o e air none', State.takeChange_steady_now o (pos ▸ e) (pos ▸ air) ((wait s).trans none'),
          State.switchNow_setReplies, State.ownerDone_setReplies]
      | seeking target w old =>
        rw [State.takeChange_seeking_now o e air none', State.takeChange_seeking_now o (pos ▸ e) (pos ▸ air) ((wait s).trans none'),
          State.ownerDone_setReplies, State.switchNow_setReplies, State.ownerDone_setReplies]
    | some v =>
      cases t with
      | none => cases policy <;> cases none'
      | some i =>
        cases e : (s.pos f k).slot with
        | steady =>
          rw [State.takeChange_steady_search o e air none', State.takeChange_steady_search o (pos ▸ e) (pos ▸ air) ((wait s).trans none'),
            State.seek_setReplies]
        | seeking target w old =>
          rw [State.takeChange_seeking_search o e air none', State.takeChange_seeking_search o (pos ▸ e) (pos ▸ air) ((wait s).trans none'),
            State.ownerDone_setReplies, State.seek_setReplies]

theorem State.handOver_setReplies (f : FeedNo) (k : PosNo) (before : Option SrcNo) (policy : Splice) (o : Option Owner) :
    (s.setReplies p l).handOver f k before policy o = (s.handOver f k before policy o).setReplies p l := by
  have differs : (s.setReplies p l).differs f k before = s.differs f k before := rfl
  unfold State.handOver
  rw [differs]
  split
  · exact State.takeChange_setReplies ..
  · rfl

theorem State.judgePosition_setReplies (f : FeedNo) (k : PosNo) (picks : Option SrcNo → Bool) :
    (s.setReplies p l).judgePosition f k picks = (s.judgePosition f k picks).setReplies p l := by
  unfold State.judgePosition
  rw [← State.handOver_setReplies]
  rfl

theorem State.healthChanged_setReplies (i : SrcNo) : (s.setReplies p l).healthChanged i = (s.healthChanged i).setReplies p l :=
  foldl_setReplies s p l _ (fun s _ => s.judgePosition_setReplies p l _ _ _) _

theorem State.permitChanged_setReplies (i : SrcNo) : (s.setReplies p l).permitChanged i = (s.permitChanged i).setReplies p l :=
  foldl_setReplies s p l _ (fun s _ => s.judgePosition_setReplies p l _ _ _) _

theorem State.restPosition_setReplies (f : FeedNo) (k : PosNo) : (s.setReplies p l).restPosition f k = (s.restPosition f k).setReplies p l := by
  unfold State.restPosition
  rw [State.moveOnAir_setReplies, State.ownerDone_setReplies]
  rfl

theorem State.stopNow_setReplies (f : FeedNo) : (s.setReplies p l).stopNow f = (s.stopNow f).setReplies p l :=
  foldl_setReplies (s.setFeed f { s.feed f with running := false }) p l _ (fun s k => s.restPosition_setReplies p l f k) _

theorem State.clearLatched_setReplies (set : BitVec 16) : (s.setReplies p l).clearLatched set = (s.clearLatched set).setReplies p l :=
  foldl_setReplies s p l _ (fun s i => by dsimp only; split <;> rfl) _

/-! ### Every request -/

/-- A change of a port's own fields beside its reply list. -/
theorem State.setPort_setReplies (x : ControlPort) : (s.setReplies p l).setPort p { x with replies := l } = (s.setPort p x).setReplies p l := by
  unfold State.setReplies
  rw [State.setPort_setPort, State.setPort_setPort, State.port_setPort, if_pos rfl]

end

/-- A request that answers beside the reply list of its port. -/
def Answers (p : PortNo) (g : State → Answer) : Prop := ∀ s l, g (State.setReplies s p l) = ((g s).1.setReplies p l, (g s).2)

section
variable (p : PortNo) (b : List Byte)

theorem State.feedOf_setReplies (s : State) (l : List Item) (c : Byte) : ((s.setReplies p l).port p).feedOf c = (s.port p).feedOf c := by
  unfold ControlPort.feedOf ControlPort.holdsFeed
  rw [State.port_setReplies_authority]

theorem State.configFeed_setReplies (s : State) (l : List Item) (c : Byte) :
    ((s.setReplies p l).port p).configFeed c = (s.port p).configFeed c := by
  unfold ControlPort.configFeed
  rw [State.port_setReplies_authority, State.feedOf_setReplies]

theorem State.feed_setReplies (s : State) (l : List Item) (f : FeedNo) : (s.setReplies p l).feed f = s.feed f := rfl

theorem State.src_setReplies (s : State) (l : List Item) (i : SrcNo) : (s.setReplies p l).src i = s.src i := rfl

theorem State.setSrc_setReplies (s : State) (l : List Item) (i : SrcNo) (x : Source) :
    (s.setReplies p l).setSrc i x = (s.setSrc i x).setReplies p l := rfl

theorem answers_ite (c : State → Prop) [∀ s, Decidable (c s)] (g h : State → Answer) (same : ∀ s l, c (s.setReplies p l) ↔ c s)
    (hg : Answers p g) (hh : Answers p h) : Answers p fun s => if c s then g s else h s := by
  intro s l
  dsimp only
  by_cases k : c s
  · rw [if_pos k, if_pos ((same s l).2 k), hg]
  · rw [if_neg k, if_neg fun k' => k ((same s l).1 k'), hh]

theorem answers_refuse (r : Result) : Answers p fun s => refuse s r := fun _ _ => rfl

theorem answers_entry (v : State → Option Entry) (r : Result) (g : Entry → State → Answer)
    (same : ∀ s l, v (State.setReplies s p l) = v s) (h : ∀ a, Answers p (g a)) : Answers p fun s => match v s with
      | none => refuse s r
      | some a => g a s := by
  intro s l
  dsimp only
  rw [same]
  cases v s with
  | none => rfl
  | some a => exact h a s l

theorem answers_setPosition : Answers p (reqSetPosition p b) := by
  intro s l
  unfold reqSetPosition
  rw [State.port_setReplies_authority, State.feedOf_setReplies]
  split
  · rfl
  · cases (s.port p).feedOf (byteAt b 0) with
    | none => rfl
    | some f =>
      cases toFin 8 (byteAt b 1).toNat with
      | none => rfl
      | some k =>
        dsimp only
        rw [show (s.setReplies p l).pos f k = s.pos f k from rfl]
        cases positionValues (s.pos f k) b with
        | none => rfl
        | some v =>
          dsimp only
          rw [State.feed_setReplies, show (s.setReplies p l).feedIds f (some k) none = s.feedIds f (some k) none from rfl]
          split
          · rfl
          · split
            · rfl
            · unfold accept
              rw [← State.handOver_setReplies, ← State.trimOpt_setReplies]
              rfl

theorem answers_release : Answers p (reqRelease p b) := by
  intro s l
  unfold reqRelease
  dsimp only
  rw [show (s.setReplies p l).holderOf p (BitVec.ofNat 16 (natAt b 0 2)) = s.holderOf p (BitVec.ofNat 16 (natAt b 0 2)) from rfl]
  cases s.holderOf p (BitVec.ofNat 16 (natAt b 0 2)) with
  | none => rfl
  | some fk =>
    unfold accept
    rw [← State.handOver_setReplies]
    rfl

/-- A source table entry put in place, and the marks judged anew (R86, R51). -/
theorem answers_withTable (i : SrcNo) (t : SourceEntry) : Answers p fun s =>
    accept (if (s.src i).table.enabled ≠ t.enabled then (s.setSrc i ((s.src i).withTable t)).healthChanged i
      else if (s.src i).table.fallbackPermit ≠ t.fallbackPermit then (s.setSrc i ((s.src i).withTable t)).permitChanged i
      else s.setSrc i ((s.src i).withTable t)) [] := by
  intro s l
  dsimp only
  rw [State.src_setReplies]
  generalize (s.src i).withTable t = y
  unfold accept
  rw [State.setSrc_setReplies]
  by_cases h : (s.src i).table.enabled ≠ t.enabled
  · rw [if_pos h, if_pos h, State.healthChanged_setReplies]
  · rw [if_neg h, if_neg h]
    by_cases k : (s.src i).table.fallbackPermit ≠ t.fallbackPermit
    · rw [if_pos k, if_pos k, State.permitChanged_setReplies]
    · rw [if_neg k, if_neg k]

theorem answers_setSource : Answers p (reqSetSource p b) := by
  unfold reqSetSource
  refine answers_ite p _ _ _ (fun s l => by rw [State.port_setReplies_authority]) (answers_refuse p _) ?_
  cases toFin 16 (byteAt b 0).toNat with
  | none => exact answers_refuse p _
  | some i =>
    cases sourceEntryAt b 1 with
    | none => exact answers_refuse p _
    | some t =>
      dsimp only
      exact answers_ite p (fun _ => !decide (present t.comps).Nodup) _ _ (fun _ _ => Iff.rfl) (answers_refuse p _) (answers_withTable p i t)

theorem answers_feedOf (g : FeedNo → State → Answer) (c : Byte) (h : ∀ f, Answers p (g f)) :
    Answers p fun s => match (s.port p).feedOf c with
      | none => refuse s .notPermitted
      | some f => g f s := by
  intro s l
  dsimp only
  rw [State.feedOf_setReplies]
  cases (s.port p).feedOf c with
  | none => rfl
  | some f => exact h f s l

theorem answers_configFeed (g : FeedNo → State → Answer) (c : Byte) (h : ∀ f, Answers p (g f)) :
    Answers p fun s => match (s.port p).configFeed c with
      | none => refuse s .notPermitted
      | some f => g f s := by
  intro s l
  dsimp only
  rw [State.configFeed_setReplies]
  cases (s.port p).configFeed c with
  | none => rfl
  | some f => exact h f s l

theorem answers_setMask : Answers p (reqSetMask p b) := by
  intro s l
  unfold reqSetMask
  dsimp only
  rw [State.port_setReplies, if_pos rfl]
  split
  · rfl
  · unfold accept
    rw [← State.setPort_setReplies]

theorem answers_readEvents : Answers p (reqReadEvents p b) := by
  intro s l
  unfold reqReadEvents
  dsimp only
  rw [State.port_setReplies, if_pos rfl]
  unfold accept
  rw [← State.setPort_setReplies]

theorem answers_readOutcomes : Answers p (reqReadOutcomes p b) := by
  intro s l
  unfold reqReadOutcomes
  dsimp only
  rw [State.port_setReplies, if_pos rfl]
  unfold accept
  rw [← State.setPort_setReplies]

theorem answers_readPort : Answers p (reqReadPort p b) := by
  intro s l
  unfold reqReadPort
  dsimp only
  rw [State.port_setReplies, if_pos rfl]
  rfl

theorem answers_postEntry : Answers p (reqPostEntry p b) := by
  have permitted : ∀ s l, postPermitted ((State.setReplies s p l).port p) b = postPermitted (s.port p) b := fun s l => by
    rw [State.port_setReplies, if_pos rfl]
    rfl
  unfold reqPostEntry
  refine answers_ite p _ _ _ (fun s l => by rw [permitted]) (answers_refuse p _) ?_
  refine answers_entry p (fun s => postedEntry p b s.day) _ _ (fun _ _ => rfl) fun e => ?_
  refine answers_ite p (fun s => s.liveTag p e.tag) _ _ (fun _ _ => Iff.rfl) (answers_refuse p _) ?_
  refine answers_ite p (fun s => !e.classRules) _ _ (fun _ _ => Iff.rfl) (answers_refuse p _) ?_
  refine answers_ite p (fun s => !s.cueLineReady e) _ _ (fun _ _ => Iff.rfl) (answers_refuse p _) ?_
  refine answers_ite p (fun s => !s.list.hasPlace p) _ _ (fun _ _ => Iff.rfl) (answers_refuse p _) ?_
  exact answers_ite p (fun s => timing (distance e.due s.now s.day) s.day = .past) _ _ (fun _ _ => Iff.rfl) (answers_refuse p _)
    fun _ _ => rfl

theorem answers_setCueLine : Answers p (reqSetCueLine p b) := by
  unfold reqSetCueLine
  refine answers_ite p _ _ _ (fun s l => by rw [State.port_setReplies_authority]) (answers_refuse p _) fun s l => ?_
  cases toFin 8 (byteAt b 0).toNat with
  | none => rfl
  | some n =>
    cases lineValues b with
    | none => rfl
    | some v => rfl

theorem answers_editPlan : Answers p (reqEditPlan p b) :=
  answers_feedOf p _ (byteAt b 0) fun f => by
    cases boolOf (byteAt b 1) with
    | none => exact answers_refuse p _
    | some copy =>
      exact answers_ite p (fun _ => !planFlagsOk (planAt b 4) (BitVec.ofNat 16 (natAt b 2 2))) _ _ (fun _ _ => Iff.rfl) (answers_refuse p _)
        (answers_ite p (fun s => (s.feed f).swapPending) _ _ (fun _ _ => Iff.rfl) (answers_refuse p _) fun _ _ => rfl)

theorem answers_stopFeed : Answers p (reqStopFeed p b) :=
  answers_configFeed p _ (byteAt b 0) fun f =>
    answers_ite p (fun s => (s.feed f).running) _ _ (fun _ _ => Iff.rfl) (fun _ _ => by unfold accept; rw [State.stopNow_setReplies])
      (answers_ite p (fun s => (s.feed f).startPending) _ _ (fun _ _ => Iff.rfl) (fun _ _ => rfl) (answers_refuse p _))

theorem answers_swapPlan : Answers p (reqSwapPlan p b) :=
  answers_feedOf p _ (byteAt b 0) fun f => answers_ite p (fun s => (s.feed f).capacity < (s.feed f).shadow.total) _ _ (fun _ _ => Iff.rfl)
    (answers_refuse p _) fun _ _ => rfl

theorem answers_setFeedRate : Answers p (reqSetFeedRate p b) :=
  answers_configFeed p _ (byteAt b 0) fun f =>
    answers_ite p (fun _ => natAt b 1 4 < Config.lowestRate ∨ Config.highestRate < natAt b 1 4) _ _ (fun _ _ => Iff.rfl) (answers_refuse p _)
      (answers_ite p (fun s => (s.feed f).running || (s.feed f).startPending) _ _ (fun _ _ => Iff.rfl) (answers_refuse p _)
        (answers_ite p (fun s => capacityOf (natAt b 1 4) s.clock.rate < (s.feed f).active.total ∨
          ((s.feed f).swapPending ∧ capacityOf (natAt b 1 4) s.clock.rate < (s.feed f).shadow.total)) _ _ (fun _ _ => Iff.rfl)
          (answers_refuse p _) fun _ _ => rfl))

theorem answers_startFeed : Answers p (reqStartFeed p b) :=
  answers_configFeed p _ (byteAt b 0) fun f => answers_ite p (fun s => (s.feed f).running || (s.feed f).startPending) _ _ (fun _ _ => Iff.rfl)
    (answers_refuse p _) fun _ _ => rfl

theorem answers_loadTable : Answers p (reqLoadTable p b) :=
  answers_configFeed p _ (byteAt b 0) fun f => by
    cases toFin 16 (byteAt b 1).toNat with
    | none => exact answers_refuse p _
    | some c =>
      exact answers_ite p (fun s => natAt b 2 2 < 1 ∨ 8190 < natAt b 2 2 ∨ (byteAt b 4).toNat < 1 ∨ 250 < (byteAt b 4).toNat) _ _
        (fun _ _ => Iff.rfl) (answers_refuse p _)
        (answers_ite p (fun s => (s.feedIds f none (some c)).contains (natAt b 2 2)) _ _ (fun _ _ => Iff.rfl) (answers_refuse p _)
          fun _ _ => rfl)

theorem answers_dropTable : Answers p (reqDropTable p b) :=
  answers_configFeed p _ (byteAt b 0) fun f s l => by
    cases toFin 16 (byteAt b 1).toNat <;> rfl

theorem answers_readPlan : Answers p (reqReadPlan p b) := answers_feedOf p _ (byteAt b 0) fun _ _ _ => rfl

theorem answers_readFeed : Answers p (reqReadFeed p b) := answers_feedOf p _ (byteAt b 0) fun _ _ _ => rfl

theorem answers_examinePosition : Answers p (reqExaminePosition p b) :=
  answers_feedOf p _ (byteAt b 0) fun f s l => by
    cases toFin 8 (byteAt b 1).toNat <;> rfl

theorem answers_setTime : Answers p (reqSetTime p b) :=
  answers_ite p (fun s => (todAt b 0).valid s.clock.rate) _ _ (fun _ _ => Iff.rfl) (fun _ _ => rfl) (answers_refuse p _)

theorem answers_cancelEntry : Answers p (reqCancelEntry p b) :=
  answers_ite p (fun s => s.list.entries.any fun e => e.named p (BitVec.ofNat 16 (natAt b 0 2))) _ _ (fun _ _ => Iff.rfl) (fun _ _ => rfl)
    (answers_refuse p _)

theorem answers_listEntries : Answers p (reqListEntries p b) :=
  answers_ite p (fun _ => 127 < (byteAt b 0).toNat) _ _ (fun _ _ => Iff.rfl) (answers_refuse p _) fun _ _ => rfl

theorem answers_readSource : Answers p (reqReadSource p b) := fun s l => by
  unfold reqReadSource
  cases toFin 16 (byteAt b 0).toNat <;> rfl

theorem answers_readHealth : Answers p (reqReadHealth p b) := fun s l => by
  unfold reqReadHealth
  cases toFin 16 (byteAt b 0).toNat <;> rfl

theorem answers_setScan : Answers p (reqSetScan p b) := by
  unfold reqSetScan
  refine answers_ite p _ _ _ (fun s l => by rw [State.port_setReplies_authority]) (answers_refuse p _) ?_
  cases toFin 16 (byteAt b 0).toNat with
  | none => exact answers_refuse p _
  | some x =>
    cases toFin 16 (byteAt b 1).toNat with
    | none => exact answers_refuse p _
    | some y => exact answers_ite p (fun _ => x ≤ y) _ _ (fun _ _ => Iff.rfl) (fun _ _ => rfl) (answers_refuse p _)

theorem answers_ackFaults : Answers p (reqAckFaults p b) := fun s l => by
  unfold reqAckFaults accept
  dsimp only
  rw [State.clearLatched_setReplies]
  rfl

/-- Every request answers beside the reply list of its port. -/
theorem answers_perform (r : Request) : Answers p (perform r p b) :=
  match r with
  | .readPort => answers_readPort p b
  | .readEvents => answers_readEvents p b
  | .setMask => answers_setMask p b
  | .readOutcomes => answers_readOutcomes p b
  | .setTime => answers_setTime p b
  | .readTime => fun _ _ => rfl
  | .postEntry => answers_postEntry p b
  | .cancelEntry => answers_cancelEntry p b
  | .clearEntries => fun _ _ => rfl
  | .listEntries => answers_listEntries p b
  | .setPosition => answers_setPosition p b
  | .release => answers_release p b
  | .examinePosition => answers_examinePosition p b
  | .setCueLine => answers_setCueLine p b
  | .setSource => answers_setSource p b
  | .readSource => answers_readSource p b
  | .setScan => answers_setScan p b
  | .ackFaults => answers_ackFaults p b
  | .readHealth => answers_readHealth p b
  | .editPlan => answers_editPlan p b
  | .swapPlan => answers_swapPlan p b
  | .setFeedRate => answers_setFeedRate p b
  | .startFeed => answers_startFeed p b
  | .stopFeed => answers_stopFeed p b
  | .readPlan => answers_readPlan p b
  | .readFeed => answers_readFeed p b
  | .loadTable => answers_loadTable p b
  | .dropTable => answers_dropTable p b

end

/-- The command of a request on an idle port, past the two checks: what its owner does and answers on the state as it stands. -/
theorem exec_idle {s : State} {p : PortNo} (awake : s.awake) (idle : (s.port p).replies = []) (r : Request) (sequence : Byte) (body : List Byte)
    (loaded : s.loader.state ≠ .loading ∨ r = .readPort) (length : body.length = reqLength r) {t : State} {reply : List Byte}
    (does : perform r p body s = (t, reply)) : exec (.ofRequest r p sequence body) s = .next (t.answered p r sequence reply) := by
  rw [exec_ofRequest_awake r p sequence body s awake, acceptFrame_of_idle s p _ idle]
  dsimp only
  rw [execute_reqCode r p body (s.setReplies p _) loaded length, replyCode_reqCode, ← State.answered_eq, answers_perform p body r, State.answered_setReplies, does]

/-- The command of a request on a port that serves it. -/
theorem exec_serves {s : State} {p : PortNo} (h : s.serves p) (r : Request) (sequence : Byte) (body : List Byte)
    (length : body.length = reqLength r) {t : State} {reply : List Byte} (does : perform r p body s = (t, reply)) :
    exec (.ofRequest r p sequence body) s = .next (t.answered p r sequence reply) :=
  exec_idle h.1 h.2.2 r sequence body (.inl h.2.1) length does

end Sys2Proof.Machine
end

section
/-! SUPPORT. The checks before a request (R153), and the requests of the clock, the scan, the faults, the outcomes and the feeds. -/

namespace Sys2Proof.Machine

/-! ### Fields of a body -/

theorem toFin_val {n : Nat} (i : Fin n) : toFin n i.val = some i := dif_pos i.isLt

theorem toFin_of_val {n k : Nat} {i : Fin n} (h : i.val = k) : toFin n k = some i := h ▸ toFin_val i

theorem toFin_eq_none {n k : Nat} : toFin n k = none ↔ n ≤ k := by
  unfold toFin
  split
  · rename_i h; simpa using h
  · rename_i h; simpa using Nat.le_of_not_lt h

theorem toFin_eq_some {n k : Nat} {i : Fin n} : toFin n k = some i ↔ i.val = k := by
  refine ⟨fun h => ?_, toFin_of_val⟩
  unfold toFin at h
  split at h
  · injection h with h; rw [← h]
  · cases h

theorem toNat_byte {n : Nat} (h : n < 256) : (BitVec.ofNat 8 n).toNat = n := by
  rw [BitVec.toNat_ofNat]
  exact Nat.mod_eq_of_lt h

/-- The feed of a byte, where the feed map holds it (R154). -/
theorem ControlPort.feedOf_held {x : ControlPort} {f : FeedNo} (h : x.authority.feedMap.getLsbD f = true) :
    x.feedOf (BitVec.ofNat 8 f.val) = some f := by
  have number : (BitVec.ofNat 8 f.val).toNat = f.val := toNat_byte (by omega)
  unfold ControlPort.feedOf ControlPort.holdsFeed
  rw [number, if_pos h, toFin_val]

theorem ControlPort.feedOf_stray {x : ControlPort} {b : Byte} (h : x.authority.feedMap.getLsbD b.toNat = false) : x.feedOf b = none := by
  unfold ControlPort.feedOf ControlPort.holdsFeed
  rw [h]
  rfl

theorem ControlPort.feedOf_unheld {x : ControlPort} {f : FeedNo} (h : x.authority.feedMap.getLsbD f = false) :
    x.feedOf (BitVec.ofNat 8 f.val) = none := by
  refine ControlPort.feedOf_stray ?_
  rw [toNat_byte (by omega)]
  exact h

/-- No feed map holds a number above 5. -/
theorem ControlPort.feedOf_above {x : ControlPort} {b : Byte} (h : 5 < b.toNat) : x.feedOf b = none :=
  ControlPort.feedOf_stray (BitVec.getLsbD_of_ge _ _ h)

theorem ControlPort.configFeed_held {x : ControlPort} {f : FeedNo} (configure : x.authority.configure = true)
    (h : x.authority.feedMap.getLsbD f = true) : x.configFeed (BitVec.ofNat 8 f.val) = some f := by
  unfold ControlPort.configFeed
  rw [if_pos configure, ControlPort.feedOf_held h]

theorem ControlPort.configFeed_unheld {x : ControlPort} {f : FeedNo}
    (h : x.authority.configure = false ∨ x.authority.feedMap.getLsbD f = false) : x.configFeed (BitVec.ofNat 8 f.val) = none := by
  unfold ControlPort.configFeed
  split
  · rename_i configure
    exact ControlPort.feedOf_unheld (h.resolve_left fun off => by rw [off] at configure; cases configure)
  · rfl

theorem ControlPort.configFeed_above {x : ControlPort} {b : Byte} (h : 5 < b.toNat) : x.configFeed b = none := by
  unfold ControlPort.configFeed
  rw [ControlPort.feedOf_above h, ite_self]

/-! ### The checks before a request -/

/-- A frame whose request is refused before it reaches its owner (R153). -/
theorem acceptFrame_refused {s : State} {p : PortNo} (idle : (s.port p).replies = []) (q : Frame) {r : Result}
    (refused : ∀ u : State, u.loader.state = s.loader.state → execute p q.code q.body u = refuse u r) :
    s.acceptFrame p q = s.setReplies p [.answering (frameBytes q.sequence (replyCode q.code) [resultByte r])] := by
  rw [acceptFrame_of_idle s p q idle, refused (s.setReplies p _) rfl]
  exact State.setReplies_setReplies ..

theorem rx_setReplies (s : State) (p : PortNo) (l : List Item) : ((s.setReplies p l).port p).rx = (s.port p).rx := by
  rw [State.port_setReplies, if_pos rfl]

/-- SET MASK, READ EVENTS and CLEAR ENTRIES leave the receive state (log 8). -/
theorem perform_rx (r : Request) (h : r = .setMask ∨ r = .readEvents ∨ r = .clearEntries) (p : PortNo) (b : List Byte) (s : State) :
    ((perform r p b s).1.port p).rx = (s.port p).rx := by
  have same : ∀ x : ControlPort, ((s.setPort p x).port p) = x := fun x => by rw [State.port_setPort, if_pos rfl]
  rcases h with rfl | rfl | rfl
  · change ((reqSetMask p b s).1.port p).rx = _
    unfold reqSetMask
    dsimp only
    split
    · rfl
    · rw [accept_state, same]
  · change ((s.setPort p { s.port p with notices := 0 }).port p).rx = _
    rw [same]
  · rfl

/-- Settles O33: the three checks in their order, each with its reply. -/
theorem checksBeforeRequest : Obligations.ChecksBeforeRequest := by
  unfold Obligations.ChecksBeforeRequest
  intro s p sequence body awake idle
  refine ⟨fun code stray => ?_, fun r loading other => ?_, fun r loaded length => ?_, fun r t which run => ?_⟩
  · have none' : reqOf code = none := List.find?_eq_none.2 fun r _ => by simpa using (stray r).symm
    rw [exec_unknownRequest, s.act_awake _ awake]
    dsimp only
    rw [acceptFrame_refused idle ⟨sequence, code, body⟩ (r := .unknownRequest) fun u _ => by unfold execute; rw [none']]
    rfl
  · rw [exec_ofRequest_awake r p sequence body s awake,
      acceptFrame_refused idle ⟨sequence, reqCode r, body⟩ (r := .notReady) fun u same => by
        unfold execute
        rw [(Laws.RequestCode.code_names r).2]
        exact if_pos ⟨same.trans loading, other⟩, replyCode_reqCode]
    rfl
  · rw [exec_ofRequest_awake r p sequence body s awake,
      acceptFrame_refused idle ⟨sequence, reqCode r, body⟩ (r := .malformed) fun u same => by
        unfold execute
        rw [(Laws.RequestCode.code_names r).2]
        dsimp only
        rw [if_neg fun h => loaded.elim (· (same ▸ h.1)) h.2, if_pos length], replyCode_reqCode]
    rfl
  · rw [exec_ofRequest_awake r p sequence body s awake, acceptFrame_of_idle s p _ idle] at run
    injection run with run
    rw [← run, rx_setReplies]
    unfold execute
    dsimp only
    rw [(Laws.RequestCode.code_names r).2]
    dsimp only
    split
    · exact rx_setReplies ..
    · split
      · exact rx_setReplies ..
      · rw [perform_rx r which, rx_setReplies]

/-! ### Time -/

theorem TimeOfDay.valid_iff (t : TimeOfDay) (r : FrameRate) :
    t.valid r = true ↔ t.hours ≤ 23 ∧ t.minutes ≤ 59 ∧ t.seconds ≤ 59 ∧ t.frames < r.fps := by
  unfold TimeOfDay.valid
  simp only [Bool.and_eq_true, decide_eq_true_eq, and_assoc]

/-- The tick that a request reads is within a frame and the late window of the frame start (R13, log 12). -/
theorem Clock.Sound.shown_lt {c : Clock} (h : c.Sound) : (c.shown - c.frameStart).toNat < c.rate.ticks + 270 := by
  obtain ⟨-, -, -, ⟨timer, -⟩, -, ⟨low, high⟩, -⟩ := h
  have frame : 1 ≤ c.rate.ticks := by cases c.rate <;> decide
  unfold Clock.shown
  unfold Clock.untilUnderflow at low high
  by_cases u : c.atUnderflow = true
  · rw [if_pos u] at low high ⊢
    have back : (c.tick - 1 - c.frameStart).toNat = (c.tick - c.frameStart).toNat - 1 := by
      rw [show c.tick - 1 - c.frameStart = c.tick - c.frameStart - 1 by abel]
      generalize c.tick - c.frameStart = d at low ⊢
      bv_omega
    rw [back]
    omega
  · rw [if_neg u] at low high ⊢
    omega

/-- Settles O34: SET TIME by the validity of its body, READ TIME field by field. -/
theorem timeRequestsAnswered : Obligations.TimeRequestsAnswered := by
  unfold Obligations.TimeRequestsAnswered
  intro s p sequence h m sec f serves
  refine ⟨?_, ?_, fun sound => sound.shown_lt⟩
  · have valid := TimeOfDay.valid_iff ⟨h.toNat, m.toNat, sec.toNat, f.toNat⟩ s.clock.rate
    split
    · rename_i ok
      exact exec_serves serves .setTime sequence [h, m, sec, f] rfl (if_pos (valid.2 ok))
    · rename_i bad
      exact exec_serves serves .setTime sequence [h, m, sec, f] rfl (if_neg fun ok => bad (valid.1 ok))
  · refine exec_serves serves .readTime sequence [] rfl ?_
    change reqReadTime p [] s = _
    unfold reqReadTime accept yesNoByte
    cases s.clock.load <;> rfl

/-! ### Outcomes and the port -/

/-- Settles O37: both replies field by field. -/
theorem outcomesAndPortRead : Obligations.OutcomesAndPortRead := by
  unfold Obligations.OutcomesAndPortRead
  intro s p sequence awake idle
  refine ⟨fun loaded => exec_idle awake idle .readOutcomes sequence [] (.inl loaded) rfl rfl,
    exec_idle awake idle .readPort sequence [] (.inr rfl) rfl ?_⟩
  change reqReadPort p [] s = _
  unfold reqReadPort accept
  dsimp only
  cases (s.port p).pendingSpeed with
  | none => rfl
  | some v => cases v <;> rfl

end Sys2Proof.Machine
end

section
/-! SUPPORT. The requests of the scan, the faults and the feeds, and the reads. -/

namespace Sys2Proof.Machine

/-- Two bodies that a request takes alike are answered alike. -/
theorem exec_same {s : State} {p : PortNo} (h : s.serves p) (r : Request) (sequence : Byte) (body other : List Byte)
    (length : body.length = reqLength r) (length' : other.length = reqLength r) (same : perform r p other s = perform r p body s) :
    exec (.ofRequest r p sequence other) s = exec (.ofRequest r p sequence body) s := by
  rcases does : perform r p body s with ⟨t, reply⟩
  exact (exec_serves h r sequence other length' (same.trans does)).trans (exec_serves h r sequence body length does).symm

/-! ### Numbers in a body -/

theorem byteAt_eq_get {b : List Byte} {i : Nat} (h : i < b.length) : byteAt b i = b[i] := by
  unfold byteAt
  rw [List.getD_eq_getElem?_getD, List.getElem?_eq_getElem h]
  rfl

/-- The number of two bytes by its bytes (R170). -/
theorem natAt_two_byteAt {b : List Byte} {i : Nat} (h : i + 2 ≤ b.length) :
    natAt b i 2 = (byteAt b i).toNat * 256 + (byteAt b (i + 1)).toNat := by
  refine natAt_two b i _ _ ?_
  rw [byteAt_eq_get (by omega), byteAt_eq_get (by omega), List.drop_eq_getElem_cons (by omega), List.drop_eq_getElem_cons (by omega)]
  rfl

/-- A two-byte number written and read (R170). -/
theorem natAt_natBytes_two (front rest : List Byte) {n : Nat} (h : n < 65536) : natAt (front ++ natBytes 2 n ++ rest) front.length 2 = n :=
  (natAt_natBytes front rest 2 n).trans (Nat.mod_eq_of_lt h)

/-! ### Scan and faults -/

theorem State.clearLatched_src (s : State) (set : BitVec 16) (j : SrcNo) :
    (s.clearLatched set).src j = if set.getLsbD j then { s.src j with latched := .clear } else s.src j := by
  obtain ⟨-, each⟩ := foldl_each (fun s i => s.src i) (fun _ => ()) (fun _ i x => if set.getLsbD i.val then { x with latched := .clear } else x)
    (fun s i => if set.getLsbD i.val then s.setSrc i { s.src i with latched := .clear } else s)
    (fun s i j => by
      split
      · rw [State.src_setSrc]
      · split
        · rename_i e; rw [← e]
        · rfl)
    (fun _ _ => rfl) allSources (by decide) s
  exact (each j).trans (if_pos (mem_allSources j))

theorem State.clearLatched_eq (s : State) (set : BitVec 16) : s.clearLatched set = { s with sources := (s.clearLatched set).sources } :=
  foldl_keeps (fun t => t = { s with sources := t.sources }) _ (fun t i h => by
    dsimp only
    split
    · rw [h]; rfl
    · exact h) allSources s rfl

/-- A set gathered bit by bit. -/
theorem getLsbD_foldl_bits (c : SrcNo → Bool) (l : List SrcNo) (a : BitVec 16) (j : SrcNo) :
    (l.foldl (fun (a : BitVec 16) i => if c i then a ||| (1#16 <<< i.val) else a) a).getLsbD j.val =
      (a.getLsbD j.val || (decide (j ∈ l) && c j)) := by
  induction l generalizing a with
  | nil => simp
  | cons i l ih =>
    have bit : (1#16 <<< i.val).getLsbD j.val = decide (j = i) := by
      have one : ∀ i j : SrcNo, (1#16 <<< i.val).getLsbD j.val = decide (j = i) := by decide
      exact one i j
    rw [List.foldl_cons, ih]
    by_cases e : j = i
    · subst e
      by_cases k : c j
      · rw [if_pos k, BitVec.getLsbD_or, bit]
        simp [k]
      · simp [k]
    · by_cases k : c i
      · rw [if_pos k, BitVec.getLsbD_or, bit]
        simp [e]
      · rw [if_neg k]
        simp [e]

theorem State.latchedSet_bit (s : State) (set : BitVec 16) (j : SrcNo) :
    (s.latchedSet set).getLsbD j = (set.getLsbD j && (s.src j).latched.flag) := by
  unfold State.latchedSet
  rw [getLsbD_foldl_bits (fun i => set.getLsbD i.val && (s.src i).latched.flag)]
  simp [mem_allSources]

/-- Settles O47: SET SCAN by its checks, ACK FAULTS source by source. -/
theorem scanSetAndFaultsAcknowledged : Obligations.ScanSetAndFaultsAcknowledged := by
  unfold Obligations.ScanSetAndFaultsAcknowledged
  intro s p sequence first last set serves
  have scan : ∀ {t reply}, reqSetScan p [first, last] s = (t, reply) →
      exec (.setScan p sequence [first, last]) s = .next (t.answered p .setScan sequence reply) :=
    fun does => exec_serves serves .setScan sequence _ rfl does
  refine ⟨fun off => scan ?_, fun on => ⟨fun bad => scan ?_, fun a b ha hb le => scan ?_⟩, ?_⟩
  · unfold reqSetScan
    rw [off]
    rfl
  · unfold reqSetScan
    rw [on]
    change (match toFin 16 first.toNat, toFin 16 last.toNat with
      | some x, some y => if x ≤ y then accept { s with scan := ⟨x, y, x⟩ } [] else refuse s .range
      | _, _ => refuse s .range) = _
    cases ha : toFin 16 first.toNat with
    | none => rfl
    | some a =>
      cases hb : toFin 16 last.toNat with
      | none => rfl
      | some b =>
        rw [toFin_eq_some] at ha hb
        exact if_neg fun le : a ≤ b => bad ⟨by rw [← ha, ← hb]; exact le, by omega⟩
  · unfold reqSetScan
    rw [on]
    change (match toFin 16 first.toNat, toFin 16 last.toNat with
      | some x, some y => if x ≤ y then accept { s with scan := ⟨x, y, x⟩ } [] else refuse s .range
      | _, _ => refuse s .range) = _
    rw [toFin_of_val ha, toFin_of_val hb]
    exact if_pos le
  · have whole : natAt [set.extractLsb' 8 8, set.extractLsb' 0 8] 0 2 = set.toNat :=
      (natAt_two _ _ _ _ rfl).trans (toNat_bytes_of_word set)
    refine ⟨(s.clearLatched set).sources, s.latchedSet set, ?_, fun j => ⟨s.latchedSet_bit set j, s.clearLatched_src set j⟩⟩
    rw [← State.clearLatched_eq]
    refine exec_serves serves .ackFaults sequence _ rfl ?_
    change reqAckFaults p _ s = _
    unfold reqAckFaults
    rw [whole, BitVec.ofNat_toNat, BitVec.setWidth_eq]
    rfl

/-! ### Feeds -/

/-- An outcome by the branches of its state. -/
theorem outcome_ite {c : Prop} [Decidable c] {x : Host.Outcome State Fault Refusal} {a b : State} (yes : c → x = .next a)
    (no : ¬c → x = .next b) : x = .next (if c then a else b) := by
  split
  · exact yes ‹_›
  · exact no ‹_›

/-- A request whose feed byte names a feed of the port's (R154). -/
theorem match_feed {o : Option FeedNo} (r : Answer) (g : FeedNo → Answer) : ∀ {f}, o = some f → (match o with
    | none => r
    | some f => g f) = g f := by
  rintro f rfl
  rfl

theorem match_no_feed {o : Option FeedNo} (r : Answer) (g : FeedNo → Answer) : o = none → (match o with
    | none => r
    | some f => g f) = r := by
  rintro rfl
  rfl

section
variable {s : State} {p : PortNo} (serves : s.serves p) (sequence : Byte)
include serves

theorem exec_swapPlan_none {b : Byte} (h : (s.port p).feedOf b = none) :
    exec (.swapPlan p sequence [b]) s = .next (s.answered p .swapPlan sequence [0x05]) :=
  exec_serves serves .swapPlan sequence [b] rfl (match_no_feed _ _ h)

theorem exec_swapPlan_some {b : Byte} {f : FeedNo} (h : (s.port p).feedOf b = some f) :
    exec (.swapPlan p sequence [b]) s = .next (if (s.feed f).capacity < (s.feed f).shadow.total then s.answered p .swapPlan sequence [0x0B]
      else (s.setFeed f { s.feed f with swapPending := true }).answered p .swapPlan sequence [0x00]) := by
  exact outcome_ite (fun heavy => exec_serves serves .swapPlan sequence [b] rfl ((match_feed _ _ h).trans (if_pos heavy)))
    fun light => exec_serves serves .swapPlan sequence [b] rfl ((match_feed _ _ h).trans (if_neg light))

theorem exec_startFeed_none {b : Byte} (h : (s.port p).configFeed b = none) :
    exec (.startFeed p sequence [b]) s = .next (s.answered p .startFeed sequence [0x05]) := by
  exact exec_serves serves .startFeed sequence [b] rfl (match_no_feed _ _ h)

theorem exec_startFeed_some {b : Byte} {f : FeedNo} (h : (s.port p).configFeed b = some f) :
    exec (.startFeed p sequence [b]) s = .next (if (s.feed f).running = true ∨ (s.feed f).startPending = true then
        s.answered p .startFeed sequence [0x0D]
      else (s.setFeed f { s.feed f with startPending := true }).answered p .startFeed sequence [0x00]) := by
  exact outcome_ite (fun active => exec_serves serves .startFeed sequence [b] rfl ((match_feed _ _ h).trans (if_pos (Bool.or_eq_true_iff.2 active))))
    fun rest => exec_serves serves .startFeed sequence [b] rfl ((match_feed _ _ h).trans (if_neg fun k => rest (Bool.or_eq_true_iff.1 k)))

theorem exec_stopFeed_none {b : Byte} (h : (s.port p).configFeed b = none) :
    exec (.stopFeed p sequence [b]) s = .next (s.answered p .stopFeed sequence [0x05]) := by
  exact exec_serves serves .stopFeed sequence [b] rfl (match_no_feed _ _ h)

variable {rate : Nat} (small : rate < 4294967296)

omit serves in
theorem setFeedRate_length (b : Byte) (rate : Nat) : ([b] ++ natBytes 4 rate).length = reqLength .setFeedRate := by
  rw [List.length_append, natBytes_length]
  rfl

theorem exec_setFeedRate_none {b : Byte} (h : (s.port p).configFeed b = none) :
    exec (.setFeedRate p sequence ([b] ++ natBytes 4 rate)) s = .next (s.answered p .setFeedRate sequence [0x05]) := by
  exact exec_serves serves .setFeedRate sequence _ (setFeedRate_length b rate) (match_no_feed _ _ h)

include small in
theorem exec_setFeedRate_some {b : Byte} {f : FeedNo} (h : (s.port p).configFeed b = some f) :
    exec (.setFeedRate p sequence ([b] ++ natBytes 4 rate)) s =
      .next (if rate < 1504000 ∨ 90240000 < rate then s.answered p .setFeedRate sequence [0x04]
      else if (s.feed f).running = true ∨ (s.feed f).startPending = true then s.answered p .setFeedRate sequence [0x0D]
      else if capacityOf rate s.clock.rate < (s.feed f).active.total ∨
          ((s.feed f).swapPending = true ∧ capacityOf rate s.clock.rate < (s.feed f).shadow.total) then
        s.answered p .setFeedRate sequence [0x0B]
      else (s.setFeed f { s.feed f with rate := rate, capacity := capacityOf rate s.clock.rate }).answered p .setFeedRate sequence
        ([0x00] ++ natBytes 2 (capacityOf rate s.clock.rate))) := by
  have number : natAt ([b] ++ natBytes 4 rate) 1 4 = rate := by
    have read := natAt_natBytes [b] [] 4 rate
    rw [List.append_nil, Nat.mod_eq_of_lt (by omega)] at read
    exact read
  have does : reqSetFeedRate p ([b] ++ natBytes 4 rate) s =
      if rate < Config.lowestRate ∨ Config.highestRate < rate then refuse s .range
      else if (s.feed f).running || (s.feed f).startPending then refuse s .feedState
      else if capacityOf rate s.clock.rate < (s.feed f).active.total ∨
        ((s.feed f).swapPending ∧ capacityOf rate s.clock.rate < (s.feed f).shadow.total) then refuse s .overbooked
      else accept (s.setFeed f { s.feed f with rate := rate, capacity := capacityOf rate s.clock.rate })
        (natBytes 2 (capacityOf rate s.clock.rate)) := by
    unfold reqSetFeedRate
    rw [number]
    exact match_feed _ _ h
  have answer := fun {t reply} does => exec_serves (t := t) (reply := reply) serves .setFeedRate sequence _ (setFeedRate_length b rate) does
  refine outcome_ite (fun off => answer (does.trans (if_pos off))) fun off => ?_
  refine outcome_ite (fun active => answer (does.trans ((if_neg off).trans (if_pos (Bool.or_eq_true_iff.2 active))))) fun rest => ?_
  have rest' : ¬((s.feed f).running || (s.feed f).startPending) = true := fun k => rest (Bool.or_eq_true_iff.1 k)
  exact outcome_ite (fun heavy => answer (does.trans ((if_neg off).trans ((if_neg rest').trans (if_pos heavy)))))
    fun light => answer (does.trans ((if_neg off).trans ((if_neg rest').trans (if_neg light))))

end

/-- Settles O49: the checks of each request in their order. -/
theorem feedRequestsAnswered : Obligations.FeedRequestsAnswered := by
  unfold Obligations.FeedRequestsAnswered
  intro s p sequence f rate serves small
  have held : ∀ {a b : Bool}, ¬(a = false ∨ b = false) → a = true ∧ b = true := by decide
  refine ⟨outcome_ite (fun off => exec_swapPlan_none serves sequence (ControlPort.feedOf_unheld off)) fun on =>
      exec_swapPlan_some serves sequence (ControlPort.feedOf_held (Bool.of_not_eq_false on)),
    outcome_ite (fun off => exec_setFeedRate_none serves sequence (ControlPort.configFeed_unheld off)) fun on =>
      exec_setFeedRate_some serves sequence small (ControlPort.configFeed_held (held on).1 (held on).2),
    outcome_ite (fun off => exec_startFeed_none serves sequence (ControlPort.configFeed_unheld off)) fun on =>
      exec_startFeed_some serves sequence (ControlPort.configFeed_held (held on).1 (held on).2),
    fun b above => ?_⟩
  have none' : (s.port p).configFeed b = none := ControlPort.configFeed_above above
  exact ⟨exec_swapPlan_none serves sequence (ControlPort.feedOf_above above), exec_setFeedRate_none serves sequence none',
    exec_startFeed_none serves sequence none', exec_stopFeed_none serves sequence none'⟩

end Sys2Proof.Machine
end

section
/-! SUPPORT. Tables loaded and dropped, plans edited, and the reads of sources and feeds. -/

namespace Sys2Proof.Machine

/-! ### The carousel -/

section
variable {s : State} {p : PortNo} (serves : s.serves p) (sequence : Byte)

theorem loadTable_length (b c interval : Byte) (id : Nat) {payload : List Byte} (h : payload.length = 184) :
    ([b, c] ++ natBytes 2 id ++ [interval] ++ payload).length = reqLength .loadTable := by
  simp only [List.length_append, natBytes_length, List.length_cons, List.length_nil, h]
  rfl

include serves

theorem exec_loadTable_none {b : Byte} (c interval : Byte) (id : Nat) {payload : List Byte} (length : payload.length = 184)
    (h : (s.port p).configFeed b = none) :
    exec (.loadTable p sequence ([b, c] ++ natBytes 2 id ++ [interval] ++ payload)) s = .next (s.answered p .loadTable sequence [0x05]) :=
  exec_serves serves .loadTable sequence _ (loadTable_length b c interval id length) (match_no_feed _ _ h)

theorem exec_loadTable_stray {b c : Byte} (interval : Byte) (id : Nat) {payload : List Byte} (length : payload.length = 184) {f : FeedNo}
    (h : (s.port p).configFeed b = some f) (stray : 15 < c.toNat) :
    exec (.loadTable p sequence ([b, c] ++ natBytes 2 id ++ [interval] ++ payload)) s = .next (s.answered p .loadTable sequence [0x04]) := by
  have none' : toFin 16 c.toNat = none := toFin_eq_none.2 stray
  refine exec_serves serves .loadTable sequence _ (loadTable_length b c interval id length) ((match_feed _ _ h).trans ?_)
  change (match toFin 16 c.toNat with
    | none => refuse s .range
    | some c => _) = _
  rw [none']
  rfl

theorem exec_loadTable_some {b c : Byte} (interval : Byte) {id : Nat} {payload : List Byte} (length : payload.length = 184)
    (small : id < 65536) {f : FeedNo} (h : (s.port p).configFeed b = some f) {slot : TableNo} (number : slot.val = c.toNat) :
    exec (.loadTable p sequence ([b, c] ++ natBytes 2 id ++ [interval] ++ payload)) s =
      .next (if id < 1 ∨ 8190 < id ∨ interval.toNat < 1 ∨ 250 < interval.toNat then s.answered p .loadTable sequence [0x04]
      else if id ∈ s.feedIds f none (some slot) then s.answered p .loadTable sequence [0x0E]
      else (s.setFeed f { s.feed f with
          carousel := tset (s.feed f).carousel slot (some ⟨id, interval.toNat, payload, interval.toNat, true⟩) }).answered
        p .loadTable sequence [0x00]) := by
  have read : natAt ([b, c] ++ natBytes 2 id ++ [interval] ++ payload) 2 2 = id := by
    rw [List.append_assoc _ [interval]]
    exact natAt_natBytes_two [b, c] ([interval] ++ payload) small
  have does : reqLoadTable p ([b, c] ++ natBytes 2 id ++ [interval] ++ payload) s =
      if id < 1 ∨ 8190 < id ∨ interval.toNat < 1 ∨ 250 < interval.toNat then refuse s .range
      else if (s.feedIds f none (some slot)).contains id then refuse s .duplicateId
      else accept (s.setFeed f { s.feed f with
        carousel := tset (s.feed f).carousel slot (some ⟨id, interval.toNat, payload, interval.toNat, true⟩) }) [] := by
    unfold reqLoadTable
    rw [read]
    refine (match_feed _ _ h).trans ?_
    dsimp only
    rw [show (byteAt ([b, c] ++ natBytes 2 id ++ [interval] ++ payload) 1).toNat = slot.val from number.symm, toFin_val]
    rfl
  have answer := fun {t reply} does =>
    exec_serves (t := t) (reply := reply) serves .loadTable sequence _ (loadTable_length b c interval id length) does
  refine outcome_ite (fun out => answer (does.trans (if_pos out))) fun within => ?_
  refine outcome_ite (fun held => answer (does.trans ((if_neg within).trans (if_pos (List.contains_iff_mem.2 held))))) fun free => ?_
  exact answer (does.trans ((if_neg within).trans (if_neg fun k => free (List.contains_iff_mem.1 k))))

theorem exec_dropTable_none {b : Byte} (c : Byte) (h : (s.port p).configFeed b = none) :
    exec (.dropTable p sequence [b, c]) s = .next (s.answered p .dropTable sequence [0x05]) :=
  exec_serves serves .dropTable sequence _ rfl (match_no_feed _ _ h)

theorem exec_dropTable_stray {b c : Byte} {f : FeedNo} (h : (s.port p).configFeed b = some f) (stray : 15 < c.toNat) :
    exec (.dropTable p sequence [b, c]) s = .next (s.answered p .dropTable sequence [0x04]) := by
  have none' : toFin 16 c.toNat = none := toFin_eq_none.2 stray
  refine exec_serves serves .dropTable sequence _ rfl ((match_feed _ _ h).trans ?_)
  change (match toFin 16 c.toNat with
    | none => refuse s .range
    | some c => _) = _
  rw [none']
  rfl

theorem exec_dropTable_some {b c : Byte} {f : FeedNo} (h : (s.port p).configFeed b = some f) {slot : TableNo} (number : slot.val = c.toNat) :
    exec (.dropTable p sequence [b, c]) s =
      .next ((s.setFeed f { s.feed f with carousel := tset (s.feed f).carousel slot none }).answered p .dropTable sequence [0x00]) := by
  refine exec_serves serves .dropTable sequence _ rfl ((match_feed _ _ h).trans ?_)
  change (match toFin 16 c.toNat with
    | none => refuse s .range
    | some c => accept (s.setFeed f { s.feed f with carousel := tset (s.feed f).carousel c none }) []) = _
  rw [toFin_of_val number]
  rfl

end

/-- Settles O51: the checks of both requests in their order. -/
theorem tablesLoadedAndDropped : Obligations.TablesLoadedAndDropped := by
  unfold Obligations.TablesLoadedAndDropped
  intro s p sequence c interval f id payload serves small length
  refine ⟨fun off => ?_, fun configure held => ?_, fun b above => ?_⟩
  · have none' := ControlPort.configFeed_unheld off
    exact ⟨exec_loadTable_none serves sequence c interval id length none', exec_dropTable_none serves sequence c none'⟩
  · have some' := ControlPort.configFeed_held configure held
    exact ⟨fun stray => ⟨exec_loadTable_stray serves sequence interval id length some' stray, exec_dropTable_stray serves sequence some' stray⟩,
      fun slot number => ⟨exec_loadTable_some serves sequence interval length small some' number,
        exec_dropTable_some serves sequence some' number⟩⟩
  · have none' : (s.port p).configFeed b = none := ControlPort.configFeed_above above
    exact ⟨exec_loadTable_none serves sequence c interval id length none', exec_dropTable_none serves sequence c none'⟩

/-! ### Plans -/

theorem natBytes_two (n : Nat) : natBytes 2 n = [BitVec.ofNat 8 (n / 256), BitVec.ofNat 8 n] := rfl

theorem toNat_natBytes_two {n : Nat} (h : n < 65536) : (BitVec.ofNat 8 (n / 256)).toNat * 256 + (BitVec.ofNat 8 n).toNat = n := by
  simp only [BitVec.toNat_ofNat]
  omega

theorem planAt_share (b : List Byte) (i : Nat) (k : PosNo) : tget (planAt b i).shares k = natAt b (i + 2 * k.val) 2 := by
  fin_cases k <;> rfl

theorem Vector.toList_eight {α : Type} (v : Vector α 8) :
    v.toList = [tget v 0, tget v 1, tget v 2, tget v 3, tget v 4, tget v 5, tget v 6, tget v 7] :=
  List.ext_getElem (by simp) fun n h1 h2 => by
    have : n = 0 ∨ n = 1 ∨ n = 2 ∨ n = 3 ∨ n = 4 ∨ n = 5 ∨ n = 6 ∨ n = 7 := by simp at h2; omega
    rcases this with rfl | rfl | rfl | rfl | rfl | rfl | rfl | rfl <;> simp [tget]

theorem Plan.ext_shares {x y : Plan} (shares : ∀ k, tget x.shares k = tget y.shares k) (carousel : x.carousel = y.carousel) : x = y := by
  obtain ⟨a, b⟩ := x
  obtain ⟨c, d⟩ := y
  cases carousel
  rw [tget_ext a c shares]

/-- A plan read back from its bytes (12.4). -/
theorem planAt_planBytes (b0 b1 b2 b3 : Byte) {x : Plan} (shares : ∀ k, tget x.shares k < 65536) (carousel : x.carousel < 256) :
    planAt (b0 :: b1 :: b2 :: b3 :: planBytes x) 4 = x := by
  refine Plan.ext_shares (fun k => ?_) ?_
  · rw [planAt_share, planBytes, Vector.toList_eight]
    refine (natAt_two _ _ (BitVec.ofNat 8 (tget x.shares k / 256)) (BitVec.ofNat 8 (tget x.shares k)) ?_).trans (toNat_natBytes_two (shares k))
    fin_cases k <;> rfl
  · change (byteAt (b0 :: b1 :: b2 :: b3 :: planBytes x) 20).toNat = _
    rw [planBytes, Vector.toList_eight]
    exact toNat_byte carousel

/-- The items written into a vector where a test says so. -/
theorem tget_foldl_tset {α : Type} {n : Nat} (c : Fin n → Bool) (given : Vector α n) (l : List (Fin n)) (v : Vector α n) (j : Fin n) :
    tget (l.foldl (fun v k => if c k then tset v k (tget given k) else v) v) j = if j ∈ l ∧ c j then tget given j else tget v j := by
  induction l generalizing v with
  | nil => simp
  | cons k l ih =>
    rw [List.foldl_cons, ih]
    by_cases e : j = k
    · subst e
      by_cases h : c j <;> simp [h]
    · by_cases h : c k <;> simp [h, e, Ne.symm e]

theorem Plan.edit_share (base given : Plan) (flags : BitVec 16) (k : PosNo) :
    tget (base.edit given flags).shares k = if flags.getLsbD k.val then tget given.shares k else tget base.shares k := by
  unfold Plan.edit
  rw [tget_foldl_tset (fun k : PosNo => flags.getLsbD k.val)]
  simp [mem_allPlaces]

theorem planFlagsOk_iff (given : Plan) (flags : BitVec 16) :
    planFlagsOk given flags = true ↔ flags.toNat < 512 ∧ ∀ k : PosNo, flags.getLsbD k.val = true → tget given.shares k ≤ 4095 := by
  unfold planFlagsOk
  simp only [Bool.and_eq_true, decide_eq_true_eq, List.all_eq_true, Bool.or_eq_true, Bool.not_eq_true', mem_allPlaces, true_implies]
  refine and_congr_right fun _ => forall_congr' fun k => ?_
  cases flags.getLsbD k.val <;> simp

/-- The shares that are not flagged are not read (R117). -/
theorem Plan.edit_congr {given given' : Plan} {flags : BitVec 16}
    (shares : ∀ k : PosNo, flags.getLsbD k.val = true → tget given'.shares k = tget given.shares k)
    (carousel : flags.getLsbD 8 = true → given'.carousel = given.carousel) :
    planFlagsOk given' flags = planFlagsOk given flags ∧ ∀ base : Plan, base.edit given' flags = base.edit given flags := by
  refine ⟨?_, fun base => Plan.ext_shares (fun k => ?_) ?_⟩
  · rw [Bool.eq_iff_iff, planFlagsOk_iff, planFlagsOk_iff]
    refine and_congr_right fun _ => forall_congr' fun k => ?_
    refine ⟨fun h on => shares k on ▸ h on, fun h on => (shares k on).symm ▸ h on⟩
  · rw [Plan.edit_share, Plan.edit_share]
    split
    · exact shares k ‹_›
    · rfl
  · unfold Plan.edit
    dsimp only
    split
    · exact carousel ‹_›
    · rfl

section
variable {s : State} {p : PortNo} (serves : s.serves p) (sequence : Byte) {body : List Byte} (length : body.length = 21)
include serves length

theorem exec_editPlan_none (h : (s.port p).feedOf (byteAt body 0) = none) :
    exec (.editPlan p sequence body) s = .next (s.answered p .editPlan sequence [0x05]) :=
  exec_serves serves .editPlan sequence body length (match_no_feed _ _ h)

theorem exec_editPlan_basis {f : FeedNo} (h : (s.port p).feedOf (byteAt body 0) = some f) (basis : boolOf (byteAt body 1) = none) :
    exec (.editPlan p sequence body) s = .next (s.answered p .editPlan sequence [0x04]) := by
  refine exec_serves serves .editPlan sequence body length ((match_feed _ _ h).trans ?_)
  rw [basis]
  rfl

theorem exec_editPlan_flags {f : FeedNo} (h : (s.port p).feedOf (byteAt body 0) = some f)
    (bad : planFlagsOk (planAt body 4) (BitVec.ofNat 16 (natAt body 2 2)) = false) :
    exec (.editPlan p sequence body) s = .next (s.answered p .editPlan sequence [0x04]) := by
  refine exec_serves serves .editPlan sequence body length ((match_feed _ _ h).trans ?_)
  cases boolOf (byteAt body 1) with
  | none => rfl
  | some copy =>
    dsimp only
    rw [bad]
    rfl

theorem exec_editPlan_some {f : FeedNo} (h : (s.port p).feedOf (byteAt body 0) = some f) {copy : Bool} (basis : boolOf (byteAt body 1) = some copy)
    (good : planFlagsOk (planAt body 4) (BitVec.ofNat 16 (natAt body 2 2)) = true) {plan : Plan}
    (edited : (if copy then (s.feed f).active else (s.feed f).shadow).edit (planAt body 4) (BitVec.ofNat 16 (natAt body 2 2)) = plan) :
    exec (.editPlan p sequence body) s = .next (if (s.feed f).swapPending then s.answered p .editPlan sequence [0x0C]
      else (s.setFeed f ((s.feed f).withShadow plan)).answered p .editPlan sequence
        (0x00 :: (natBytes 2 plan.total ++ natBytes 2 (s.feed f).capacity ++ [yesNoByte (decide (plan.total ≤ (s.feed f).capacity))]))) := by
  have does : reqEditPlan p body s = if (s.feed f).swapPending then refuse s .planPending
      else accept (s.setFeed f ((s.feed f).withShadow plan))
        (natBytes 2 plan.total ++ natBytes 2 (s.feed f).capacity ++ [yesNoByte (decide (plan.total ≤ (s.feed f).capacity))]) := by
    refine (match_feed _ _ h).trans ?_
    rw [basis]
    dsimp only
    rw [good, edited]
    rfl
  exact outcome_ite (fun pending => exec_serves serves .editPlan sequence body length (does.trans (if_pos pending)))
    fun free => exec_serves serves .editPlan sequence body length (does.trans (if_neg free))

end

theorem boolOf_boolByte (b : Bool) : boolOf (boolByte b) = some b := by cases b <;> rfl

theorem boolOf_eq_none {b : Byte} (h : 1 < b.toNat) : boolOf b = none := by
  unfold boolOf
  rw [if_neg (by rintro rfl; simp at h), if_neg (by rintro rfl; simp at h)]

/-- Settles O48: the shares by `Plan.edit_share`, the checks in their order. -/
theorem planEdited : Obligations.PlanEdited := by
  unfold Obligations.PlanEdited
  refine ⟨fun s p sequence f copy flags given serves shares carousel => ?_, fun s p sequence body serves length => ⟨fun off => ?_, fun on bad => ?_, ?_⟩⟩
  · have width := flags.isLt
    have read : planAt ([BitVec.ofNat 8 f.val, boolByte copy] ++ natBytes 2 flags.toNat ++ planBytes given) 4 = given :=
      planAt_planBytes _ _ _ _ shares carousel
    have set : natAt ([BitVec.ofNat 8 f.val, boolByte copy] ++ natBytes 2 flags.toNat ++ planBytes given) 2 2 = flags.toNat :=
      natAt_natBytes_two [BitVec.ofNat 8 f.val, boolByte copy] (planBytes given) (by omega)
    have bits : ∀ k, k < 9 → (BitVec.ofNat 16 flags.toNat).getLsbD k = flags.getLsbD k := fun k hk => by
      simp [show k < 16 by omega]
    have length : ([BitVec.ofNat 8 f.val, boolByte copy] ++ natBytes 2 flags.toNat ++ planBytes given).length = 21 := by
      rw [planBytes, Vector.toList_eight]
      rfl
    have base : (if copy then (s.feed f).active else (s.feed f).shadow) = if copy = (s.feed f).activeB then (s.feed f).planB else (s.feed f).planA := by
      unfold Feed.active Feed.shadow
      cases copy <;> cases (s.feed f).activeB <;> rfl
    have within : (BitVec.ofNat 16 flags.toNat).toNat < 512 := by
      rw [BitVec.toNat_ofNat]
      omega
    refine ⟨Plan.edit (if copy = (s.feed f).activeB then (s.feed f).planB else (s.feed f).planA) given (BitVec.ofNat 16 flags.toNat),
      fun k => ?_, ?_, ?_⟩
    · rw [Plan.edit_share, bits k.val (by omega)]
    · change (if (BitVec.ofNat 16 flags.toNat).getLsbD 8 then _ else _) = _
      rw [bits 8 (by omega)]
    · refine outcome_ite (fun off => exec_editPlan_none serves sequence length (ControlPort.feedOf_unheld off)) fun on => ?_
      have held := ControlPort.feedOf_held (Bool.of_not_eq_false on)
      refine outcome_ite (fun big => ?_) fun fits => ?_
      · obtain ⟨k, flag, above⟩ := big
        refine exec_editPlan_flags serves sequence length held ?_
        rw [read, set, ← Bool.not_eq_true, planFlagsOk_iff]
        exact fun h => absurd (h.2 k ((bits k.val (by omega)).trans flag)) (by omega)
      · refine (exec_editPlan_some serves sequence length held (boolOf_boolByte copy) ?_ (by rw [read, set, base])).trans ?_
        · rw [read, set, planFlagsOk_iff]
          refine ⟨within, fun k flag => ?_⟩
          rw [bits k.val (by omega)] at flag
          exact Nat.le_of_not_lt fun above => fits ⟨k, flag, above⟩
        · refine outcome_ite (fun pending => by rw [if_pos pending]) fun free => ?_
          rw [if_neg free]
          unfold yesNoByte
          simp only [decide_eq_true_eq]
          rfl
  · exact exec_editPlan_none serves sequence length (ControlPort.feedOf_stray off)
  · cases h : (s.port p).feedOf (byteAt body 0) with
    | none =>
      unfold ControlPort.feedOf at h
      rw [show (s.port p).holdsFeed (byteAt body 0).toNat = true from on, if_pos rfl, toFin_eq_none] at h
      exact absurd on (by rw [BitVec.getLsbD_of_ge _ _ h]; decide)
    | some f =>
      rcases bad with basis | flags
      · exact exec_editPlan_basis serves sequence length h (boolOf_eq_none basis)
      · refine exec_editPlan_flags serves sequence length h ?_
        rw [← Bool.not_eq_true, planFlagsOk_iff, BitVec.toNat_ofNat]
        have two := natAt_two_byteAt (b := body) (i := 2) (by omega)
        have := (byteAt body 2).isLt
        have := (byteAt body 3).isLt
        omega
  · intro other length' head shares carousel
    refine exec_same serves .editPlan sequence body other length length' ?_
    have set : natAt other 2 2 = natAt body 2 2 := by
      rw [natAt_two_byteAt (by omega), natAt_two_byteAt (by omega), head 2 (by omega), head 3 (by omega)]
    obtain ⟨flags, edit⟩ := Plan.edit_congr (given := planAt body 4) (given' := planAt other 4) (flags := BitVec.ofNat 16 (natAt body 2 2))
      (fun k on => by
        rw [planAt_share, planAt_share]
        refine shares k.val k.isLt ?_
        rw [BitVec.getLsbD_ofNat] at on
        exact (Bool.and_eq_true_iff.1 on).2)
      (fun on => by
        rw [BitVec.getLsbD_ofNat] at on
        exact congrArg BitVec.toNat (carousel (Bool.and_eq_true_iff.1 on).2))
    change reqEditPlan p other s = reqEditPlan p body s
    unfold reqEditPlan
    rw [head 0 (by omega), head 1 (by omega), set]
    simp only [flags, edit]

end Sys2Proof.Machine
end

section
/-! SUPPORT. The reads of sources, feeds and positions, the cue lines, the list entries and the stack entries of a port. -/

namespace Sys2Proof.Machine

/-! ### The reads -/

/-- A request answered field by field. -/
theorem exec_reads {s : State} {p : PortNo} (serves : s.serves p) (r : Request) (sequence : Byte) {body reply : List Byte}
    (length : body.length = reqLength r) {fields : List Byte} (does : perform r p body s = accept s fields) (h : reply = 0x00 :: fields) :
    exec (.ofRequest r p sequence body) s = .next (s.answered p r sequence reply) := by
  rw [h]
  exact exec_serves serves r sequence body length does

theorem flagByte_two (a b : Bool) : flagByte a b false false false = (if a then 1 else 0) ||| if b then 2 else 0 := by
  cases a <;> cases b <;> rfl

theorem flagByte_three (a b c : Bool) :
    flagByte a b c false false = (if a then 1 else 0) ||| (if b then 2 else 0) ||| if c then 4 else 0 := by
  cases a <;> cases b <;> cases c <;> rfl

theorem ringFlags_eq (n : Nat) :
    ringFlags n = (if n = 0 then 1 else 0) ||| (if 256 ≤ n then 2 else 0) ||| if n = 512 then 4 else 0 := by
  unfold ringFlags
  rw [flagByte_three]
  simp only [decide_eq_true_eq]

theorem boolByte_decide (c : Prop) [Decidable c] : boolByte (decide c) = if c then 1 else 0 := by
  unfold boolByte
  simp only [decide_eq_true_eq]

/-- The slot clock that READ FEED shows (R126, log 16). -/
theorem slotClockFields_eq (x : Feed) (tick : Tick) : ∃ t : Tick, (t = tick ∨ (x.running = false ∧ t = 0)) ∧
    slotClockFields x tick = natBytes 5 (if x.running then x.departure.toNat else 0) ++ natBytes 4 (if x.running then x.remainder else 0) ++
      natBytes 5 t.toNat := by
  unfold slotClockFields
  cases x.running with
  | true => exact ⟨tick, .inl rfl, rfl⟩
  | false =>
    refine ⟨if Config.stoppedTickReadsZero then 0 else tick, ?_, rfl⟩
    split
    · exact .inr ⟨rfl, rfl⟩
    · exact .inl rfl

/-- Settles O46: the four reads field by field. -/
theorem readsAnswered : Obligations.ReadsAnswered := by
  unfold Obligations.ReadsAnswered
  intro s p sequence number serves
  refine ⟨fun stray => ?_, fun stray => ?_, fun i hi => ?_, fun f hf held => ?_⟩
  · have none' : toFin 16 (byteAt [number] 0).toNat = none := toFin_eq_none.2 stray
    refine ⟨exec_serves serves .readSource sequence [number] rfl ?_, exec_serves serves .readHealth sequence [number] rfl ?_⟩
    · change reqReadSource p [number] s = _
      unfold reqReadSource
      rw [none']
      rfl
    · change reqReadHealth p [number] s = _
      unfold reqReadHealth
      rw [none']
      rfl
  · have none' : (s.port p).feedOf number = none := ControlPort.feedOf_stray stray
    exact ⟨exec_serves serves .readPlan sequence [number] rfl (match_no_feed _ _ none'),
      exec_serves serves .readFeed sequence [number] rfl (match_no_feed _ _ none')⟩
  · have some' : toFin 16 (byteAt [number] 0).toNat = some i := toFin_of_val hi
    have health : ∀ x : Source, healthFields x = [healthByte x.health, BitVec.ofNat 8 x.badCount, BitVec.ofNat 8 x.goodCount] ++ natBytes 2 x.n ++
        natBytes 2 x.e ++ [BitVec.ofNat 8 x.k, (if x.syncBad then 1 else 0) ||| (if x.clockSeen then 2 else 0)] := fun x => by
      rw [← flagByte_two]
      rfl
    refine ⟨exec_reads serves .readSource sequence rfl (fields := ?_) ?_ ?_, exec_reads serves .readHealth sequence rfl (fields := ?_) ?_ ?_⟩
    rotate_left
    · change reqReadSource p [number] s = _
      unfold reqReadSource
      rw [some']
    · rw [← health, ← ringFlags_eq, ← boolByte_decide]
      rfl
    rotate_left
    · change reqReadHealth p [number] s = _
      unfold reqReadHealth
      rw [some']
    · rw [← health]
      rfl
  · have some' : (s.port p).feedOf number = some f := by
      have := ControlPort.feedOf_held held
      rwa [hf, BitVec.ofNat_toNat, BitVec.setWidth_eq] at this
    obtain ⟨t, ht, fields⟩ := slotClockFields_eq (s.feed f) s.clock.tick
    refine ⟨exec_reads serves .readPlan sequence rfl (match_feed _ _ some') rfl, t, ht, exec_reads serves .readFeed sequence rfl (match_feed _ _ some') ?_⟩
    rw [fields]
    simp only [List.append_assoc, countFields]
    rfl

/-! ### A position examined -/

theorem stackRecord_length (e : StackEntry) : (stackRecord e).length = 9 := by
  unfold stackRecord
  cases e.window <;> simp [natBytes_length]

theorem stackRecords_eq (x : Position) :
    stackRecords x = baseRecord x ++ x.upper.flatMap stackRecord ++ List.replicate (27 - 9 * x.upper.length) 0 := by
  have length : ∀ l : List StackEntry, (l.flatMap stackRecord).length = 9 * l.length := fun l => by
    induction l with
    | nil => rfl
    | cons e l ih => rw [List.flatMap_cons, List.length_append, ih, stackRecord_length, List.length_cons]; ring
  have base : (baseRecord x).length = 9 := rfl
  unfold stackRecords
  dsimp only
  rw [List.length_append, length, base, show 36 - (9 + 9 * x.upper.length) = 27 - 9 * x.upper.length by omega]

theorem Position.effective_eq (x : Position) : x.effective = (match x.upper.getLast? with
    | some e => if e.mark then x.fallback else some e.source
    | none => if x.baseMark then x.fallback else x.base) := by
  unfold Position.effective Position.topMark
  cases x.upper.getLast? <;> rfl

theorem Position.classification_eq (x : Position) : x.classification = (if x.effective = none then 0 else match x.upper.getLast? with
    | none => 1
    | some e => match e.cls with
      | .network => 2
      | .regional => 3
      | .alert => 4) := by
  unfold Position.classification
  cases x.effective with
  | none => rfl
  | some i =>
    rw [if_neg (by simp)]
    cases x.upper.getLast? with
    | none => rfl
    | some e => cases h : e.cls <;> simp [h, SelClass.rank]

/-- Settles O43: the reply field by field, with the effective source and the classification case by case. -/
theorem positionExamined : Obligations.PositionExamined := by
  unfold Obligations.PositionExamined
  intro s p sequence f place serves
  refine ⟨fun number stray => ?_, fun held stray => ?_, fun held k hk => ⟨?_, Position.effective_eq _, Position.classification_eq _⟩⟩
  · exact exec_serves serves .examinePosition sequence [number, place] rfl (match_no_feed _ _ (ControlPort.feedOf_stray stray))
  · have none' : toFin 8 place.toNat = none := toFin_eq_none.2 stray
    refine exec_serves serves .examinePosition sequence _ rfl ((match_feed _ _ (ControlPort.feedOf_held held)).trans ?_)
    change (match toFin 8 place.toNat with
      | none => refuse s .range
      | some c => _) = _
    rw [none']
    rfl
  · have some' : toFin 8 (byteAt [BitVec.ofNat 8 f.val, place] 1).toNat = some k := toFin_of_val hk
    refine exec_reads serves .examinePosition sequence rfl (fields := ?_) ((match_feed _ _ (ControlPort.feedOf_held held)).trans ?_) ?_
    rotate_left
    · rw [some']
    · rw [stackRecords_eq, flagByte_two]
      unfold Position.onAirSource
      cases (s.pos f k).slot with
      | steady => simp only [List.append_assoc]; rfl
      | seeking i w o => cases o <;> simp only [List.append_assoc] <;> rfl

/-! ### Cue lines -/

/-- The mode that SET CUE LINE gives, none where it is flagged and out of its range. -/
def modeGroup (b : List Byte) : Option (Option LineMode) := if (byteAt b 1).getLsbD 0 then (lineModeOf (byteAt b 2)).map some else some none

/-- The level that SET CUE LINE gives. -/
def levelGroup (b : List Byte) : Option (Option Bool) := if (byteAt b 1).getLsbD 1 then (boolOf (byteAt b 3)).map some else some none

/-- The tally target that SET CUE LINE gives. -/
def targetGroup (b : List Byte) : Option (Option (FeedNo × PosNo × SrcNo)) :=
  if (byteAt b 1).getLsbD 2 then
    match toFin 6 (byteAt b 4).toNat, toFin 8 (byteAt b 5).toNat, toFin 16 (byteAt b 6).toNat with
    | some f, some k, some x => some (some (f, k, x))
    | _, _, _ => none
  else some none

theorem lineValues_eq (b : List Byte) : lineValues b = if 8 ≤ (byteAt b 1).toNat then none
    else match modeGroup b, levelGroup b, targetGroup b with
      | some mode, some level, some target => some (mode, target, level)
      | _, _, _ => none := rfl

theorem lineValues_some {b : List Byte} (small : (byteAt b 1).toNat < 8) {m : Option LineMode} {t : Option (FeedNo × PosNo × SrcNo)}
    {v : Option Bool} (mode : modeGroup b = some m) (level : levelGroup b = some v) (target : targetGroup b = some t) :
    lineValues b = some (m, t, v) := by
  rw [lineValues_eq, if_neg (by omega), mode, level, target]

theorem lineValues_none {b : List Byte} (h : 8 ≤ (byteAt b 1).toNat ∨ modeGroup b = none ∨ levelGroup b = none ∨ targetGroup b = none) :
    lineValues b = none := by
  rw [lineValues_eq]
  split
  · rfl
  · rename_i small
    rcases h with big | mode | level | target
    · exact absurd big small
    · rw [mode]
    · rw [level]
      cases modeGroup b <;> rfl
    · rw [target]
      cases modeGroup b <;> cases levelGroup b <;> rfl

/-- The groups of SET CUE LINE are read from their own bytes, and only where they are flagged (R77). -/
theorem lineValues_congr {b other : List Byte} (flags : byteAt other 1 = byteAt b 1)
    (mode : (byteAt b 1).getLsbD 0 = true → byteAt other 2 = byteAt b 2)
    (level : (byteAt b 1).getLsbD 1 = true → byteAt other 3 = byteAt b 3)
    (target : (byteAt b 1).getLsbD 2 = true → byteAt other 4 = byteAt b 4 ∧ byteAt other 5 = byteAt b 5 ∧ byteAt other 6 = byteAt b 6) :
    lineValues other = lineValues b := by
  have m : modeGroup other = modeGroup b := by
    unfold modeGroup
    rw [flags]
    split
    · rw [mode ‹_›]
    · rfl
  have v : levelGroup other = levelGroup b := by
    unfold levelGroup
    rw [flags]
    split
    · rw [level ‹_›]
    · rfl
  have t : targetGroup other = targetGroup b := by
    unfold targetGroup
    rw [flags]
    split
    · obtain ⟨h4, h5, h6⟩ := target ‹_›
      rw [h4, h5, h6]
    · rfl
  by_cases out : 8 ≤ (byteAt b 1).toNat ∨ modeGroup b = none ∨ levelGroup b = none ∨ targetGroup b = none
  · rw [lineValues_none out, lineValues_none (b := other) (by rw [flags, m, v, t]; exact out)]
  · simp only [not_or, ← ne_eq, Option.ne_none_iff_exists'] at out
    obtain ⟨small, ⟨_, hm⟩, ⟨_, hv⟩, _, ht⟩ := out
    rw [lineValues_some (by omega) hm hv ht, lineValues_some (by rw [flags]; omega) (m.trans hm) (v.trans hv) (t.trans ht)]

section
variable {s : State} {p : PortNo} (serves : s.serves p) (sequence : Byte) {body : List Byte} (length : body.length = 7)
include serves length

theorem exec_setCueLine_unheld (h : (s.port p).authority.cueMap.getLsbD (byteAt body 0).toNat = false) :
    exec (.setCueLine p sequence body) s = .next (s.answered p .setCueLine sequence [0x05]) := by
  refine exec_serves serves .setCueLine sequence body length ?_
  change reqSetCueLine p body s = _
  unfold reqSetCueLine
  rw [h]
  rfl

theorem exec_setCueLine_range {l : LineNo} (number : l.val = (byteAt body 0).toNat) (h : (s.port p).authority.cueMap.getLsbD l = true)
    (out : lineValues body = none) : exec (.setCueLine p sequence body) s = .next (s.answered p .setCueLine sequence [0x04]) := by
  refine exec_serves serves .setCueLine sequence body length ?_
  change reqSetCueLine p body s = _
  unfold reqSetCueLine
  rw [← number, h, toFin_val, out]
  rfl

theorem exec_setCueLine_some {l : LineNo} (number : l.val = (byteAt body 0).toNat) (h : (s.port p).authority.cueMap.getLsbD l = true)
    {v : Option LineMode × Option (FeedNo × PosNo × SrcNo) × Option Bool} (values : lineValues body = some v) {new : CueLine}
    (does : (((s.line l).withMode v.1).withTarget v.2.1).withLevel v.2.2 = new) {reply : List Byte}
    (fields : reply = 0x00 :: lineFields new ((s.setLine l new).cueOutput l)) :
    exec (.setCueLine p sequence body) s = .next ((s.setLine l new).answered p .setCueLine sequence reply) := by
  rw [fields]
  refine exec_serves serves .setCueLine sequence body length ?_
  change reqSetCueLine p body s = _
  unfold reqSetCueLine
  rw [← number, h, toFin_val, values, ← does]
  rfl

end

/-- The output of a line just written (R73, R76). -/
theorem State.cueOutput_setLine (s : State) (l : LineNo) (x : CueLine) : (s.setLine l x).cueOutput l =
    if x.mode = .tally then (s.feed x.feed).running && decide ((s.pos x.feed x.position).onAirSource = some x.source)
    else xor x.level x.pulse := by
  unfold State.cueOutput
  rw [State.line_setLine, if_pos rfl]
  dsimp only
  cases x.mode <;> rfl

theorem lineFields_eq (l : CueLine) (output : Bool) : lineFields l output =
    [if l.mode = .tally then 1 else 0, boolByte l.level, boolByte l.pulse, BitVec.ofNat 8 l.feed.val, BitVec.ofNat 8 l.position.val,
      BitVec.ofNat 8 l.source.val, boolByte output] ++
    (match l.last with
      | some c => [BitVec.ofNat 8 c.owner.val, cueKindByte c.kind] ++ todBytes (some c.tod)
      | none => [0xFF, 0, 0xFF, 0xFF, 0xFF, 0xFF]) := by
  unfold lineFields
  cases l.mode <;> rfl

theorem lineModeOf_eq_none {b : Byte} (h : 1 < b.toNat) : lineModeOf b = none := by
  unfold lineModeOf
  rw [if_neg (by rintro rfl; simp at h), if_neg (by rintro rfl; simp at h)]

/-- A tally target out of its range. -/
theorem targetOf_none {feed place source : Byte} (h : 5 < feed.toNat ∨ 7 < place.toNat ∨ 15 < source.toNat) :
    (match toFin 6 feed.toNat, toFin 8 place.toNat, toFin 16 source.toNat with
    | some f, some k, some x => some (some (f, k, x))
    | _, _, _ => none) = (none : Option (Option (FeedNo × PosNo × SrcNo))) := by
  rcases h with h | h | h
  · rw [toFin_eq_none.2 h]
  · rw [toFin_eq_none.2 h]
    cases toFin 6 feed.toNat <;> rfl
  · rw [toFin_eq_none.2 h]
    cases toFin 6 feed.toNat <;> cases toFin 8 place.toNat <;> rfl

/-- Settles O44: the groups one by one, and the fields of the reply. -/
theorem cueLineSet : Obligations.CueLineSet := by
  unfold Obligations.CueLineSet
  refine ⟨fun s p sequence line flags tally level f k i serves => ⟨fun off => exec_setCueLine_unheld serves sequence rfl off, fun l hl held => ?_,
    fun groups mode level feed place source small held out => ?_⟩, fun s p sequence body other serves length length' head => ?_⟩
  · have set : byteAt [line, flags.setWidth 8, boolByte tally, boolByte level, BitVec.ofNat 8 f.val, BitVec.ofNat 8 k.val,
        BitVec.ofNat 8 i.val] 1 = flags.setWidth 8 := rfl
    have bit : ∀ n, n < 3 → (flags.setWidth 8).getLsbD n = flags.getLsbD n := fun n hn => by
      rw [BitVec.getLsbD_setWidth]
      simp [show n < 8 by omega]
    have small : (flags.setWidth 8 : Byte).toNat < 8 := by
      have := flags.isLt
      rw [BitVec.toNat_setWidth]
      omega
    have modes : modeGroup [line, flags.setWidth 8, boolByte tally, boolByte level, BitVec.ofNat 8 f.val, BitVec.ofNat 8 k.val,
        BitVec.ofNat 8 i.val] = some (if flags.getLsbD 0 then some (if tally then .tally else .cue) else none) := by
      unfold modeGroup
      rw [set, bit 0 (by omega)]
      split
      · cases tally <;> rfl
      · rfl
    have levels : levelGroup [line, flags.setWidth 8, boolByte tally, boolByte level, BitVec.ofNat 8 f.val, BitVec.ofNat 8 k.val,
        BitVec.ofNat 8 i.val] = some (if flags.getLsbD 1 then some level else none) := by
      unfold levelGroup
      rw [set, bit 1 (by omega)]
      split
      · exact congrArg (Option.map some) (boolOf_boolByte level)
      · rfl
    have targets : targetGroup [line, flags.setWidth 8, boolByte tally, boolByte level, BitVec.ofNat 8 f.val, BitVec.ofNat 8 k.val,
        BitVec.ofNat 8 i.val] = some (if flags.getLsbD 2 then some (f, k, i) else none) := by
      unfold targetGroup
      rw [set, bit 2 (by omega)]
      split
      · have hf : toFin 6 (BitVec.ofNat 8 f.val).toNat = some f := toFin_of_val (toNat_byte (by omega)).symm
        have hk : toFin 8 (BitVec.ofNat 8 k.val).toNat = some k := toFin_of_val (toNat_byte (by omega)).symm
        have hi : toFin 16 (BitVec.ofNat 8 i.val).toNat = some i := toFin_of_val (toNat_byte (by omega)).symm
        change (match toFin 6 (BitVec.ofNat 8 f.val).toNat, toFin 8 (BitVec.ofNat 8 k.val).toNat, toFin 16 (BitVec.ofNat 8 i.val).toNat with
          | some f, some k, some x => some (some (f, k, x))
          | _, _, _ => none) = _
        rw [hf, hk, hi]
      · rfl
    refine exec_setCueLine_some serves sequence rfl hl held (lineValues_some (by rw [set]; exact small) modes levels targets) ?_ ?_
    · cases flags.getLsbD 0 <;> cases flags.getLsbD 1 <;> cases flags.getLsbD 2 <;> rfl
    · rw [State.cueOutput_setLine, lineFields_eq]
      rfl
  · refine exec_setCueLine_range serves sequence rfl (l := ⟨line.toNat, by omega⟩) rfl held (lineValues_none ?_)
    rcases out with big | ⟨flag, out⟩ | ⟨flag, out⟩ | ⟨flag, out⟩
    · exact .inl big
    · refine .inr (.inl ?_)
      change (if groups.getLsbD 0 then (lineModeOf mode).map some else some none) = none
      rw [if_pos flag, lineModeOf_eq_none out]
      rfl
    · refine .inr (.inr (.inl ?_))
      change (if groups.getLsbD 1 then (boolOf level).map some else some none) = none
      rw [if_pos flag, boolOf_eq_none out]
      rfl
    · refine .inr (.inr (.inr ?_))
      exact (if_pos flag).trans (targetOf_none out)
  · refine exec_same serves .setCueLine sequence body other length length' ?_
    change reqSetCueLine p other s = reqSetCueLine p body s
    unfold reqSetCueLine
    rw [head 0 (by omega) (by omega) (by omega) (by omega), lineValues_congr (head 1 (by omega) (by omega) (by omega) (by omega))
      (fun h => head 2 (by omega) (fun _ => h) (by omega) (by omega)) (fun h => head 3 (by omega) (by omega) (fun _ => h) (by omega))
      fun h => ⟨head 4 (by omega) (by omega) (by omega) fun _ => h, head 5 (by omega) (by omega) (by omega) fun _ => h,
        head 6 (by omega) (by omega) (by omega) fun _ => h⟩]

/-! ### The entries of a port -/

theorem tag_read (tag : Tag) : BitVec.ofNat 16 (natAt (natBytes 2 tag.toNat) 0 2) = tag := by
  have read := natAt_natBytes_two [] [] tag.isLt
  rw [List.append_nil, List.nil_append] at read
  rw [show natAt (natBytes 2 tag.toNat) 0 2 = tag.toNat from read, BitVec.ofNat_toNat, BitVec.setWidth_eq]

theorem Entry.named_iff (e : Entry) (p : PortNo) (t : Tag) : e.named p t = true ↔ e.owner = p ∧ e.tag = t := by
  unfold Entry.named
  rw [Bool.and_eq_true, decide_eq_true_eq, decide_eq_true_eq]

theorem StackEntry.named_iff (e : StackEntry) (p : PortNo) (t : Tag) : e.named p t = true ↔ e.owner = p ∧ e.tag = t := by
  unfold StackEntry.named
  rw [Bool.and_eq_true, decide_eq_true_eq, decide_eq_true_eq]

/-- The first item that a test names taken out. -/
theorem eraseP_first {α : Type} {c : α → Bool} {before after : List α} {e : α} (first : ∀ x ∈ before, ¬c x = true) (h : c e = true) :
    (before ++ e :: after).eraseP c = before ++ after := by
  rw [List.eraseP_append_right _ first, List.eraseP_cons_of_pos h]

/-- Settles O39: the entry is the first that the tag names, and the list is shown from an index on. -/
theorem entriesCancelledAndListed : Obligations.EntriesCancelledAndListed := by
  unfold Obligations.EntriesCancelledAndListed
  intro s p sequence serves
  refine ⟨fun tag before after e list owner tagged first => ?_, fun tag none' => ?_, fun start => ?_⟩
  · have named : e.named p tag = true := (e.named_iff p tag).2 ⟨owner, tagged⟩
    refine exec_serves serves .cancelEntry sequence _ rfl ?_
    change reqCancelEntry p _ s = _
    unfold reqCancelEntry
    dsimp only
    rw [tag_read, if_pos (List.any_eq_true.2 ⟨e, by rw [list]; simp, named⟩), list,
      eraseP_first (fun x hx k => first x hx ((x.named_iff p tag).1 k)) named]
    rfl
  · refine exec_serves serves .cancelEntry sequence _ rfl ?_
    change reqCancelEntry p _ s = _
    unfold reqCancelEntry
    dsimp only
    rw [tag_read, if_neg]
    · rfl
    · rw [List.any_eq_true]
      rintro ⟨x, hx, named⟩
      exact none' x hx ((x.named_iff p tag).1 named)
  · refine exec_serves serves .listEntries sequence _ rfl ?_
    change reqListEntries p _ s = _
    unfold reqListEntries
    change (if 127 < start.toNat then refuse s .range else _) = _
    split
    · rfl
    · dsimp only
      rw [List.length_take, List.length_drop]
      rfl

/-! ### The stack entries of a port -/

/-- The one position whose stack holds a port's entry with a tag (R48). -/
theorem State.holderOf_some {s : State} {p : PortNo} {t : Tag} {f : FeedNo} {k : PosNo} {e : StackEntry} (mem : e ∈ (s.pos f k).upper)
    (named : e.owner = p ∧ e.tag = t) (only : ∀ g q y, (g, q) ≠ (f, k) → y ∈ (s.pos g q).upper → ¬(y.owner = p ∧ y.tag = t)) :
    s.holderOf p t = some (f, k) := by
  unfold State.holderOf
  obtain ⟨fk, found⟩ : ∃ fk, allPositions.find? (fun fp => (s.pos fp.1 fp.2).upper.any fun e => e.named p t) = some fk :=
    Option.isSome_iff_exists.1 (List.find?_isSome.2 ⟨(f, k), mem_allPositions f k, List.any_eq_true.2 ⟨e, mem, (e.named_iff p t).2 named⟩⟩)
  rw [found]
  have holds : ((s.pos fk.1 fk.2).upper.any fun e => e.named p t) = true := List.find?_some (p := fun fp : FeedNo × PosNo =>
    (s.pos fp.1 fp.2).upper.any fun e => e.named p t) found
  obtain ⟨y, hy, named'⟩ := List.any_eq_true.1 holds
  by_contra other
  exact only fk.1 fk.2 y (fun h => other (by rw [← h])) hy ((y.named_iff p t).1 named')

theorem State.holderOf_none {s : State} {p : PortNo} {t : Tag} (none' : ∀ f k e, e ∈ (s.pos f k).upper → ¬(e.owner = p ∧ e.tag = t)) :
    s.holderOf p t = none := by
  unfold State.holderOf
  rw [List.find?_eq_none]
  intro fk _ h
  obtain ⟨e, he, named⟩ := List.any_eq_true.1 h
  exact none' _ _ e he ((e.named_iff p t).1 named)

/-- Settles O42: the entry is the first of the one stack that holds it, and the change is handed over. -/
theorem releaseRemovesEntry : Obligations.ReleaseRemovesEntry := by
  unfold Obligations.ReleaseRemovesEntry
  intro s p sequence tag serves
  refine ⟨fun none' => ?_, fun f k low high e stack owner tagged first only => ?_⟩
  · refine exec_serves serves .release sequence _ rfl ?_
    change reqRelease p _ s = _
    unfold reqRelease
    dsimp only
    rw [tag_read, State.holderOf_none none']
    rfl
  · have mem : e ∈ (s.pos f k).upper := by rw [stack]; simp
    have left : (s.pos f k).upper.eraseP (fun e => e.named p tag) = low ++ high := by
      rw [stack, eraseP_first (fun x hx n => first x hx ((x.named_iff p tag).1 n)) ((e.named_iff p tag).2 ⟨owner, tagged⟩)]
    obtain ⟨y, moved, anew⟩ := handedOver_anew s f k { s.pos f k with upper := low ++ high } (s.pos f k).policy none
    refine ⟨s.handedOver f k { s.pos f k with upper := low ++ high } (s.pos f k).policy none, ?_, ?_, rfl, fun same => ?_⟩
    · refine exec_serves serves .release sequence _ rfl ?_
      change reqRelease p _ s = _
      unfold reqRelease
      dsimp only
      rw [tag_read, State.holderOf_some mem ⟨owner, tagged⟩ only]
      dsimp only
      rw [left, State.setPos_handOver, boolByte_decide]
      simp only [ne_eq, ite_not]
      rfl
    · rw [moved.pos, if_pos ⟨rfl, rfl⟩]
      exact anew
    · rw [State.handedOver_same]
      refine same.imp_right fun above => Position.effective_of_last (s.pos f k) _ ?_
      rw [stack, List.getLast?_append_of_ne_nil _ above, ← List.singleton_append, ← List.append_assoc,
        List.getLast?_append_of_ne_nil _ above]

end Sys2Proof.Machine
end

section
/-! SUPPORT. Positions that one event moves one after another, and the records that this makes (R68, log 7): STOP FEED, and the changes of
effective source that overtake a search. -/

namespace Sys2Proof.Machine

/-! ### Positions moved one after another -/

/-- A record depends on the ports and on the time of day. -/
theorem State.ownerDone_ports {u v : State} (ports : u.ports = v.ports) (clock : u.clock = v.clock) (f : FeedNo) (p : PosNo)
    (o : Option Owner) (flags : OutcomeFlags) : (u.ownerDone f p o flags).ports = (v.ownerDone f p o flags).ports := by
  cases o with
  | none => exact ports
  | some o =>
    unfold State.ownerDone State.addOutcome State.setPort State.port
    rw [ports, clock]

theorem OnlyStacks.clock {s t : State} (h : OnlyStacks s t) : t.clock = s.clock := by obtain ⟨_, _, _, rfl, _⟩ := h; rfl
theorem OnlyStacks.feeds {s t : State} (h : OnlyStacks s t) : t.feeds = s.feeds := by obtain ⟨_, _, _, rfl, _⟩ := h; rfl
theorem OnlySources.ports {s t : State} (h : OnlySources s t) : t.ports = s.ports := by obtain ⟨_, rfl, _⟩ := h; rfl
theorem OnlySources.clock {s t : State} (h : OnlySources s t) : t.clock = s.clock := by obtain ⟨_, rfl, _⟩ := h; rfl
theorem OnlyPorts.positions {s t : State} (h : OnlyPorts s t) : t.positions = s.positions := by obtain ⟨_, rfl, _⟩ := h; rfl
theorem MovedTo.stacks {s t : State} {f : FeedNo} {p : PosNo} {x : Position} (h : MovedTo s f p x t) : OnlyStacks s t := by
  obtain ⟨w, u, rfl, hw, hu⟩ := h; exact ⟨_, w, u, rfl, hw, hu⟩

/-- The positions of a list moved one after another: each as it would be alone, and the records in the order of the list. -/
theorem foldl_moves {s : State} {g record : State → FeedNo × PosNo → State} {make : FeedNo × PosNo → Position}
    (step : ∀ u fp, OnlyStacks s u → u.pos fp.1 fp.2 = s.pos fp.1 fp.2 →
      MovedTo u fp.1 fp.2 (make fp) (g u fp) ∧ (g u fp).ports = (record u fp).ports)
    (told : ∀ u fp, OnlyPorts u (record u fp))
    (same : ∀ u v fp, u.ports = v.ports → u.clock = v.clock → (record u fp).ports = (record v fp).ports)
    (l : List (FeedNo × PosNo)) (nodup : l.Nodup) :
    OnlyStacks s (l.foldl g s) ∧ (∀ f p, (l.foldl g s).pos f p = if (f, p) ∈ l then make (f, p) else s.pos f p) ∧
      (l.foldl g s).ports = (l.foldl record s).ports := by
  suffices ∀ (l : List (FeedNo × PosNo)), l.Nodup → ∀ u v, OnlyStacks s u → u.ports = v.ports → v.clock = s.clock →
      (∀ fp ∈ l, u.pos fp.1 fp.2 = s.pos fp.1 fp.2) → OnlyStacks s (l.foldl g u) ∧
        (∀ f p, (l.foldl g u).pos f p = if (f, p) ∈ l then make (f, p) else u.pos f p) ∧ (l.foldl g u).ports = (l.foldl record v).ports from
    this l nodup s s (.rfl' s) rfl rfl fun _ _ => rfl
  intro l
  induction l with
  | nil => exact fun _ u v hu ports _ _ => ⟨hu, fun f p => by simp, ports⟩
  | cons fp l ih =>
    intro nodup u v hu ports clock rest
    obtain ⟨fresh, nodup⟩ := List.nodup_cons.1 nodup
    obtain ⟨moved, recorded⟩ := step u fp hu (rest fp List.mem_cons_self)
    have next : ∀ q ∈ l, (g u fp).pos q.1 q.2 = s.pos q.1 q.2 := fun q hq => by
      rw [moved.pos, if_neg fun e => fresh (by rw [show fp = q from Prod.ext e.1 e.2]; exact hq)]
      exact rest q (List.mem_cons_of_mem _ hq)
    obtain ⟨only, positions, final⟩ := ih nodup (g u fp) (record v fp) (hu.trans moved.stacks)
      (recorded.trans (same u v fp ports (hu.clock.trans clock.symm))) ((told v fp).clock.trans clock) next
    rw [List.foldl_cons, List.foldl_cons]
    refine ⟨only, fun f p => ?_, final⟩
    rw [positions, moved.pos]
    by_cases e : (f, p) = fp
    · subst e
      simp [fresh]
    · have e' : ¬(fp.1 = f ∧ fp.2 = p) := fun k => e (Prod.ext k.1.symm k.2.symm)
      rw [if_neg e']
      simp [e]

/-! ### Records -/

/-- The records that a port gets from the owners of a list of positions, in their order. -/
def recordsFor (owner : FeedNo × PosNo → Option Owner) (flags : OutcomeFlags) (tod : TimeOfDay) (q : PortNo) (l : List (FeedNo × PosNo)) :
    List Outcome :=
  l.filterMap fun fp => (owner fp).bind fun o =>
    if o.port = q then some ⟨o.tag, .done, { flags with late := o.late }, fp.1, fp.2, tod⟩ else none

/-- A port with one record more (R159). -/
def ControlPort.recorded (x : ControlPort) (r : Outcome) : ControlPort :=
  { x with
    log := x.log.drop (x.log.length + 1 - Config.logPlaces) ++ [r]
    notices := x.notices ||| if Config.logPlaces ≤ x.log.length then Notice.outcome.bit ||| Notice.outcomeLost.bit else Notice.outcome.bit }

theorem State.addOutcome_port (s : State) (p q : PortNo) (r : Outcome) :
    (s.addOutcome p r).port q = if p = q then (s.port q).recorded r else s.port q := by
  unfold State.addOutcome
  dsimp only
  rw [State.port_setPort]
  split
  · rename_i e; subst e; rfl
  · rfl

/-- Each port is told the records of its own owners. -/
theorem State.foldl_ownerDone (owner : FeedNo × PosNo → Option Owner) (flags : OutcomeFlags) (q : PortNo) (l : List (FeedNo × PosNo)) (s : State) :
    (l.foldl (fun u fp => u.ownerDone fp.1 fp.2 (owner fp) flags) s).port q =
      (recordsFor owner flags s.clock.tod q l).foldl ControlPort.recorded (s.port q) := by
  induction l generalizing s with
  | nil => rfl
  | cons fp l ih =>
    rw [List.foldl_cons, ih, (ownerDone_frame _ _ _ _ _).clock]
    unfold recordsFor
    rw [List.filterMap_cons]
    cases owner fp with
    | none => rfl
    | some o =>
      unfold State.ownerDone
      dsimp only
      rw [State.addOutcome_port]
      by_cases hq : o.port = q
      · simp only [Option.bind_some, if_pos hq, List.foldl_cons]
      · simp only [Option.bind_some, if_neg hq]

/-- A log after one record more: it ends with what it ended with, as far as there is room, and the record. -/
theorem suffix_drop_concat {l pre : List Outcome} (h : pre <:+ l) (room : pre.length ≤ 15) (r : Outcome) :
    pre ++ [r] <:+ l.drop (l.length + 1 - Config.logPlaces) ++ [r] := by
  have places : Config.logPlaces = 16 := rfl
  obtain ⟨front, rfl⟩ := h
  rw [List.drop_append_of_le_length (by rw [List.length_append]; omega)]
  exact ⟨front.drop _, by rw [List.append_assoc]⟩

theorem ControlPort.recorded_pending (x : ControlPort) (r : Outcome) : (x.recorded r).notices.getLsbD 0 = true := by
  unfold ControlPort.recorded
  dsimp only
  rw [BitVec.getLsbD_or]
  split <;> simp [Notice.bit]

theorem ControlPort.foldl_recorded_ends (l : List Outcome) (x : ControlPort) {pre : List Outcome} (ends : pre <:+ x.log)
    (room : pre.length + l.length ≤ 16) : pre ++ l <:+ (l.foldl ControlPort.recorded x).log := by
  induction l generalizing x pre with
  | nil => simpa using ends
  | cons r l ih =>
    rw [List.length_cons] at room
    have next := ih (x.recorded r) (pre := pre ++ [r]) (suffix_drop_concat ends (by omega) r) (by rw [List.length_append, List.length_singleton]; omega)
    rwa [List.append_assoc] at next

theorem ControlPort.foldl_recorded_mem (l : List Outcome) (x : ControlPort) (r : Outcome) (h : r ∈ (l.foldl ControlPort.recorded x).log) :
    r ∈ x.log ∨ r ∈ l := by
  induction l generalizing x with
  | nil => exact .inl h
  | cons k l ih =>
    rcases ih (x.recorded k) h with old | new
    · rcases List.mem_append.1 old with old | one
      · exact .inl (List.mem_of_mem_drop old)
      · rw [List.mem_singleton.1 one]; exact .inr List.mem_cons_self
    · exact .inr (List.mem_cons_of_mem _ new)

theorem ControlPort.foldl_recorded_pending (l : List Outcome) (x : ControlPort) (h : l ≠ [] ∨ x.notices.getLsbD 0 = true) :
    (l.foldl ControlPort.recorded x).notices.getLsbD 0 = true := by
  induction l generalizing x with
  | nil => exact h.resolve_left fun k => k rfl
  | cons r l ih => exact ih (x.recorded r) (.inr (x.recorded_pending r))

theorem ControlPort.foldl_recorded_eq (l : List Outcome) (x : ControlPort) : l.foldl ControlPort.recorded x =
    { x with log := (l.foldl ControlPort.recorded x).log, notices := (l.foldl ControlPort.recorded x).notices } := by
  induction l generalizing x with
  | nil => rfl
  | cons r l ih =>
    rw [List.foldl_cons, ih]
    rfl

/-! ### STOP FEED -/

/-- A position at rest (R70). -/
def Position.resting (x : Position) : Position := { x with slot := .steady, onAir := none, marks := 0 }

/-- The flags of a search that a stop ends (R68). -/
def OutcomeFlags.stopped : OutcomeFlags := ⟨false, false, false, true, false⟩

theorem restPosition_rests (s : State) (f : FeedNo) (p : PosNo) : MovedTo s f p (s.pos f p).resting (s.restPosition f p) ∧
    (s.restPosition f p).ports = (s.ownerDone f p (s.pos f p).slot.owner .stopped).ports := by
  have writes := s.moveOnAir_writes f p none 0
  refine ⟨writes.movedTo.told (ownerDone_frame _ _ _ _ _), ?_⟩
  exact State.ownerDone_ports (v := s) writes.ports writes.clock f p _ _

theorem State.stopNow_moves (s : State) (f : FeedNo) :
    OnlyStacks (s.setFeed f { s.feed f with running := false }) (s.stopNow f) ∧
      (∀ g p, (s.stopNow f).pos g p = if g = f then (s.pos g p).resting else s.pos g p) ∧
      ∀ q, (s.stopNow f).port q = (recordsFor (fun fp => (s.pos fp.1 fp.2).slot.owner) .stopped s.clock.tod q
        (allPlaces.map (Prod.mk f))).foldl ControlPort.recorded (s.port q) := by
  obtain ⟨only, positions, ports⟩ := foldl_moves (s := s.setFeed f { s.feed f with running := false })
    (g := fun u fp => u.restPosition fp.1 fp.2) (make := fun fp => (s.pos fp.1 fp.2).resting)
    (record := fun u fp => u.ownerDone fp.1 fp.2 (s.pos fp.1 fp.2).slot.owner .stopped)
    (fun u fp _ same => by
      have rests := restPosition_rests u fp.1 fp.2
      rw [same] at rests
      exact rests)
    (fun u fp => ownerDone_frame _ _ _ _ _) (fun u v fp ports clock => State.ownerDone_ports ports clock _ _ _ _)
    (allPlaces.map (Prod.mk f)) ((List.nodup_map_iff (Prod.mk_right_injective f)).2 (by decide))
  have folds : s.stopNow f = (allPlaces.map (Prod.mk f)).foldl (fun u fp => u.restPosition fp.1 fp.2)
      (s.setFeed f { s.feed f with running := false }) := by rw [List.foldl_map]; rfl
  rw [← folds] at only positions ports
  refine ⟨only, fun g p => ?_, fun q => ?_⟩
  · rw [positions]
    refine if_congr ?_ rfl rfl
    simp [mem_allPlaces, eq_comm]
  · unfold State.port
    rw [ports]
    exact State.foldl_ownerDone (fun fp => (s.pos fp.1 fp.2).slot.owner) .stopped q _ _

theorem List.exists_mem_map_iff {α β : Type} {g : α → β} {l : List α} {c : β → Prop} : (∃ b ∈ l.map g, c b) ↔ ∃ a, a ∈ l ∧ c (g a) := by
  simp

theorem mem_recordsFor {owner : FeedNo × PosNo → Option Owner} {flags : OutcomeFlags} {tod : TimeOfDay} {q : PortNo}
    {l : List (FeedNo × PosNo)} {r : Outcome} : r ∈ recordsFor owner flags tod q l ↔
      ∃ fp ∈ l, ∃ o, owner fp = some o ∧ o.port = q ∧ r = ⟨o.tag, .done, { flags with late := o.late }, fp.1, fp.2, tod⟩ := by
  unfold recordsFor
  rw [List.mem_filterMap]
  refine exists_congr fun fp => and_congr_right fun _ => ?_
  cases owner fp with
  | none => simp
  | some o =>
    simp only [Option.bind_some, Option.some.injEq, exists_eq_left']
    split
    · rename_i h; simp [h, eq_comm]
    · rename_i h; simp [h]

/-- Settles O50: the positions at rest, and the records of the searches that the stop ends. -/
theorem feedStopped : Obligations.FeedStopped := by
  unfold Obligations.FeedStopped
  intro s p sequence f serves
  refine ⟨fun off => exec_stopFeed_none serves sequence (ControlPort.configFeed_unheld off), fun configure held => ?_⟩
  have some' := ControlPort.configFeed_held configure held
  have does : reqStopFeed p [BitVec.ofNat 8 f.val] s = if (s.feed f).running then accept (s.stopNow f) []
      else if (s.feed f).startPending then accept (s.setFeed f { s.feed f with startPending := false }) [] else refuse s .feedState :=
    match_feed _ _ some'
  refine ⟨fun stopped => ?_, fun running => ?_⟩
  · have off : ¬(s.feed f).running = true := by rw [stopped]; decide
    exact outcome_ite (fun starts => exec_serves serves .stopFeed sequence _ rfl (does.trans ((if_neg off).trans (if_pos starts))))
      fun rests => exec_serves serves .stopFeed sequence _ rfl (does.trans ((if_neg off).trans (if_neg rests)))
  · obtain ⟨only, positions, ports⟩ := s.stopNow_moves f
    have abandoned : ∀ q r, r ∈ recordsFor (fun fp => (s.pos fp.1 fp.2).slot.owner) .stopped s.clock.tod q (allPlaces.map (Prod.mk f)) ↔
        ∃ k i w o, (s.pos f k).slot = .seeking i w (some o) ∧ o.port = q ∧ r = ⟨o.tag, .done, ⟨o.late, false, false, true, false⟩, f, k, s.clock.tod⟩ := fun q r => by
      rw [mem_recordsFor]
      rw [List.exists_mem_map_iff]
      refine exists_congr fun k => ?_
      simp only [mem_allPlaces, true_and]
      cases (s.pos f k).slot with
      | steady => simp [Slot.owner]
      | seeking i w o => simp [Slot.owner, OutcomeFlags.stopped]
    have room : ∀ q, (recordsFor (fun fp => (s.pos fp.1 fp.2).slot.owner) .stopped s.clock.tod q (allPlaces.map (Prod.mk f))).length ≤ 8 :=
      fun q => (List.length_filterMap_le _ _).trans (by rw [List.length_map]; decide)
    refine ⟨s.stopNow f, exec_serves serves .stopFeed sequence _ rfl (does.trans (if_pos running)), ?_, fun g hg => ?_, fun k => ?_, fun g k hg => ?_,
      fun j => ?_, ?_, fun q => ⟨?_, fun r hr => ?_, fun r hr => ?_, fun none' => ?_⟩⟩
    · unfold State.feed
      rw [only.feeds]
      exact (State.feed_setFeed s f f _).trans (if_pos rfl)
    · unfold State.feed
      rw [only.feeds]
      exact (State.feed_setFeed s f g _).trans (if_neg hg.symm)
    · rw [positions, if_pos rfl]
      rfl
    · rw [positions, if_neg hg]
    · obtain ⟨_, w, _, e, freed, _⟩ := only
      rw [e]
      exact Freed.trimmedTo (s := s) freed j
    · obtain ⟨_, w, _, e, _⟩ := only
      rw [e]
      rfl
    · rw [ports]
      exact ControlPort.foldl_recorded_eq _ _
    · replace hr := (abandoned q r).2 hr
      rw [ports]
      refine ⟨(ControlPort.foldl_recorded_ends _ _ (List.nil_suffix) ?_).subset hr,
        ControlPort.foldl_recorded_pending _ _ (.inl (List.ne_nil_of_mem hr))⟩
      exact (Nat.zero_add _).le.trans ((room q).trans (by decide))
    · rw [ports] at hr
      exact (ControlPort.foldl_recorded_mem _ _ r hr).imp_right (abandoned q r).1
    · rw [ports, List.eq_nil_iff_forall_not_mem.2 fun r hr => none' r ((abandoned q r).1 hr)]
      rfl

end Sys2Proof.Machine
end

section
/-! SUPPORT. The fields of a position in a body, and SET POSITION (R38 to R40). -/

namespace Sys2Proof.Machine

/-! ### Fields -/

theorem sourceOrNone_sourceByte (o : Option SrcNo) : sourceOrNone (sourceByte o) = some o := by
  cases o with
  | none => rfl
  | some i => revert i; decide

theorem sourceOrNone_eq_none {b : Byte} (h : 15 < b.toNat) (h' : b.toNat ≠ 255) : sourceOrNone b = none := by
  unfold sourceOrNone
  rw [if_neg (by rintro rfl; exact h' rfl), toFin_eq_none.2 h]
  rfl

theorem spliceOf_spliceByte {x : Splice} (h : ∀ w, x = .entry w → 1 ≤ w ∧ w ≤ 50) : spliceOf (spliceByte x) = some x := by
  cases x with
  | immediate => rfl
  | entry w =>
    obtain ⟨low, high⟩ := h w rfl
    have number : (nat8 w).toNat = w := toNat_byte (by omega)
    change spliceOf (nat8 w) = _
    unfold spliceOf
    rw [if_neg (by intro e; rw [e] at number; simp at number; omega), number, if_pos high]

theorem spliceOf_eq_none {b : Byte} (h : 50 < b.toNat) : spliceOf b = none := by
  unfold spliceOf
  rw [if_neg (by rintro rfl; simp at h), if_neg (by omega)]

/-- The number of an identifier in a body (R38). -/
def idNumber (o : Option Nat) : Nat := o.getD 65535

theorem idBytes_eq (o : Option Nat) : idBytes o = natBytes 2 (idNumber o) := by cases o <;> rfl

theorem idsBytes_eq (v : Vector (Option Nat) 4) : idsBytes v = natBytes 2 (idNumber (tget v 0)) ++ natBytes 2 (idNumber (tget v 1)) ++
    natBytes 2 (idNumber (tget v 2)) ++ natBytes 2 (idNumber (tget v 3)) := by
  unfold idsBytes
  rw [Vector.toList_four]
  simp [idBytes_eq]

theorem idOrNone_idNumber {low : Nat} {o : Option Nat} (h : ∀ n, o = some n → low ≤ n ∧ n ≤ 8190) : idOrNone low (idNumber o) = some o := by
  cases o with
  | none => rfl
  | some n =>
    obtain ⟨least, most⟩ := h n rfl
    change idOrNone low n = _
    unfold idOrNone
    rw [if_neg (by omega), if_pos ⟨least, most⟩]

theorem idOrNone_eq_none {low n : Nat} : idOrNone low n = none ↔ (n < low ∨ 8190 < n) ∧ n ≠ 65535 := by
  unfold idOrNone
  split
  · simp [*]
  · split
    · simp; omega
    · simp; omega

theorem idNumber_lt {o : Option Nat} (h : ∀ n, o = some n → n ≤ 8190) : idNumber o < 65536 := by
  cases o with
  | none => decide
  | some n => exact (h n rfl).trans_lt (by decide)

theorem idsAt_some {low : Nat} {b : List Byte} {i : Nat} {v : Vector (Option Nat) 4}
    (h : ∀ c : CompNo, idOrNone low (natAt b (i + 2 * c.val) 2) = some (tget v c)) : idsAt low b i = some v := by
  unfold idsAt
  rw [show natAt b i 2 = natAt b (i + 2 * (0 : CompNo).val) 2 from rfl, h 0, show natAt b (i + 2) 2 = natAt b (i + 2 * (1 : CompNo).val) 2 from rfl, h 1,
    show natAt b (i + 4) 2 = natAt b (i + 2 * (2 : CompNo).val) 2 from rfl, h 2,
    show natAt b (i + 6) 2 = natAt b (i + 2 * (3 : CompNo).val) 2 from rfl, h 3]
  refine congrArg some (tget_ext _ _ fun c => ?_)
  fin_cases c <;> rfl

theorem idsAt_eq_none {low : Nat} {b : List Byte} {i : Nat} (c : CompNo) (h : idOrNone low (natAt b (i + 2 * c.val) 2) = none) :
    idsAt low b i = none := by
  unfold idsAt
  fin_cases c
  · rw [show idOrNone low (natAt b i 2) = none from h]
  · rw [show idOrNone low (natAt b (i + 2) 2) = none from h]
    cases idOrNone low (natAt b i 2) <;> rfl
  · rw [show idOrNone low (natAt b (i + 4) 2) = none from h]
    cases idOrNone low (natAt b i 2) <;> cases idOrNone low (natAt b (i + 2) 2) <;> rfl
  · rw [show idOrNone low (natAt b (i + 6) 2) = none from h]
    cases idOrNone low (natAt b i 2) <;> cases idOrNone low (natAt b (i + 2) 2) <;> cases idOrNone low (natAt b (i + 4) 2) <;> rfl

/-- Identifiers within their range read back from their bytes (R38). -/
theorem idsAt_idsBytes {low : Nat} (front rest : List Byte) {v : Vector (Option Nat) 4} (range' : ∀ c n, tget v c = some n → low ≤ n ∧ n ≤ 8190) :
    idsAt low (front ++ idsBytes v ++ rest) front.length = some v := by
  have small : ∀ c, idNumber (tget v c) < 65536 := fun c => idNumber_lt fun n h => (range' c n h).2
  refine idsAt_some fun c => ?_
  rw [idsBytes_eq]
  have read : natAt (front ++ (natBytes 2 (idNumber (tget v 0)) ++ natBytes 2 (idNumber (tget v 1)) ++ natBytes 2 (idNumber (tget v 2)) ++
      natBytes 2 (idNumber (tget v 3))) ++ rest) (front.length + 2 * c.val) 2 = idNumber (tget v c) := by
    refine (natAt_two _ _ _ _ ?_).trans (toNat_natBytes_two (small c))
    rw [List.append_assoc, List.drop_append, List.drop_of_length_le (Nat.le_add_right _ _), List.nil_append, Nat.add_sub_cancel_left]
    fin_cases c <;> rfl
  rw [read]
  exact idOrNone_idNumber (range' c)

/-! ### The groups of SET POSITION -/

section
variable (x : Position) (b : List Byte)

/-- The identifiers that SET POSITION gives. -/
def idsGroup : Option (Vector (Option Nat) 4) := if (byteAt b 2).getLsbD 0 then idsAt 1 b 3 else some x.ids

/-- The base that SET POSITION gives. -/
def baseGroup : Option (Option SrcNo) := if (byteAt b 2).getLsbD 1 then sourceOrNone (byteAt b 11) else some x.base

/-- The fallback that SET POSITION gives. -/
def fallbackGroup : Option (Option SrcNo) := if (byteAt b 2).getLsbD 2 then sourceOrNone (byteAt b 12) else some x.fallback

/-- The return policy that SET POSITION gives. -/
def policyGroup : Option Splice := if (byteAt b 2).getLsbD 3 then spliceOf (byteAt b 13) else some x.policy

theorem positionValues_eq : positionValues x b = if 16 ≤ (byteAt b 2).toNat then none
    else match idsGroup x b, baseGroup x b, fallbackGroup x b, policyGroup x b with
      | some ids, some base, some fallback, some policy => some (ids, base, fallback, policy)
      | _, _, _, _ => none := rfl

end

theorem positionValues_some {x : Position} {b : List Byte} (small : (byteAt b 2).toNat < 16) {ids : Vector (Option Nat) 4}
    {base fallback : Option SrcNo} {policy : Splice} (hi : idsGroup x b = some ids) (hb : baseGroup x b = some base)
    (hf : fallbackGroup x b = some fallback) (hp : policyGroup x b = some policy) :
    positionValues x b = some (ids, base, fallback, policy) := by
  rw [positionValues_eq, if_neg (by omega), hi, hb, hf, hp]

theorem positionValues_none {x : Position} {b : List Byte} (h : 16 ≤ (byteAt b 2).toNat ∨ idsGroup x b = none ∨ baseGroup x b = none ∨
    fallbackGroup x b = none ∨ policyGroup x b = none) : positionValues x b = none := by
  rw [positionValues_eq]
  split
  · rfl
  · rename_i small
    rcases h with big | h | h | h | h
    · exact absurd big small
    · rw [h]
    · rw [h]
      cases idsGroup x b <;> rfl
    · rw [h]
      cases idsGroup x b <;> cases baseGroup x b <;> rfl
    · rw [h]
      cases idsGroup x b <;> cases baseGroup x b <;> cases fallbackGroup x b <;> rfl

/-- The groups of SET POSITION are read from their own bytes, and only where they are flagged (R39). -/
theorem positionValues_congr {b other : List Byte} (length : b.length = 14) (length' : other.length = 14) (flags : byteAt other 2 = byteAt b 2)
    (ids : (byteAt b 2).getLsbD 0 = true → ∀ k, 3 ≤ k → k ≤ 10 → byteAt other k = byteAt b k)
    (base : (byteAt b 2).getLsbD 1 = true → byteAt other 11 = byteAt b 11)
    (fallback : (byteAt b 2).getLsbD 2 = true → byteAt other 12 = byteAt b 12)
    (policy : (byteAt b 2).getLsbD 3 = true → byteAt other 13 = byteAt b 13) (x : Position) : positionValues x other = positionValues x b := by
  have hi : idsGroup x other = idsGroup x b := by
    unfold idsGroup
    rw [flags]
    split
    · rename_i on
      have two : ∀ i, 3 ≤ i → i ≤ 9 → natAt other i 2 = natAt b i 2 := fun i h h' => by
        rw [natAt_two_byteAt (by omega), natAt_two_byteAt (by omega), ids on i h (by omega), ids on (i + 1) (by omega) (by omega)]
      unfold idsAt
      rw [two 3 (by omega) (by omega), two 5 (by omega) (by omega), two 7 (by omega) (by omega), two 9 (by omega) (by omega)]
    · rfl
  have hb : baseGroup x other = baseGroup x b := by
    unfold baseGroup
    rw [flags]
    split
    · rw [base ‹_›]
    · rfl
  have hf : fallbackGroup x other = fallbackGroup x b := by
    unfold fallbackGroup
    rw [flags]
    split
    · rw [fallback ‹_›]
    · rfl
  have hp : policyGroup x other = policyGroup x b := by
    unfold policyGroup
    rw [flags]
    split
    · rw [policy ‹_›]
    · rfl
  rw [positionValues_eq, positionValues_eq, flags, hi, hb, hf, hp]

end Sys2Proof.Machine
end

section
/-! SUPPORT. SET POSITION: its checks, and what it makes of the position (R39, R40). -/

namespace Sys2Proof.Machine

theorem ControlPort.feedOf_exists {x : ControlPort} {b : Byte} (h : x.authority.feedMap.getLsbD b.toNat = true) : ∃ f, x.feedOf b = some f := by
  unfold ControlPort.feedOf
  rw [show x.holdsFeed b.toNat = true from h, if_pos rfl]
  refine Option.ne_none_iff_exists'.1 fun none' => ?_
  rw [toFin_eq_none] at none'
  rw [BitVec.getLsbD_of_ge _ _ none'] at h
  cases h

section
variable {p : PortNo} {b : List Byte} {s : State}

theorem reqSetPosition_unheld (h : (s.port p).authority.configure = false ∨ (s.port p).feedOf (byteAt b 0) = none) :
    reqSetPosition p b s = refuse s .notPermitted := by
  unfold reqSetPosition
  by_cases on : (s.port p).authority.configure = true
  · rw [on, h.resolve_left (by rw [on]; decide)]
    rfl
  · rw [Bool.not_eq_true] at on
    rw [on]
    rfl

variable {f : FeedNo} (configure : (s.port p).authority.configure = true) (held : (s.port p).feedOf (byteAt b 0) = some f)
include configure held

theorem reqSetPosition_place (h : toFin 8 (byteAt b 1).toNat = none) : reqSetPosition p b s = refuse s .range := by
  unfold reqSetPosition
  rw [configure, held, h]
  rfl

variable {k : PosNo} (place : toFin 8 (byteAt b 1).toNat = some k)
include place

theorem reqSetPosition_range (h : positionValues (s.pos f k) b = none) : reqSetPosition p b s = refuse s .range := by
  unfold reqSetPosition
  rw [configure, held, place]
  dsimp only
  rw [h]
  rfl

theorem reqSetPosition_values {v : Vector (Option Nat) 4 × Option SrcNo × Option SrcNo × Splice} (h : positionValues (s.pos f k) b = some v) :
    reqSetPosition p b s = if (byteAt b 2).getLsbD 1 && (s.feed f).running then refuse s .feedState
      else if (byteAt b 2).getLsbD 0 && !distinctFrom v.1 (s.feedIds f (some k) none) then refuse s .duplicateId
      else accept (((s.setPos f k (s.withSettings f k (byteAt b 2) v)).trimOpt (s.pos f k).onAirSource).handOver f k (s.pos f k).effective
        ((s.withSettings f k (byteAt b 2) v).markPolicy (requestPolicy (byteAt b 2) (s.pos f k).policy v.2.2.2)) none) [] := by
  unfold reqSetPosition
  rw [configure, held, place]
  dsimp only
  rw [h]
  rfl

end

/-- The settings of a position replaced (R40). -/
theorem State.withSettings_eq (s : State) (f : FeedNo) (k : PosNo) (flags : Byte) (v : Vector (Option Nat) 4 × Option SrcNo × Option SrcNo × Splice) :
    s.withSettings f k flags v = { s.pos f k with
      ids := v.1, base := v.2.1, fallback := v.2.2.1, policy := v.2.2.2
      onAir := (s.pos f k).onAir.map fun c => ⟨c.source, if flags.getLsbD 0 then
        ((s.unreadAt c).dropWhile fun x => !(tget v.1 x.comp).isSome).length else c.lag⟩
      baseMark := if flags.getLsbD 1 || flags.getLsbD 2 then s.markFor v.2.1 v.2.2.1 else (s.pos f k).baseMark
      upper := if flags.getLsbD 2 then (s.pos f k).upper.map fun e => { e with mark := s.markFor (some e.source) v.2.2.1 } else (s.pos f k).upper } := by
  unfold State.withSettings
  dsimp only
  generalize s.pos f k = x
  obtain ⟨_, _, _, _, _, _, _, onAir, _, _⟩ := x
  cases flags.getLsbD 0 <;> cases flags.getLsbD 1 <;> cases flags.getLsbD 2 <;> cases onAir <;> rfl

/-- A position replaced and a ring freed, before the change is handed over. -/
theorem State.freed_handOver (s : State) (f : FeedNo) (k : PosNo) (y : Position) (i : Option SrcNo) (policy : Splice) :
    ∃ w, (∀ j, (s.src j).trimmedTo (tget w j)) ∧ ((s.setPos f k y).trimOpt i).handOver f k (s.pos f k).effective policy none =
      ({ s with sources := w } : State).handedOver f k y policy none := by
  obtain ⟨w, e, freed⟩ := trimOpt_frame (s.setPos f k y) i
  refine ⟨w, Freed.trimmedTo (s := s) freed, ?_⟩
  rw [e]
  exact State.setPos_handOver ({ s with sources := w } : State) f k y policy none

theorem distinctFrom_iff (ids : Vector (Option Nat) 4) (others : List Nat) :
    distinctFrom ids others = false ↔ ¬(present ids).Nodup ∨ ∃ n, n ∈ present ids ∧ n ∈ others := by
  unfold distinctFrom
  simp only [Bool.and_eq_false_iff, decide_eq_false_iff_not, List.all_eq_false, Bool.not_eq_true, Bool.not_eq_false', List.contains_iff_mem]

section
variable (f : FeedNo) (place : Byte) (flags : BitVec 4) (ids : Vector (Option Nat) 4) (base fallback : Option SrcNo) (policy : Splice)

/-- The body of SET POSITION (12.3). -/
def positionBody : List Byte :=
  [BitVec.ofNat 8 f.val, place, flags.setWidth 8] ++ idsBytes ids ++ [sourceByte base, sourceByte fallback, spliceByte policy]

theorem positionBody_length : (positionBody f place flags ids base fallback policy).length = 14 := by
  unfold positionBody
  rw [idsBytes_eq]
  rfl

theorem byteAt_positionBody : byteAt (positionBody f place flags ids base fallback policy) 11 = sourceByte base ∧
    byteAt (positionBody f place flags ids base fallback policy) 12 = sourceByte fallback ∧
    byteAt (positionBody f place flags ids base fallback policy) 13 = spliceByte policy := by
  unfold positionBody
  rw [idsBytes_eq]
  exact ⟨rfl, rfl, rfl⟩

/-- The values of a body within its ranges. -/
theorem positionValues_positionBody (x : Position) (range' : ∀ c n, tget ids c = some n → 1 ≤ n ∧ n ≤ 8190)
    (waits : ∀ w, policy = .entry w → 1 ≤ w ∧ w ≤ 50) : positionValues x (positionBody f place flags ids base fallback policy) =
      some (if flags.getLsbD 0 then ids else x.ids, if flags.getLsbD 1 then base else x.base,
        if flags.getLsbD 2 then fallback else x.fallback, if flags.getLsbD 3 then policy else x.policy) := by
  obtain ⟨hb, hf, hp⟩ := byteAt_positionBody f place flags ids base fallback policy
  have set : byteAt (positionBody f place flags ids base fallback policy) 2 = flags.setWidth 8 := rfl
  have bit : ∀ n, n < 4 → (flags.setWidth 8).getLsbD n = flags.getLsbD n := fun n hn => by
    rw [BitVec.getLsbD_setWidth]
    simp [show n < 8 by omega]
  have small : (flags.setWidth 8 : Byte).toNat < 16 := by
    have := flags.isLt
    rw [BitVec.toNat_setWidth]
    omega
  have read : idsAt 1 (positionBody f place flags ids base fallback policy) 3 = some ids := idsAt_idsBytes
    [BitVec.ofNat 8 f.val, place, flags.setWidth 8] [sourceByte base, sourceByte fallback, spliceByte policy] range'
  refine positionValues_some (by rw [set]; exact small) ?_ ?_ ?_ ?_
  · unfold idsGroup
    rw [set, bit 0 (by omega), read]
    split <;> rfl
  · unfold baseGroup
    rw [set, bit 1 (by omega), hb, sourceOrNone_sourceByte]
    split <;> rfl
  · unfold fallbackGroup
    rw [set, bit 2 (by omega), hf, sourceOrNone_sourceByte]
    split <;> rfl
  · unfold policyGroup
    rw [set, bit 3 (by omega), hp, spliceOf_spliceByte waits]
    split <;> rfl

end

/-- Settles O41: the checks in their order, the settings by `State.withSettings_eq`, and the change handed over. -/
theorem setPositionApplied : Obligations.SetPositionApplied := by
  unfold Obligations.SetPositionApplied
  refine ⟨fun s p sequence f place flags ids base fallback policy serves range' waits => ?_, fun s p sequence body serves length => ?_⟩
  · have answer := fun {t reply} does => exec_serves (t := t) (reply := reply) serves .setPosition sequence _
      (positionBody_length f place flags ids base fallback policy) does
    refine ⟨fun off => answer (reqSetPosition_unheld (off.imp_right ControlPort.feedOf_unheld)), fun configure held => ?_⟩
    have some' := ControlPort.feedOf_held held
    refine ⟨fun stray => answer (reqSetPosition_place configure some' (toFin_eq_none.2 stray)), fun k hk => ?_⟩
    have hk' : toFin 8 (byteAt (positionBody f place flags ids base fallback policy) 1).toNat = some k := toFin_of_val hk
    have set : byteAt (positionBody f place flags ids base fallback policy) 2 = flags.setWidth 8 := rfl
    have bit : ∀ n, n < 4 → (flags.setWidth 8).getLsbD n = flags.getLsbD n := fun n hn => by
      rw [BitVec.getLsbD_setWidth]
      simp [show n < 8 by omega]
    have does := reqSetPosition_values (b := positionBody f place flags ids base fallback policy) configure some' hk' (positionValues_positionBody f place flags ids base fallback policy (s.pos f k) range' waits)
    rw [set, bit 0 (by omega), bit 1 (by omega)] at does
    refine ⟨fun based running => answer (does.trans (if_pos (by rw [based, running]; rfl))), fun still => ?_⟩
    have free : ¬((flags.getLsbD 1 && (s.feed f).running) = true) := by
      rw [Bool.and_eq_true, not_and_or, Bool.not_eq_true, Bool.not_eq_true]
      exact still
    replace does := does.trans (if_neg free)
    have test : (flags.getLsbD 0 && !distinctFrom (if flags.getLsbD 0 then ids else (s.pos f k).ids) (s.feedIds f (some k) none)) = true ↔
        flags.getLsbD 0 = true ∧ (¬(present ids).Nodup ∨ ∃ n, n ∈ present ids ∧ n ∈ s.feedIds f (some k) none) := by
      rw [Bool.and_eq_true, Bool.not_eq_true', distinctFrom_iff]
      refine and_congr_right fun on => ?_
      rw [if_pos on]
    refine ⟨fun clash => answer (does.trans (if_pos (test.2 clash))), fun distinct => ?_⟩
    replace does := does.trans (if_neg fun k => distinct (test.1 k))
    have put := State.withSettings_eq s f k (flags.setWidth 8) (if flags.getLsbD 0 then ids else (s.pos f k).ids,
      if flags.getLsbD 1 then base else (s.pos f k).base, if flags.getLsbD 2 then fallback else (s.pos f k).fallback,
      if flags.getLsbD 3 then policy else (s.pos f k).policy)
    rw [bit 0 (by omega), bit 1 (by omega), bit 2 (by omega)] at put
    have kept : requestPolicy (flags.setWidth 8) (s.pos f k).policy (if flags.getLsbD 3 then policy else (s.pos f k).policy) = (s.pos f k).policy ∨
        flags.getLsbD 2 = true ∧ flags.getLsbD 3 = true ∧
          requestPolicy (flags.setWidth 8) (s.pos f k).policy (if flags.getLsbD 3 then policy else (s.pos f k).policy) = policy := by
      unfold requestPolicy
      rw [bit 2 (by omega), bit 3 (by omega)]
      cases flags.getLsbD 2 <;> cases flags.getLsbD 3 <;> cases Config.sameRequestPolicyIsNew <;> simp
    generalize requestPolicy (flags.setWidth 8) (s.pos f k).policy (if flags.getLsbD 3 then policy else (s.pos f k).policy) = policy' at does kept
    generalize s.withSettings f k (flags.setWidth 8) _ = y at does put
    subst put
    obtain ⟨w, freed, e⟩ := s.freed_handOver f k _ (s.pos f k).onAirSource _
    refine ⟨_, answer does, ?_, ⟨w, policy', freed, kept, e⟩, fun stopped dark => ?_⟩
    · rw [e]
      obtain ⟨z, moved, anew⟩ := handedOver_anew ({ s with sources := w } : State) f k _ _ none
      rw [moved.pos, if_pos ⟨rfl, rfl⟩]
      exact anew
    · have detached : (s.pos f k).onAirSource = none := by unfold Position.onAirSource; rw [dark]; rfl
      rw [detached]
      refine (State.setPos_handOver s f k _ _ none).trans ((State.handedOver_same s f k _ _ none (.inl stopped)).trans ?_)
      rw [dark]
      rfl
  · have answer := fun {t reply} does => exec_serves (t := t) (reply := reply) serves .setPosition sequence body length does
    refine ⟨fun off => answer (reqSetPosition_unheld (off.imp_right ControlPort.feedOf_stray)), fun configure held out => ?_, fun other length' same => ?_⟩
    · obtain ⟨f, some'⟩ : ∃ f, (s.port p).feedOf (byteAt body 0) = some f := ControlPort.feedOf_exists held
      cases hk : toFin 8 (byteAt body 1).toNat with
      | none => exact answer (reqSetPosition_place configure some' hk)
      | some k =>
        have low := (toFin_eq_some.1 hk).symm.le.trans_lt k.isLt
        refine answer (reqSetPosition_range configure some' hk (positionValues_none ?_))
        unfold idsGroup baseGroup fallbackGroup policyGroup
        rcases out with far | big | ⟨on, i, hi, bad⟩ | ⟨on, high, other⟩ | ⟨on, high, other⟩ | ⟨on, high⟩
        · exact absurd far (Nat.not_lt.2 (Nat.le_of_lt_succ low))
        · exact .inl big
        · refine .inr (.inl ((if_pos on).trans ?_))
          have none' : ∀ n, n = 0 ∨ 8190 < n ∧ n ≠ 65535 → idOrNone 1 n = none := fun n h => idOrNone_eq_none.2 (by omega)
          simp only [List.mem_cons, List.not_mem_nil, or_false] at hi
          rcases hi with rfl | rfl | rfl | rfl
          · exact idsAt_eq_none 0 (none' _ bad)
          · exact idsAt_eq_none 1 (none' _ bad)
          · exact idsAt_eq_none 2 (none' _ bad)
          · exact idsAt_eq_none 3 (none' _ bad)
        · exact .inr (.inr (.inl ((if_pos on).trans (sourceOrNone_eq_none high other))))
        · exact .inr (.inr (.inr (.inl ((if_pos on).trans (sourceOrNone_eq_none high other)))))
        · exact .inr (.inr (.inr (.inr ((if_pos on).trans (spliceOf_eq_none high)))))
    · refine exec_same serves .setPosition sequence body other length length' ?_
      have byte : ∀ k, k < 3 → byteAt other k = byteAt body k := fun k hk =>
        same k (by omega) (by omega) (by omega) (by omega) (by omega)
      change reqSetPosition p other s = reqSetPosition p body s
      unfold reqSetPosition
      rw [byte 0 (by omega), byte 1 (by omega), byte 2 (by omega)]
      simp only [positionValues_congr length length' (byte 2 (by omega)) (fun on k low high => same k (by omega) (fun _ _ => on) (by omega) (by omega) (by omega))
        (fun on => same 11 (by omega) (by omega) (fun _ => on) (by omega) (by omega))
        (fun on => same 12 (by omega) (by omega) (by omega) (fun _ => on) (by omega))
        (fun on => same 13 (by omega) (by omega) (by omega) (by omega) fun _ => on)]

end Sys2Proof.Machine
end

section
/-! SUPPORT. The source table entry and its bytes (R84, R85, 12.4). -/

namespace Sys2Proof.Machine

/-! ### Bytes at an offset -/

theorem byteAt_drop (b : List Byte) (i k : Nat) : byteAt (b.drop i) k = byteAt b (i + k) := by
  unfold byteAt
  rw [List.getD_eq_getElem?_getD, List.getD_eq_getElem?_getD, List.getElem?_drop]

theorem byteAt_append_left {a b : List Byte} {k : Nat} (h : k < a.length) : byteAt (a ++ b) k = byteAt a k := by
  unfold byteAt
  rw [List.getD_append _ _ _ _ h]

theorem byte_of_toNat {b : Byte} {n : Nat} (h : b.toNat = n) : b = BitVec.ofNat 8 n := by
  rw [← h, BitVec.ofNat_toNat, BitVec.setWidth_eq]

/-! ### Fields of one byte -/

theorem rateModeOf_iff (b : Byte) (m : RateMode) : rateModeOf b = some m ↔ b = rateModeByte m := by
  unfold rateModeOf
  refine ⟨fun h => ?_, ?_⟩
  · split at h
    · rename_i e; cases h; exact e
    · split at h
      · rename_i e; cases h; exact e
      · split at h
        · rename_i e; cases h; exact e
        · cases h
  · rintro rfl
    cases m <;> rfl

/-- The byte of a clock component (12.4). -/
def clockByte : Option CompNo → Byte
  | some c => nat8 c.val
  | none => 0xFF

theorem clockCompOf_iff (comps : Vector (Option Nat) 4) (b : Byte) (c : Option CompNo) :
    clockCompOf comps b = some c ↔ b = clockByte c ∧ ∀ k, c = some k → (tget comps k).isSome = true := by
  unfold clockCompOf
  refine ⟨fun h => ?_, ?_⟩
  · split at h
    · rename_i e
      cases h
      exact ⟨e, fun k hk => by cases hk⟩
    · cases hk : toFin 4 b.toNat with
      | none => rw [hk] at h; cases h
      | some k =>
        rw [hk] at h
        dsimp only at h
        split at h
        · rename_i present'
          cases h
          exact ⟨byte_of_toNat (toFin_eq_some.1 hk).symm, fun j hj => by cases hj; exact present'⟩
        · cases h
  · rintro ⟨rfl, present'⟩
    cases c with
    | none => rfl
    | some k =>
      have number : (nat8 k.val).toNat = k.val := toNat_byte (by omega)
      change (if nat8 k.val = 0xFF then _ else _) = _
      rw [if_neg (by intro e; rw [e] at number; simp at number; omega),
        show toFin 4 (clockByte (some k)).toNat = some k from toFin_of_val number.symm]
      dsimp only
      rw [if_pos (present' k rfl)]

theorem flagByte_bits (a b c d e : Bool) : (flagByte a b c d e).getLsbD 0 = a ∧ (flagByte a b c d e).getLsbD 1 = b ∧
    (flagByte a b c d e).getLsbD 2 = c ∧ (flagByte a b c d e).getLsbD 3 = d ∧ (flagByte a b c d e).getLsbD 4 = e := by
  cases a <;> cases b <;> cases c <;> cases d <;> cases e <;> decide

theorem flagByte_of_lt_eight (b : Byte) (h : b.toNat < 8) : b = flagByte (b.getLsbD 0) (b.getLsbD 1) (b.getLsbD 2) false false := by
  have all : ∀ n : Fin 8, (BitVec.ofNat 8 n.val : Byte) = flagByte ((BitVec.ofNat 8 n.val : Byte).getLsbD 0) ((BitVec.ofNat 8 n.val : Byte).getLsbD 1)
      ((BitVec.ofNat 8 n.val : Byte).getLsbD 2) false false := by decide
  rw [byte_of_toNat (n := b.toNat) rfl]
  exact all ⟨b.toNat, h⟩

theorem flagByte_of_lt_sixteen (b : Byte) (h : b.toNat < 16) : b = checksByte (checksOf b) := by
  have all : ∀ n : Fin 16, (BitVec.ofNat 8 n.val : Byte) = checksByte (checksOf (BitVec.ofNat 8 n.val)) := by decide
  rw [byte_of_toNat (n := b.toNat) rfl]
  exact all ⟨b.toNat, h⟩

theorem checksOf_checksByte (c : Checks) : checksOf (checksByte c) = c := by
  obtain ⟨c0, c1, c2, c3, -⟩ := flagByte_bits c.sync c.continuity c.rate c.clock false
  unfold checksOf checksByte
  rw [c0, c1, c2, c3]

theorem flagByte_lt (a b c d : Bool) : (flagByte a b c false false).toNat < 8 ∧ (flagByte a b c d false).toNat < 16 := by
  cases a <;> cases b <;> cases c <;> cases d <;> decide

/-! ### The entry -/

/-- What the bytes of a source table entry hold (R84). -/
def SourceEntry.readAt (t : SourceEntry) (b : List Byte) (i : Nat) : Prop :=
  idsAt 0 b (i + 2) = some t.comps ∧ byteAt b (i + 12) = rateModeByte t.rateMode ∧ byteAt b (i + 10) = clockByte t.clockComp ∧
    (byteAt b (i + 11)).toNat = t.staleLimit ∧ natAt b (i + 13) 2 = t.low ∧ natAt b (i + 15) 2 = t.high ∧
    (byteAt b (i + 17)).toNat = t.tolerance ∧ (byteAt b (i + 18)).toNat = t.faultThreshold ∧
    (byteAt b (i + 19)).toNat = t.recoveryThreshold ∧ (byteAt b i).getLsbD 0 = t.enabled ∧ (byteAt b i).getLsbD 1 = t.fallbackPermit ∧
    (byteAt b i).getLsbD 2 = t.noticePermit ∧ checksOf (byteAt b (i + 1)) = t.checks

theorem idsAt_small {b : List Byte} {i : Nat} {v : Vector (Option Nat) 4} {low : Nat} (h : idsAt low b i = some v) (c : CompNo) :
    idOrNone low (natAt b (i + 2 * c.val) 2) = some (tget v c) := by
  cases e : idOrNone low (natAt b (i + 2 * c.val) 2) with
  | none => rw [idsAt_eq_none c e] at h; cases h
  | some o =>
    have all : ∀ d : CompNo, ∃ o, idOrNone low (natAt b (i + 2 * d.val) 2) = some o := fun d => by
      cases k : idOrNone low (natAt b (i + 2 * d.val) 2) with
      | none => rw [idsAt_eq_none d k] at h; cases h
      | some o => exact ⟨o, rfl⟩
    choose o' ho using all
    have whole := idsAt_some (b := b) (i := i) (low := low) (v := #v[o' 0, o' 1, o' 2, o' 3]) fun d => by
      rw [ho]
      fin_cases d <;> rfl
    rw [whole] at h
    cases h
    rw [← e, ho]
    fin_cases c <;> rfl

theorem idOrNone_some {low n : Nat} {o : Option Nat} (h : idOrNone low n = some o) : n = idNumber o ∧ ∀ k, o = some k → low ≤ k ∧ k ≤ 8190 := by
  unfold idOrNone at h
  split at h
  · rename_i e; cases h; exact ⟨e, fun k hk => by cases hk⟩
  · split at h
    · rename_i e; cases h; exact ⟨rfl, fun k hk => by cases hk; exact e⟩
    · cases h

/-- A source table entry in its bytes (R84, R85 check 2). -/
theorem sourceEntryAt_iff (b : List Byte) (i : Nat) (t : SourceEntry) : sourceEntryAt b i = some t ↔ t.readAt b i ∧ t.inRange := by
  unfold sourceEntryAt SourceEntry.readAt SourceEntry.inRange
  constructor
  · intro h
    cases hi : idsAt 0 b (i + 2) with
    | none => rw [hi] at h; cases h
    | some comps =>
      cases hm : rateModeOf (byteAt b (i + 12)) with
      | none => rw [hi, hm] at h; cases h
      | some mode =>
        rw [hi, hm] at h
        dsimp only at h
        cases hc : clockCompOf comps (byteAt b (i + 10)) with
        | none => rw [hc] at h; cases h
        | some clock =>
          rw [hc] at h
          dsimp only at h
          split at h
          · rename_i within
            obtain ⟨s1, s2, l, hh, band, tol, f1, f2, r1, r2⟩ := within
            cases h
            obtain ⟨ce, cp⟩ := (clockCompOf_iff _ _ _).1 hc
            exact ⟨⟨rfl, (rateModeOf_iff _ _).1 hm, ce, rfl, rfl, rfl, rfl, rfl, rfl, rfl, rfl, rfl, rfl⟩,
              fun c n hn => ((idOrNone_some (idsAt_small hi c)).2 n hn).2, cp, ⟨s1, s2⟩, l, hh, band, tol, ⟨f1, f2⟩, r1, r2⟩
          · cases h
  · rintro ⟨⟨hi, hm, hc, hs, hl, hh, ht, hf, hr, e, p, n, c⟩, -, cp, ⟨s1, s2⟩, l, h', band, tol, ⟨f1, f2⟩, r1, r2⟩
    rw [hi, (rateModeOf_iff _ _).2 hm]
    dsimp only
    rw [(clockCompOf_iff _ _ _).2 ⟨hc, cp⟩]
    dsimp only
    rw [hs, hl, hh, ht, hf, hr, e, p, n, c, if_pos ⟨s1, s2, l, h', band, tol, f1, f2, r1, r2⟩]

theorem sourceEntryBytes_eq (t : SourceEntry) : sourceEntryBytes t =
    [flagByte t.enabled t.fallbackPermit t.noticePermit false false, checksByte t.checks] ++ idsBytes t.comps ++
    [clockByte t.clockComp, nat8 t.staleLimit, rateModeByte t.rateMode] ++ natBytes 2 t.low ++ natBytes 2 t.high ++
    [nat8 t.tolerance, nat8 t.faultThreshold, nat8 t.recoveryThreshold] := by
  unfold sourceEntryBytes
  cases t.clockComp <;> rfl

theorem sourceEntryBytes_length (t : SourceEntry) : (sourceEntryBytes t).length = 20 := by
  rw [sourceEntryBytes_eq, idsBytes_eq]
  rfl

/-- An entry within its ranges reads back from its bytes, wherever they stand. -/
theorem sourceEntryAt_bytes (front rest : List Byte) {t : SourceEntry} (h : t.inRange) :
    sourceEntryAt (front ++ sourceEntryBytes t ++ rest) front.length = some t := by
  rw [sourceEntryAt_iff]
  refine ⟨?_, h⟩
  obtain ⟨ids, -, stale, low, high, -, tol, fault, recovery⟩ := h
  have byte : ∀ k, k < 20 → byteAt (front ++ sourceEntryBytes t ++ rest) (front.length + k) = byteAt (sourceEntryBytes t) k := fun k hk => by
    rw [← byteAt_drop, List.append_assoc, List.drop_left, byteAt_append_left (by rw [sourceEntryBytes_length]; exact hk)]
  have two : ∀ k, k + 2 ≤ 20 → natAt (front ++ sourceEntryBytes t ++ rest) (front.length + k) 2 = natAt (sourceEntryBytes t) k 2 := fun k hk => by
    have length := sourceEntryBytes_length t
    rw [natAt_two_byteAt (by simp only [List.length_append, length]; omega), natAt_two_byteAt (by omega), byte k (by omega),
      Nat.add_assoc, byte (k + 1) (by omega)]
  have zero := byte 0 (by omega)
  obtain ⟨b0, b1, b2, -⟩ := flagByte_bits t.enabled t.fallbackPermit t.noticePermit false false
  have first : byteAt (sourceEntryBytes t) 0 = flagByte t.enabled t.fallbackPermit t.noticePermit false false := rfl
  unfold SourceEntry.readAt
  rw [Nat.add_zero] at zero
  rw [byte 12 (by omega), byte 10 (by omega), byte 11 (by omega), two 13 (by omega), two 15 (by omega), byte 17 (by omega), byte 18 (by omega),
    byte 19 (by omega), zero, byte 1 (by omega), first]
  have reads := idsAt_idsBytes (low := 0) (front ++ [flagByte t.enabled t.fallbackPermit t.noticePermit false false, checksByte t.checks])
    ([clockByte t.clockComp, nat8 t.staleLimit, rateModeByte t.rateMode] ++ natBytes 2 t.low ++ natBytes 2 t.high ++
      [nat8 t.tolerance, nat8 t.faultThreshold, nat8 t.recoveryThreshold] ++ rest) (v := t.comps) fun c n hn => ⟨Nat.zero_le _, ids c n hn⟩
  have whole : front ++ [flagByte t.enabled t.fallbackPermit t.noticePermit false false, checksByte t.checks] ++ idsBytes t.comps ++
      ([clockByte t.clockComp, nat8 t.staleLimit, rateModeByte t.rateMode] ++ natBytes 2 t.low ++ natBytes 2 t.high ++
      [nat8 t.tolerance, nat8 t.faultThreshold, nat8 t.recoveryThreshold] ++ rest) = front ++ sourceEntryBytes t ++ rest := by
    rw [sourceEntryBytes_eq]
    simp only [List.append_assoc]
  rw [whole, List.length_append] at reads
  refine ⟨reads, ?_, ?_, ?_, ?_, ?_, ?_, ?_, ?_, b0, b1, b2, checksOf_checksByte t.checks⟩
  all_goals rw [sourceEntryBytes_eq, idsBytes_eq]
  · rfl
  · rfl
  · exact toNat_byte (by omega)
  · exact (natAt_two _ _ _ _ rfl).trans (toNat_natBytes_two (by omega))
  · exact (natAt_two _ _ _ _ rfl).trans (toNat_natBytes_two (by omega))
  · exact toNat_byte (by omega)
  · exact toNat_byte (by omega)
  · exact toNat_byte (by omega)

end Sys2Proof.Machine
end

section
/-! SUPPORT. Marks judged anew at every position, and the changes of effective source handed over (R51, R53, R54): the position that each
change leaves, and the records of the searches that they overtake. -/

namespace Sys2Proof.Machine

/-! ### What a change leaves at its position -/

/-- A position that has taken a change of effective source, with the wait that its policy asks for (R59 to R61). -/
def Position.taking (x : Position) (t : Option SrcNo) (wait : Option Nat) (owner : Option Owner) : Position :=
  if t = x.onAirSource then { x with slot := .steady }
  else match wait, t with
    | some w, some i => { x with slot := .seeking i (match x.slot with | .steady => w | .seeking _ v _ => v) owner }
    | _, none => { x with slot := .steady, onAir := none }
    | none, some i => { x with slot := .steady, onAir := some ⟨i, 0⟩, marks := 0xF }

theorem Position.taking_onAir {x : Position} {t : Option SrcNo} (h : t = x.onAirSource) (wait : Option Nat) (o : Option Owner) :
    x.taking t wait o = { x with slot := .steady } := if_pos h

theorem Position.taking_search {x : Position} {i : SrcNo} (h : ¬some i = x.onAirSource) (w : Nat) (o : Option Owner) :
    x.taking (some i) (some w) o = { x with slot := .seeking i (match x.slot with | .steady => w | .seeking _ v _ => v) o } := if_neg h

theorem Position.taking_now {x : Position} {t : Option SrcNo} (h : ¬t = x.onAirSource) (o : Option Owner) :
    x.taking t none o =
      { x with slot := .steady, onAir := t.map (⟨·, 0⟩), marks := if t = none then x.marks else 0xF } := by
  unfold Position.taking
  rw [if_neg h]
  cases t <;> rfl

theorem State.searchWait_none (s : State) (f : FeedNo) (p : PosNo) (policy : Splice) : s.searchWait f p none policy = none := by
  cases policy <;> rfl

/-- The position that a change taken leaves. -/
theorem takeChange_taking (s : State) (f : FeedNo) (p : PosNo) (t : Option SrcNo) (policy : Splice) (o : Option Owner) :
    MovedTo s f p ((s.pos f p).taking t (s.searchWait f p t policy) o) (s.takeChange f p t policy o) := by
  have told := fun old => ownerDone_frame s f p old ⟨false, false, false, false, true⟩
  have done : ∀ (u : State) o fl, OnlyPorts u (u.ownerDone f p o fl) := fun u o fl => ownerDone_frame u f p o fl
  have now : ∀ u : State, ¬t = (u.pos f p).onAirSource → MovedTo u f p ((u.pos f p).taking t none o) (u.switchNow f p t) := fun u off => by
    rw [Position.taking_now off]
    have moved := (u.switchNow_writes f p t).movedTo
    cases t <;> exact moved
  cases hslot : (s.pos f p).slot with
  | steady =>
    by_cases hair : t = (s.pos f p).onAirSource
    · rw [State.takeChange_steady_onAir o hslot hair, Position.taking_onAir hair]
      have same : { s.pos f p with slot := .steady } = s.pos f p := by rw [← hslot]
      rw [same]
      exact (done s o .none).movedTo
    · cases hwait : s.searchWait f p t policy with
      | none =>
        rw [State.takeChange_steady_now o hslot hair hwait]
        exact (now s hair).told (done _ _ _)
      | some w =>
        cases t with
        | none => rw [State.searchWait_none] at hwait; cases hwait
        | some i =>
          rw [State.takeChange_steady_search o hslot hair hwait, Position.taking_search hair, hslot]
          exact (s.seek_writes f p i w o).movedTo
  | seeking j v old =>
    by_cases hair : t = (s.pos f p).onAirSource
    · rw [State.takeChange_seeking_onAir o hslot hair, Position.taking_onAir hair]
      exact (MovedTo.after (told old) (trim_frame _ j).movedTo).told (done _ _ _)
    · cases hwait : s.searchWait f p t policy with
      | none =>
        rw [State.takeChange_seeking_now o hslot hair hwait]
        have moved := now (s.ownerDone f p old ⟨false, false, false, false, true⟩)
        rw [(told old).pos] at moved
        exact (MovedTo.after (told old) (moved hair)).told (done _ _ _)
      | some w =>
        cases t with
        | none => rw [State.searchWait_none] at hwait; cases hwait
        | some i =>
          rw [State.takeChange_seeking_search o hslot hair hwait, Position.taking_search hair, hslot]
          have moved := MovedTo.after (told old) (State.seek_writes _ f p i v o).movedTo
          rw [(told old).pos] at moved
          exact moved

/-- The record of a search that a change overtakes (R68). -/
def OutcomeFlags.overtaken : OutcomeFlags := ⟨false, false, false, false, true⟩

theorem State.seek_ports (s : State) (f : FeedNo) (p : PosNo) (i : SrcNo) (w : Nat) (o : Option Owner) :
    (s.seek f p i w o).ports = s.ports := by obtain ⟨_, e, _⟩ := s.seek_writes f p i w o; rw [e]; rfl

theorem State.switchNow_ports (s : State) (f : FeedNo) (p : PosNo) (t : Option SrcNo) : (s.switchNow f p t).ports = s.ports := by
  obtain ⟨_, e, _⟩ := s.switchNow_writes f p t; rw [e]; rfl

/-- A change taken with no owner makes one record at most, that of the search that it overtakes. -/
theorem takeChange_ports (s : State) (f : FeedNo) (p : PosNo) (t : Option SrcNo) (policy : Splice) :
    (s.takeChange f p t policy none).ports = (s.ownerDone f p (s.pos f p).slot.owner .overtaken).ports := by
  cases hslot : (s.pos f p).slot with
  | steady =>
    by_cases hair : t = (s.pos f p).onAirSource
    · rw [State.takeChange_steady_onAir none hslot hair]; rfl
    · cases hwait : s.searchWait f p t policy with
      | none =>
        rw [State.takeChange_steady_now none hslot hair hwait]
        exact State.switchNow_ports s f p t
      | some w =>
        cases t with
        | none => rw [State.searchWait_none] at hwait; cases hwait
        | some i =>
          rw [State.takeChange_steady_search none hslot hair hwait]
          exact State.seek_ports s f p i w none
  | seeking j v old =>
    by_cases hair : t = (s.pos f p).onAirSource
    · rw [State.takeChange_seeking_onAir none hslot hair]
      exact (trim_frame _ j).ports
    · cases hwait : s.searchWait f p t policy with
      | none =>
        rw [State.takeChange_seeking_now none hslot hair hwait]
        exact State.switchNow_ports _ f p t
      | some w =>
        cases t with
        | none => rw [State.searchWait_none] at hwait; cases hwait
        | some i =>
          rw [State.takeChange_seeking_search none hslot hair hwait]
          exact State.seek_ports _ f p i v none

/-! ### A position replaced, and its change handed over -/

/-- A search's wait depends on the tables of the sources and on the position's own components. -/
theorem State.searchWait_congr {s t : State} {f : FeedNo} {p : PosNo} (tables : ∀ i, (t.src i).table = (s.src i).table)
    (ids : (t.pos f p).ids = (s.pos f p).ids) (i : Option SrcNo) (policy : Splice) :
    t.searchWait f p i policy = s.searchWait f p i policy := by
  unfold State.searchWait State.keyless
  cases i <;> cases policy <;> simp only [tables, ids]

/-- The position that is left where an event replaces it and hands its change over. -/
def State.handedAt (s : State) (f : FeedNo) (p : PosNo) (y : Position) (policy : Splice) (o : Option Owner) : Position :=
  if (s.feed f).running = true ∧ y.effective ≠ (s.pos f p).effective then
    y.taking y.effective ((s.setPos f p y).searchWait f p y.effective policy) o
  else y

theorem handedOver_movedTo (s : State) (f : FeedNo) (p : PosNo) (y : Position) (policy : Splice) (o : Option Owner) :
    MovedTo s f p (s.handedAt f p y policy o) (s.handedOver f p y policy o) := by
  unfold State.handedOver State.handedAt
  split
  · have moved := takeChange_taking (s.setPos f p y) f p y.effective policy o
    rw [State.pos_setPos, if_pos ⟨rfl, rfl⟩] at moved
    exact MovedTo.again (OnlySources.movedTo (.rfl' _)) moved
  · exact OnlySources.movedTo (.rfl' _)

theorem handedOver_pos (s : State) (f : FeedNo) (p : PosNo) (y : Position) (policy : Splice) (o : Option Owner) :
    (s.handedOver f p y policy o).pos f p = s.handedAt f p y policy o := by
  rw [(handedOver_movedTo s f p y policy o).pos, if_pos ⟨rfl, rfl⟩]

/-- It depends on the feed's state, the position, and the tables of the sources. -/
theorem State.handedAt_congr {s t : State} {f : FeedNo} {p : PosNo} (feed : (t.feed f).running = (s.feed f).running)
    (pos : t.pos f p = s.pos f p) (tables : ∀ i, (t.src i).table = (s.src i).table) (y : Position) (policy : Splice) (o : Option Owner) :
    t.handedAt f p y policy o = s.handedAt f p y policy o := by
  unfold State.handedAt
  rw [feed, pos, State.searchWait_congr (s := s.setPos f p y) (t := t.setPos f p y) tables]
  rw [State.pos_setPos, State.pos_setPos, if_pos ⟨rfl, rfl⟩, if_pos ⟨rfl, rfl⟩]

/-- Handed over with no owner, it makes the record of the search that it overtakes. -/
theorem handedOver_ports (s : State) (f : FeedNo) (p : PosNo) {y : Position} (slot : y.slot = (s.pos f p).slot) (policy : Splice) :
    (s.handedOver f p y policy none).ports = (if (s.feed f).running = true ∧ y.effective ≠ (s.pos f p).effective then
      s.ownerDone f p (s.pos f p).slot.owner .overtaken else s).ports := by
  unfold State.handedOver
  split
  · rw [takeChange_ports, State.pos_setPos, if_pos ⟨rfl, rfl⟩, slot]
    exact State.ownerDone_ports (u := s.setPos f p y) (v := s) rfl rfl f p _ _
  · rfl

/-! ### The marks of every position judged anew -/

theorem State.judged_congr {s t : State} (h : SameJudge s t) (x : Position) (picks : Option SrcNo → Bool) : t.judged x picks = s.judged x picks := by
  unfold State.judged
  simp only [h.markFor]

/-- Where no entry is picked, nothing is judged anew. -/
theorem State.judged_none (s : State) (x : Position) {picks : Option SrcNo → Bool} (base : picks x.base = false)
    (upper : ∀ e ∈ x.upper, picks (some e.source) = false) : s.judged x picks = x := by
  unfold State.judged
  have same : (x.upper.map fun e => if picks (some e.source) then { e with mark := s.markFor (some e.source) x.fallback } else e) = x.upper :=
    (List.map_congr_left fun e he => by rw [upper e he]; rfl).trans (List.map_id _)
  rw [base, same]
  rfl

theorem State.judgePosition_eq (s : State) (f : FeedNo) (p : PosNo) (picks : Option SrcNo → Bool) : s.judgePosition f p picks =
    s.handedOver f p (s.judged (s.pos f p) picks) ((s.judged (s.pos f p) picks).policyOfMarks (s.pos f p).policy) none :=
  State.setPos_handOver s f p _ _ none

theorem State.judgePosition_none (s : State) (f : FeedNo) (p : PosNo) {picks : Option SrcNo → Bool} (base : picks (s.pos f p).base = false)
    (upper : ∀ e ∈ (s.pos f p).upper, picks (some e.source) = false) : s.judgePosition f p picks = s := by
  rw [State.judgePosition_eq, s.judged_none _ base upper, State.handedOver_same _ _ _ _ _ _ (.inr rfl), State.setPos_pos]

/-- The marks that a test picks at each position judged anew, and every change handed over (R51, R53, R54). -/
def State.judgeAll (s : State) (picks : Position → Option SrcNo → Bool) : State :=
  allPositions.foldl (fun s fp => s.judgePosition fp.1 fp.2 (picks (s.pos fp.1 fp.2))) s

theorem State.healthChanged_eq (s : State) (i : SrcNo) :
    s.healthChanged i = s.judgeAll fun x a => decide (x.fallback = some i) || decide (a = some i) := rfl

theorem State.permitChanged_eq (s : State) (i : SrcNo) : s.permitChanged i = s.judgeAll fun _ a => decide (a = some i) := rfl

/-- Where no position has an entry that is picked, nothing changes. -/
theorem State.judgeAll_none {s : State} {picks : Position → Option SrcNo → Bool} (h : ∀ f p, picks (s.pos f p) (s.pos f p).base = false ∧
    ∀ e ∈ (s.pos f p).upper, picks (s.pos f p) (some e.source) = false) : s.judgeAll picks = s := by
  unfold State.judgeAll
  generalize allPositions = l
  induction l with
  | nil => rfl
  | cons fp l ih => rw [List.foldl_cons, s.judgePosition_none _ _ (h fp.1 fp.2).1 (h fp.1 fp.2).2, ih]

/-- The record that one position's change makes. -/
def State.overtakenAt (s : State) (judged : FeedNo → PosNo → Position) (u : State) (fp : FeedNo × PosNo) : State :=
  if (s.feed fp.1).running = true ∧ (judged fp.1 fp.2).effective ≠ (s.pos fp.1 fp.2).effective then
    u.ownerDone fp.1 fp.2 (s.pos fp.1 fp.2).slot.owner .overtaken
  else u

theorem State.overtaken_eq (s : State) (judged : FeedNo → PosNo → Position) : s.overtaken judged = allPositions.foldl (s.overtakenAt judged) s := by
  unfold State.overtaken
  rw [List.foldl_filter]
  congr 1
  funext u fp
  unfold State.overtakenAt
  simp only [decide_eq_true_eq]
  rfl

theorem State.overtakenAt_told (s : State) (judged : FeedNo → PosNo → Position) (u : State) (fp : FeedNo × PosNo) :
    OnlyPorts u (s.overtakenAt judged u fp) := by
  unfold State.overtakenAt
  split
  · exact ownerDone_frame _ _ _ _ _
  · exact .rfl' u

theorem State.overtakenAt_ports (s : State) (judged : FeedNo → PosNo → Position) (u v : State) (fp : FeedNo × PosNo) (ports : u.ports = v.ports)
    (clock : u.clock = v.clock) : (s.overtakenAt judged u fp).ports = (s.overtakenAt judged v fp).ports := by
  unfold State.overtakenAt
  split
  · exact State.ownerDone_ports ports clock _ _ _ _
  · exact ports

/-- The records depend on the ports and the time of day. -/
theorem State.foldl_overtakenAt_ports (s : State) (judged : FeedNo → PosNo → Position) (l : List (FeedNo × PosNo)) {u v : State}
    (ports : u.ports = v.ports) (clock : u.clock = v.clock) :
    (l.foldl (s.overtakenAt judged) u).ports = (l.foldl (s.overtakenAt judged) v).ports := by
  induction l generalizing u v with
  | nil => exact ports
  | cons fp l ih =>
    exact ih (s.overtakenAt_ports judged u v fp ports clock)
      ((s.overtakenAt_told judged u fp).clock.trans (clock.trans (s.overtakenAt_told judged v fp).clock.symm))

theorem State.overtaken_congr {s t : State} (judged : FeedNo → PosNo → Position) (ports : t.ports = s.ports) (clock : t.clock = s.clock)
    (feeds : t.feeds = s.feeds) (positions : t.positions = s.positions) : (t.overtaken judged).ports = (s.overtaken judged).ports := by
  have same : t.overtakenAt judged = s.overtakenAt judged := by
    unfold State.overtakenAt State.feed State.pos
    rw [feeds, positions]
  rw [State.overtaken_eq, State.overtaken_eq, same]
  exact s.foldl_overtakenAt_ports judged _ ports clock

theorem OnlyStacks.feed {s t : State} (h : OnlyStacks s t) (f : FeedNo) : t.feed f = s.feed f := by unfold State.feed; rw [h.feeds]

theorem OnlyStacks.judge {s t : State} (h : OnlyStacks s t) : SameJudge s t := by
  obtain ⟨_, w, _, rfl, freed, _⟩ := h
  intro i
  obtain ⟨_, e⟩ := freed i
  unfold State.src
  dsimp only
  rw [e]
  exact ⟨rfl, rfl⟩

theorem OnlyStacks.table {s t : State} (h : OnlyStacks s t) (i : SrcNo) : (t.src i).table = (s.src i).table := by
  obtain ⟨_, w, _, rfl, freed, _⟩ := h
  obtain ⟨_, e⟩ := freed i
  unfold State.src
  dsimp only
  rw [e]

/-- The positions judged: each as it would be alone, and the records of the searches overtaken, in ascending order (log 7). -/
theorem State.judgeAll_moves (s : State) (picks : Position → Option SrcNo → Bool) :
    let judged := fun f p => s.judged (s.pos f p) (picks (s.pos f p))
    OnlyStacks s (s.judgeAll picks) ∧
      (∀ f p, (s.judgeAll picks).pos f p = s.handedAt f p (judged f p) ((judged f p).policyOfMarks (s.pos f p).policy) none) ∧
      (s.judgeAll picks).ports = (s.overtaken judged).ports := by
  intro judged
  obtain ⟨only, positions, ports⟩ := foldl_moves (s := s) (g := fun s fp => s.judgePosition fp.1 fp.2 (picks (s.pos fp.1 fp.2)))
    (record := s.overtakenAt judged)
    (make := fun fp => s.handedAt fp.1 fp.2 (judged fp.1 fp.2) ((judged fp.1 fp.2).policyOfMarks (s.pos fp.1 fp.2).policy) none)
    (fun u fp only same => by
      rw [State.judgePosition_eq, same, State.judged_congr only.judge]
      constructor
      · have moved := handedOver_movedTo u fp.1 fp.2 (judged fp.1 fp.2) ((judged fp.1 fp.2).policyOfMarks (s.pos fp.1 fp.2).policy) none
        rwa [State.handedAt_congr (by rw [only.feed]) same only.table] at moved
      · refine (handedOver_ports u fp.1 fp.2 (y := judged fp.1 fp.2) (by rw [same]; rfl) _).trans ?_
        rw [only.feed, same]
        rfl)
    (s.overtakenAt_told judged) (s.overtakenAt_ports judged) allPositions nodup_allPositions
  refine ⟨only, fun f p => ?_, ports.trans (by rw [State.overtaken_eq])⟩
  exact (positions f p).trans (if_pos (mem_allPositions f p))

end Sys2Proof.Machine
end

section
/-! SUPPORT. SET SOURCE: its checks, the table entry and what follows from it (R84 to R87, R51). -/

namespace Sys2Proof.Machine

/-! ### A source with its entry replaced -/

/-- A source enabled by its entry (R87, R108). -/
def SourceEntry.enables (old new : SourceEntry) : Bool := new.enabled && !old.enabled

theorem Source.contAfter_get (x : Source) (t : SourceEntry) (c : CompNo) : tget (x.contAfter t) c =
    if tget t.comps c ≠ tget x.table.comps c ∨ (t.enabled = true ∧ x.table.enabled = false) then none else tget x.cont c := by
  have each : tget (x.contAfter t) c =
      if (t.enabled && !x.table.enabled) || decide (tget x.table.comps c ≠ tget t.comps c) then none else tget x.cont c := by
    unfold Source.contAfter
    fin_cases c <;> rfl
  rw [each]
  refine if_congr ?_ rfl rfl
  simp only [Bool.or_eq_true, Bool.and_eq_true, Bool.not_eq_true', decide_eq_true_eq]
  rw [or_comm, ne_comm]

theorem Source.withTable_cont (x : Source) (t : SourceEntry) : (x.withTable t).cont = x.contAfter t := by
  unfold Source.withTable Source.resetInterval
  cases x.table.enabled <;> cases t.enabled <;> rfl

theorem Source.withTable_same {x : Source} {t : SourceEntry} (h : t.enabled = x.table.enabled) :
    x.withTable t = { x with table := t, cont := (x.withTable t).cont } := by
  rw [Source.withTable_cont]
  unfold Source.withTable
  rw [h]
  cases x.table.enabled <;> rfl

theorem Source.withTable_disabled {x : Source} {t : SourceEntry} (off : t.enabled = false) (on : x.table.enabled = true) :
    x.withTable t = { x with table := t, cont := (x.withTable t).cont, health := .disabled, badCount := 0, goodCount := 0 } := by
  rw [Source.withTable_cont]
  unfold Source.withTable
  rw [off, on]
  rfl

theorem Source.withTable_enabled {x : Source} {t : SourceEntry} (on : t.enabled = true) (off : x.table.enabled = false) :
    x.withTable t = { x with
      table := t, cont := (x.withTable t).cont, health := .healthy, badCount := 0, goodCount := 0, n := 0, e := 0, k := 0,
      syncBad := decide (x.sync = .hunting), clockSeen := false } := by
  rw [Source.withTable_cont]
  unfold Source.withTable
  rw [off, on]
  rfl

/-! ### The checks -/

/-- The marks that a new table entry judges anew (R51): where it enables or disables the source, those of the entries that name it and of
the positions that fall back on it; where the fallback permit changes, those of the entries that name it. -/
def SourceEntry.judges (old new : SourceEntry) (i : SrcNo) (x : Position) (a : Option SrcNo) : Bool :=
  decide (x.fallback = some i) && decide (new.enabled ≠ old.enabled) ||
    decide (a = some i) && (decide (new.enabled ≠ old.enabled) || decide (new.fallbackPermit ≠ old.fallbackPermit))

section
variable {p : PortNo} {b : List Byte} {s : State}

theorem reqSetSource_off (h : (s.port p).authority.configure = false) : reqSetSource p b s = refuse s .notPermitted := by
  unfold reqSetSource
  rw [h]
  rfl

theorem reqSetSource_range (on : (s.port p).authority.configure = true)
    (h : toFin 16 (byteAt b 0).toNat = none ∨ sourceEntryAt b 1 = none) : reqSetSource p b s = refuse s .range := by
  unfold reqSetSource
  rw [on]
  rcases h with h | h <;> rw [h]
  · rfl
  · cases toFin 16 (byteAt b 0).toNat <;> rfl

variable {i : SrcNo} {t : SourceEntry} (on : (s.port p).authority.configure = true) (number : toFin 16 (byteAt b 0).toNat = some i)
  (entry : sourceEntryAt b 1 = some t)
include on number entry

theorem reqSetSource_twice (h : ¬(present t.comps).Nodup) : reqSetSource p b s = refuse s .duplicateId := by
  unfold reqSetSource
  rw [on, number, entry]
  exact if_pos (show (!decide (present t.comps).Nodup) = true by rw [decide_eq_false h]; rfl)

theorem reqSetSource_set (h : (present t.comps).Nodup) : reqSetSource p b s =
    accept ((s.setSrc i ((s.src i).withTable t)).judgeAll ((s.src i).table.judges t i)) [] := by
  have cases' : reqSetSource p b s = accept (if (s.src i).table.enabled ≠ t.enabled then (s.setSrc i ((s.src i).withTable t)).healthChanged i
      else if (s.src i).table.fallbackPermit ≠ t.fallbackPermit then (s.setSrc i ((s.src i).withTable t)).permitChanged i
      else s.setSrc i ((s.src i).withTable t)) [] := by
    unfold reqSetSource
    rw [on, number, entry]
    exact if_neg (show ¬(!decide (present t.comps).Nodup) = true by rw [decide_eq_true h]; decide)
  refine cases'.trans (congrArg (fun u => accept u []) ?_)
  by_cases switched : (s.src i).table.enabled = t.enabled
  · rw [if_neg (not_not.2 switched)]
    by_cases permit : (s.src i).table.fallbackPermit = t.fallbackPermit
    · rw [if_neg (not_not.2 permit), State.judgeAll_none]
      intro f k
      simp [SourceEntry.judges, switched, permit]
    · rw [if_pos permit, State.permitChanged_eq]
      congr 1
      funext x a
      simp [SourceEntry.judges, switched, Ne.symm permit]
  · rw [if_pos switched, State.healthChanged_eq]
    congr 1
    funext x a
    simp [SourceEntry.judges, Ne.symm switched]

end

/-- Two bodies that differ at most in the bits that no field uses hold the same entry (R172). -/
theorem sourceEntryAt_congr {b other : List Byte} (length : b.length = 21) (length' : other.length = 21)
    (flags : (byteAt other 1).toNat % 8 = (byteAt b 1).toNat % 8) (checks : (byteAt other 2).toNat % 16 = (byteAt b 2).toNat % 16)
    (same : ∀ k, k < 21 → k ≠ 1 → k ≠ 2 → byteAt other k = byteAt b k) : sourceEntryAt other 1 = sourceEntryAt b 1 := by
  have two : ∀ k, 3 ≤ k → k < 20 → natAt other k 2 = natAt b k 2 := fun k low high => by
    rw [natAt_two_byteAt (by omega), natAt_two_byteAt (by omega), same k (by omega) (by omega) (by omega),
      same (k + 1) (by omega) (by omega) (by omega)]
  have bit : ∀ (x y : Byte) m n, n < m → x.toNat % 2 ^ m = y.toNat % 2 ^ m → x.getLsbD n = y.getLsbD n := fun x y m n hn h => by
    rw [← BitVec.testBit_toNat, ← BitVec.testBit_toNat]
    have := congrArg (Nat.testBit · n) h
    simpa [Nat.testBit_mod_two_pow, hn] using this
  have ids : idsAt 0 other (1 + 2) = idsAt 0 b (1 + 2) := by
    unfold idsAt
    rw [two 3 (by omega) (by omega), two 5 (by omega) (by omega), two 7 (by omega) (by omega), two 9 (by omega) (by omega)]
  have checks' : checksOf (byteAt other 2) = checksOf (byteAt b 2) := by
    unfold checksOf
    rw [bit _ _ 4 0 (by omega) checks, bit _ _ 4 1 (by omega) checks, bit _ _ 4 2 (by omega) checks, bit _ _ 4 3 (by omega) checks]
  unfold sourceEntryAt
  rw [ids, same (1 + 12) (by omega) (by omega) (by omega), same (1 + 10) (by omega) (by omega) (by omega),
    same (1 + 11) (by omega) (by omega) (by omega), same (1 + 17) (by omega) (by omega) (by omega),
    same (1 + 18) (by omega) (by omega) (by omega), same (1 + 19) (by omega) (by omega) (by omega), two (1 + 13) (by omega) (by omega),
    two (1 + 15) (by omega) (by omega), checks', bit _ _ 3 0 (by omega) flags, bit _ _ 3 1 (by omega) flags, bit _ _ 3 2 (by omega) flags]

/-- A field out of its range leaves no entry (R84, R85 check 2). -/
theorem sourceEntryAt_none {b : List Byte} (h : (∃ c ∈ [0, 1, 2, 3], 8190 < natAt b (3 + 2 * c) 2 ∧ natAt b (3 + 2 * c) 2 ≠ 65535) ∨
    (byteAt b 11).toNat ≠ 255 ∧ (3 < (byteAt b 11).toNat ∨ natAt b (3 + 2 * (byteAt b 11).toNat) 2 = 65535) ∨
    (byteAt b 12).toNat = 0 ∨ 50 < (byteAt b 12).toNat ∨ 2 < (byteAt b 13).toNat ∨ 4095 < natAt b 14 2 ∨ 4095 < natAt b 16 2 ∨
    (byteAt b 13).toNat = 0 ∧ natAt b 16 2 < natAt b 14 2 ∨ 15 < (byteAt b 18).toNat ∨ (byteAt b 19).toNat = 0 ∨ 7 < (byteAt b 19).toNat ∨
    (byteAt b 20).toNat = 0 ∨ 7 < (byteAt b 20).toNat) : sourceEntryAt b 1 = none := by
  cases entry : sourceEntryAt b 1 with
  | none => rfl
  | some t =>
    exfalso
    obtain ⟨⟨ids, mode, clock, stale, low, high, tol, fault, recovery, -⟩, comps, clocked, ⟨s1, s2⟩, l1, h1, band, t1, ⟨f1, f2⟩, r1, r2⟩ :=
      (sourceEntryAt_iff b 1 t).1 entry
    have id : ∀ c : CompNo, natAt b (3 + 2 * c.val) 2 = idNumber (tget t.comps c) := fun c => (idOrNone_some (idsAt_small ids c)).1
    have number : ∀ c : CompNo, natAt b (3 + 2 * c.val) 2 ≤ 8190 ∨ natAt b (3 + 2 * c.val) 2 = 65535 := fun c => by
      rw [id]
      cases e : tget t.comps c with
      | none => exact .inr rfl
      | some n => exact .inl (comps c n e)
    have each : ∀ c, c < 4 → natAt b (3 + 2 * c) 2 ≤ 8190 ∨ natAt b (3 + 2 * c) 2 = 65535 := fun c hc => number ⟨c, hc⟩
    have modes : (byteAt b 13).toNat ≤ 2 ∧ ((byteAt b 13).toNat = 0 → t.rateMode = .band) := by
      rw [mode]
      cases t.rateMode <;> decide
    have clocks : (byteAt b 11).toNat = 255 ∨ (byteAt b 11).toNat ≤ 3 ∧ natAt b (3 + 2 * (byteAt b 11).toNat) 2 ≠ 65535 := by
      rw [clock]
      cases e : t.clockComp with
      | none => exact .inl rfl
      | some c =>
        refine .inr ?_
        rw [show (clockByte (some c)).toNat = c.val from toNat_byte (by omega), id c]
        obtain ⟨n, hn⟩ := Option.isSome_iff_exists.1 (clocked c e)
        have := comps c n hn
        rw [hn]
        exact ⟨by omega, by change n ≠ 65535; omega⟩
    rcases h with ⟨c, hc, big⟩ | h
    · simp only [List.mem_cons, List.not_mem_nil, or_false] at hc
      have := each c (by omega)
      omega
    · dsimp only [Nat.reduceAdd] at stale low high tol fault recovery
      have := fun e => band (modes.2 e)
      omega

/-- Settles O45: the checks, the source with its entry, and by `State.judgeAll_moves` the marks and the changes handed over. -/
theorem sourceSet : Obligations.SourceSet := by
  unfold Obligations.SourceSet
  refine ⟨fun s p sequence number table serves within => ?_, fun s p sequence body serves length => ?_⟩
  · have length : ([number] ++ sourceEntryBytes table).length = 21 := by
      rw [List.length_append, sourceEntryBytes_length]
      rfl
    have answer := fun {t reply} does => exec_serves (t := t) (reply := reply) serves .setSource sequence _ length does
    have entry : sourceEntryAt ([number] ++ sourceEntryBytes table) 1 = some table := by
      have reads := sourceEntryAt_bytes [number] [] within
      rwa [List.append_nil] at reads
    refine ⟨fun off => answer (reqSetSource_off off), fun on => ⟨fun far => answer (reqSetSource_range on (.inl (toFin_eq_none.2 far))),
      fun i hi => ?_⟩⟩
    have number' : toFin 16 (byteAt ([number] ++ sourceEntryBytes table) 0).toNat = some i := toFin_of_val hi
    refine ⟨fun twice => answer (reqSetSource_twice on number' entry twice), fun distinct => ?_⟩
    have sets := reqSetSource_set on number' entry distinct
    obtain ⟨only, positions, ports⟩ := (s.setSrc i ((s.src i).withTable table)).judgeAll_moves ((s.src i).table.judges table i)
    have none' : (∀ f k, (s.pos f k).base ≠ some i ∧ (s.pos f k).fallback ≠ some i ∧ ∀ e, e ∈ (s.pos f k).upper → e.source ≠ i) →
        (s.setSrc i ((s.src i).withTable table)).judgeAll ((s.src i).table.judges table i) = s.setSrc i ((s.src i).withTable table) := fun away =>
      State.judgeAll_none fun f k => by
        obtain ⟨base, fallback, upper⟩ := away f k
        change SourceEntry.judges _ _ _ (s.pos f k) (s.pos f k).base = false ∧ ∀ e ∈ (s.pos f k).upper, _ = false
        unfold SourceEntry.judges
        refine ⟨by simp [base, fallback], fun e he => ?_⟩
        have other := upper e he
        change (decide ((s.pos f k).fallback = some i) && _ || _) = false
        simp [fallback, other]
    generalize (s.setSrc i ((s.src i).withTable table)).judgeAll ((s.src i).table.judges table i) = t at sets only positions ports none'
    have freed : ∀ j, ((s.setSrc i ((s.src i).withTable table)).src j).trimmedTo (t.src j) := by
      obtain ⟨_, w, _, e, freed, _⟩ := only
      rw [e]
      exact Freed.trimmedTo (s := s.setSrc i ((s.src i).withTable table)) freed
    refine ⟨(s.src i).withTable table, t, answer sets, Source.withTable_table _ _, fun c => ?_, Source.withTable_same,
      Source.withTable_disabled, Source.withTable_enabled, ?_, fun j hj => ?_, ⟨fun f k => ?_, ?_⟩, ?_, none', fun switched stopped f k => ?_⟩
    · rw [Source.withTable_cont, Source.contAfter_get]
    · have here := freed i
      rwa [State.src_setSrc, if_pos rfl] at here
    · have here := freed j
      rwa [State.src_setSrc, if_neg (Ne.symm hj)] at here
    · rw [handedOver_pos]
      exact positions f k
    · rw [ports]
      exact State.overtaken_congr _ rfl rfl rfl rfl
    · obtain ⟨_, w, _, e, _⟩ := only
      rw [e]
      rfl
    · rw [positions]
      refine (if_neg fun running => ?_).trans ?_
      · exact absurd (running.1.symm.trans (stopped f)) (by decide)
      · change State.judged (s.setSrc i ((s.src i).withTable table)) (s.pos f k) (SourceEntry.judges (s.src i).table table i (s.pos f k)) = _
        unfold State.judged SourceEntry.judges
        simp only [switched, ne_eq, not_false_eq_true, decide_true, Bool.and_true, Bool.true_or, Bool.or_eq_true, decide_eq_true_eq,
          Option.some.injEq, or_comm]
  · have answer := fun {t reply} does => exec_serves (t := t) (reply := reply) serves .setSource sequence body length does
    refine ⟨fun off => answer (reqSetSource_off off), fun on out => answer (reqSetSource_range on ?_), fun other length' flags checks same => ?_⟩
    · exact out.imp (fun far => toFin_eq_none.2 far) sourceEntryAt_none
    · refine exec_same serves .setSource sequence body other length length' ?_
      change reqSetSource p other s = reqSetSource p body s
      unfold reqSetSource
      rw [same 0 (by omega) (by omega) (by omega), sourceEntryAt_congr length length' flags checks same]

end Sys2Proof.Machine
end

section
/-! SUPPORT. POST ENTRY: the entry that a body posts, its checks and its place (R16, R17, R19 to R22). -/

namespace Sys2Proof.Machine

/-! ### Fields -/

/-- Two bodies with the same bytes in a field hold the same number there. -/
theorem natAt_congr {b c : List Byte} {i n : Nat} (length : b.length = c.length)
    (same : ∀ k, i ≤ k → k < i + n → k < b.length → byteAt b k = byteAt c k) : natAt b i n = natAt c i n := by
  unfold natAt
  congr 1
  refine List.ext_getElem (by simp [length]) fun k hk hk' => ?_
  simp only [List.length_take, List.length_drop] at hk hk'
  rw [List.getElem_take, List.getElem_take, List.getElem_drop, List.getElem_drop, ← byteAt_eq_get, ← byteAt_eq_get]
  exact same (i + k) (by omega) (by omega) (by omega)

theorem actionOf_actionByte (a : Action) : actionOf (actionByte a) = some a := by cases a <;> rfl

theorem actionOf_eq_some {b : Byte} {a : Action} (h : actionOf b = some a) : b = actionByte a := by
  unfold actionOf at h
  split at h
  · cases h; assumption
  split at h
  · cases h; assumption
  split at h
  · cases h; assumption
  split at h
  · cases h; assumption
  split at h
  · cases h; assumption
  cases h

theorem cueKindOf_cueKindByte (k : CueKind) : cueKindOf (cueKindByte k) = some k := by cases k <;> rfl

theorem classOf_classByte (c : SelClass) : classOf (classByte c) = some c := by cases c <;> rfl

/-- The bytes of a cue (12.3). -/
def cueBytes : Option EntryCue → List Byte
  | some c => [nat8 c.line.val, cueKindByte c.kind, nat8 c.lead]
  | none => [0xFF, 0, 0]

theorem Entry.posted_eq (e : Entry) : e.posted = natBytes 2 e.tag.toNat ++ [classByte e.cls] ++ natBytes 3 e.due ++
    [nat8 e.feed.val, nat8 e.position.val, actionByte e.action, nat8 e.source.val] ++ natBytes 3 e.window ++ [spliceByte e.splice] ++
    cueBytes e.cue := by
  unfold Entry.posted cueBytes
  cases e.cue <;> rfl

theorem Entry.posted_length (e : Entry) : e.posted.length = 17 := by
  rw [Entry.posted_eq]
  cases e.cue <;> rfl

/-- What the bytes of a body say of an entry, in the fields that apply to it (R17, R21). -/
structure Entry.Spells (e : Entry) (b : List Byte) : Prop where
  tag : BitVec.ofNat 16 (natAt b 0 2) = e.tag
  cls : byteAt b 2 = classByte e.cls
  due : natAt b 3 3 = e.due
  feed : (byteAt b 6).toNat = e.feed.val
  action : byteAt b 8 = actionByte e.action
  place : e.action.stacked = true → (byteAt b 7).toNat = e.position.val ∧ byteAt b 13 = spliceByte e.splice
  source : e.action.sourced = true → (byteAt b 9).toNat = e.source.val
  window : e.action = .take → natAt b 10 3 = e.window
  line : byteAt b 14 = (cueBytes e.cue).head!
  cue : ∀ c, e.cue = some c → byteAt b 15 = cueKindByte c.kind ∧ (byteAt b 16).toNat = c.lead

theorem Entry.spells_posted {e : Entry} (h : e.spelled) : e.Spells e.posted := by
  obtain ⟨due, window, -, lead, -⟩ := h
  have bytes := e.posted_eq
  refine ⟨?_, ?_, ?_, ?_, ?_, fun _ => ⟨?_, ?_⟩, fun _ => ?_, fun _ => ?_, ?_, fun c hc => ⟨?_, ?_⟩⟩
  · have read := natAt_natBytes_two [] ([classByte e.cls] ++ natBytes 3 e.due ++
      [nat8 e.feed.val, nat8 e.position.val, actionByte e.action, nat8 e.source.val] ++ natBytes 3 e.window ++ [spliceByte e.splice] ++
      cueBytes e.cue) e.tag.isLt
    rw [bytes]
    simp only [List.append_assoc, List.nil_append, List.length_nil] at read ⊢
    rw [read, BitVec.ofNat_toNat, BitVec.setWidth_eq]
  · rw [bytes]; rfl
  · have read := natAt_natBytes (natBytes 2 e.tag.toNat ++ [classByte e.cls])
      ([nat8 e.feed.val, nat8 e.position.val, actionByte e.action, nat8 e.source.val] ++ natBytes 3 e.window ++ [spliceByte e.splice] ++
        cueBytes e.cue) 3 e.due
    rw [show e.due % 256 ^ 3 = e.due from Nat.mod_eq_of_lt due] at read
    rw [bytes]
    simp only [List.append_assoc] at read ⊢
    exact read
  · rw [bytes]; exact toNat_byte (by omega)
  · rw [bytes]; rfl
  · rw [bytes]; exact toNat_byte (by omega)
  · rw [bytes]; rfl
  · rw [bytes]; exact toNat_byte (by omega)
  · have read := natAt_natBytes (natBytes 2 e.tag.toNat ++ [classByte e.cls] ++ natBytes 3 e.due ++
      [nat8 e.feed.val, nat8 e.position.val, actionByte e.action, nat8 e.source.val]) ([spliceByte e.splice] ++ cueBytes e.cue) 3 e.window
    rw [show e.window % 256 ^ 3 = e.window from Nat.mod_eq_of_lt window] at read
    rw [bytes]
    simp only [List.append_assoc] at read ⊢
    exact read
  · rw [bytes]
    cases e.cue <;> rfl
  · rw [bytes, hc]; rfl
  · rw [bytes, hc]; exact toNat_byte (Nat.lt_succ_of_le (lead c hc))

/-- A body with the bytes of another in the fields that apply spells the same entry. -/
theorem Entry.Spells.congr {e : Entry} {b c : List Byte} (h : e.Spells b) (length : b.length = 17) (length' : c.length = 17)
    (same : ∀ k, k < 17 → (k = 7 ∨ k = 13 → e.action.stacked = true) → (k = 9 → e.action.sourced = true) →
      (10 ≤ k → k ≤ 12 → e.action = .take) → (15 ≤ k → e.cue ≠ none) → byteAt c k = byteAt b k) : e.Spells c := by
  have plain : ∀ k, k < 17 → k ≠ 7 → k < 9 ∨ k = 14 → byteAt c k = byteAt b k := fun k hk h7 hk' =>
    same k hk (by omega) (by omega) (by omega) (by omega)
  have nat' : ∀ i n, i + n ≤ 7 → natAt c i n = natAt b i n := fun i n hn =>
    natAt_congr (length'.trans length.symm) fun k _ hk _ => plain k (by omega) (by omega) (by omega)
  obtain ⟨tag, cls, due, feed, action, place, source, window, line, cue⟩ := h
  refine ⟨?_, ?_, ?_, ?_, ?_, fun on => ?_, fun on => ?_, fun on => ?_, ?_, fun x hx => ?_⟩
  · rw [nat' 0 2 (by omega)]; exact tag
  · rw [plain 2 (by omega) (by omega) (by omega)]; exact cls
  · rw [nat' 3 3 (by omega)]; exact due
  · rw [plain 6 (by omega) (by omega) (by omega)]; exact feed
  · rw [plain 8 (by omega) (by omega) (by omega)]; exact action
  · rw [same 7 (by omega) (fun _ => on) (by omega) (by omega) (by omega), same 13 (by omega) (fun _ => on) (by omega) (by omega) (by omega)]
    exact place on
  · rw [same 9 (by omega) (by omega) (fun _ => on) (by omega) (by omega)]
    exact source on
  · rw [natAt_congr (b := c) (c := b) (length'.trans length.symm) fun k low high _ => same k (by omega) (by omega) (by omega) (fun _ _ => on) (by omega)]
    exact window on
  · rw [plain 14 (by omega) (by omega) (by omega)]; exact line
  · have set : e.cue ≠ none := by rw [hx]; exact Option.some_ne_none x
    rw [same 15 (by omega) (by omega) (by omega) (by omega) fun _ => set, same 16 (by omega) (by omega) (by omega) (by omega) fun _ => set]
    exact cue x hx

/-! ### The entry that a body posts -/

section
variable {e : Entry} {b : List Byte} (h : e.Spells b)
include h

/-- The authority that an entry asks for (R21 check 1). -/
theorem postPermitted_spells (x : ControlPort) : postPermitted x b = false ↔ x.authority.feedMap.getLsbD e.feed = false ∨
    x.authority.classMax.rank < e.cls.rank ∨ (e.cue.any fun c => !x.authority.cueMap.getLsbD c.line) = true := by
  have rank : (byteAt b 2).toNat = e.cls.rank := by rw [h.cls]; cases e.cls <;> rfl
  have line : (byteAt b 14 == 0xFF || x.authority.cueMap.getLsbD (byteAt b 14).toNat) = !(e.cue.any fun c => !x.authority.cueMap.getLsbD c.line) := by
    rw [h.line]
    cases e.cue with
    | none => rfl
    | some c =>
      have number : (nat8 c.line.val).toNat = c.line.val := toNat_byte (by omega)
      have other : nat8 c.line.val ≠ 0xFF := fun k => by rw [k] at number; have := c.line.isLt; simp at number; omega
      change (nat8 c.line.val == 0xFF || x.authority.cueMap.getLsbD (nat8 c.line.val).toNat) = !!x.authority.cueMap.getLsbD c.line.val
      rw [number, beq_eq_false_iff_ne.2 other, Bool.false_or, Bool.not_not]
  unfold postPermitted
  rw [line, rank, h.feed]
  simp only [Bool.and_eq_false_iff, decide_eq_false_iff_not, Nat.not_le, Bool.not_eq_false', or_assoc]
  rfl

/-- The cue that it holds (R21 check 2). -/
theorem postedCue_spells : postedCue b = if (e.cue.any fun c => decide (250 < c.lead)) = true then none else some e.cue := by
  unfold postedCue
  rw [h.line]
  cases hc : e.cue with
  | none => rfl
  | some c =>
    obtain ⟨kind, lead⟩ := h.cue c hc
    have number : (nat8 c.line.val).toNat = c.line.val := toNat_byte (by omega)
    have other : nat8 c.line.val ≠ 0xFF := fun k => by rw [k] at number; have := c.line.isLt; simp at number; omega
    change (if nat8 c.line.val = 0xFF then _ else match toFin 8 (nat8 c.line.val).toNat, cueKindOf (byteAt b 15) with
      | some l, some k => if (byteAt b 16).toNat ≤ 250 then some (some ⟨l, k, (byteAt b 16).toNat⟩) else none
      | _, _ => none) = if decide (250 < c.lead) = true then none else some (some c)
    rw [if_neg other, number, toFin_of_val (i := c.line) rfl, kind, cueKindOf_cueKindByte, lead]
    simp only [decide_eq_true_eq, ← Nat.not_le, ite_not]

/-- The entry of a body, or none where a field that applies is out of its range (R17, R21 check 2). -/
theorem postedEntry_spells (spelled : e.spelled) (day : Nat) : postedEntry e.owner b day =
    if day ≤ e.due ∨ 1048575 < e.window ∨ 50 < (spliceByte e.splice).toNat ∨ (e.cue.any fun c => decide (250 < c.lead)) = true then none
    else some { e with seq := 0, cued := false, late := false } := by
  obtain ⟨-, -, waits, -, unstacked, unsourced, windowless⟩ := spelled
  have position : (if e.action.stacked then toFin 8 (byteAt b 7).toNat else some 0) = some e.position := by
    split
    · exact toFin_of_val (h.place ‹_›).1.symm
    · rw [(unstacked (Bool.eq_false_of_not_eq_true ‹_›)).1]
  have source : (if e.action.sourced then toFin 16 (byteAt b 9).toNat else some 0) = some e.source := by
    split
    · exact toFin_of_val (h.source ‹_›).symm
    · rw [unsourced (Bool.eq_false_of_not_eq_true ‹_›)]
  have splice : (if e.action.stacked then spliceOf (byteAt b 13) else some .immediate) =
      if 50 < (spliceByte e.splice).toNat then none else some e.splice := by
    split
    · rw [(h.place ‹_›).2]
      split
      · exact spliceOf_eq_none ‹_›
      · refine spliceOf_spliceByte fun w hw => ⟨(waits w hw).1, ?_⟩
        have small := ‹¬50 < (spliceByte e.splice).toNat›
        rw [hw, show (spliceByte (.entry w)).toNat = w from toNat_byte (by have := (waits w hw).2; omega)] at small
        omega
    · rw [(unstacked (Bool.eq_false_of_not_eq_true ‹_›)).2]
      rfl
  have window : (if e.action = .take then natAt b 10 3 else 0) = e.window := by
    split
    · exact h.window ‹_›
    · rw [windowless ‹_›]
  unfold postedEntry
  rw [h.action, actionOf_actionByte, h.cls, classOf_classByte, toFin_of_val h.feed.symm, postedCue_spells h]
  by_cases lead : (e.cue.any fun c => decide (250 < c.lead)) = true
  · rw [if_pos lead, if_pos (.inr (.inr (.inr lead)))]
  · rw [if_neg lead]
    dsimp only
    rw [position, source, splice, window]
    by_cases wait : 50 < (spliceByte e.splice).toNat
    · rw [if_pos wait, if_pos (.inr (.inr (.inl wait)))]
    · rw [if_neg wait, h.due, h.tag]
      dsimp only
      by_cases fits : e.window ≤ 1048575 ∧ e.due < day
      · refine (if_pos fits).trans (if_neg fun out => ?_).symm
        rcases out with early | long | waits | leads
        · omega
        · omega
        · exact wait waits
        · exact lead leads
      · rw [if_neg fits, if_pos (by omega)]

end

/-! ### The checks -/

section
variable {p : PortNo} {b : List Byte} {s : State}

theorem reqPostEntry_unpermitted (h : postPermitted (s.port p) b = false) : reqPostEntry p b s = refuse s .notPermitted := by
  unfold reqPostEntry
  rw [h]
  rfl

theorem reqPostEntry_permitted (h : postPermitted (s.port p) b = true) : reqPostEntry p b s =
    match postedEntry p b s.day with
    | none => refuse s .range
    | some e =>
      if s.liveTag p e.tag then refuse s .duplicateTag
      else if !e.classRules then refuse s .range
      else if !s.cueLineReady e then refuse s .range
      else if !s.list.hasPlace p then refuse s .listFull
      else
        let t := timing (distance e.due s.now s.day) s.day
        if t = .past then refuse s .past
        else
          let e := { e with seq := s.list.nextSeq, late := decide (t = .late) }
          let l := placeOf s.list.entries e s.now s.day
          accept { s with list := { s.list with entries := l.1 ++ [e] ++ l.2, nextSeq := s.list.nextSeq + 1 } }
            ([boolByte e.late] ++ natBytes 2 e.seq.toNat ++ [nat8 l.1.length]) := by
  unfold reqPostEntry
  rw [h]
  rfl

theorem reqPostEntry_range (h : postPermitted (s.port p) b = true) (none' : postedEntry p b s.day = none) :
    reqPostEntry p b s = refuse s .range := by
  rw [reqPostEntry_permitted h, none']

end

/-! ### The place -/

/-- What stands before a posted entry (R16, R22). -/
theorem placeOf_before {l : List Entry} {e y : Entry} {now day : Nat} (h : y ∈ (placeOf l e now day).1) :
    y.late = true ∨ e.late = false ∧ distance y.due now day ≤ distance e.due now day := by
  have test := List.mem_takeWhile_imp h
  simpa using test

/-- What stands after a posted entry (R16, R22). -/
theorem placeOf_after {l : List Entry} {e y : Entry} {now day : Nat} (h : (placeOf l e now day).2.head? = some y) :
    y.late = false ∧ (e.late = true ∨ distance e.due now day < distance y.due now day) := by
  have test := List.head?_dropWhile_not (fun x : Entry => x.late || (!e.late && decide (distance x.due now day ≤ distance e.due now day))) l
  change ((l.dropWhile _).head? = some y) at h
  rw [h] at test
  have test' : (y.late || (!e.late && decide (distance y.due now day ≤ distance e.due now day))) = false := test
  simpa only [Bool.or_eq_false_iff, Bool.and_eq_false_iff, Bool.not_eq_false', decide_eq_false_iff_not, Nat.not_le] using test'

theorem State.liveTag_iff (s : State) (p : PortNo) (t : Tag) : s.liveTag p t = true ↔ t ∈ s.liveTags p := by
  unfold State.liveTag State.liveTags
  simp only [Bool.or_eq_true, List.any_eq_true, Bool.and_eq_true, decide_eq_true_eq, List.mem_append, List.mem_map, List.mem_filter,
    List.mem_flatMap, and_assoc]

theorem Entry.classRules_iff (e : Entry) : e.classRules = false ↔ e.action = .base ∧ e.cls ≠ .network ∨ e.action = .cue ∧ e.cue = none := by
  unfold Entry.classRules
  simp only [Bool.and_eq_false_iff, Bool.not_eq_false', Bool.and_eq_true, decide_eq_true_eq, Option.isNone_iff_eq_none]

theorem State.cueLineReady_iff (s : State) (e : Entry) : s.cueLineReady e = false ↔
    (e.cue.any fun c => decide ((s.line c.line).mode = .tally)) = true := by
  unfold State.cueLineReady
  cases e.cue with
  | none => simp
  | some c => cases h : (s.line c.line).mode <;> simp [h]

theorem SwitchList.hasPlace_iff (l : SwitchList) (p : PortNo) : l.hasPlace p = false ↔ tget l.quotas p ≤ l.count p ∧ l.pool ≤ l.poolUse := by
  unfold SwitchList.hasPlace
  simp only [Bool.or_eq_false_iff, decide_eq_false_iff_not, Nat.not_lt]

theorem timing_past {d day : Nat} (big : 100 ≤ day) : timing d day = .past ↔ day / 2 < d ∧ d ≤ day - 50 := by
  unfold timing
  split
  · simp only [reduceCtorEq, false_iff]; omega
  · split
    · simp only [reduceCtorEq, false_iff]; omega
    · simp only [true_iff]; omega

section
variable {p : PortNo} {b : List Byte} {s : State} {e : Entry} (permitted : postPermitted (s.port p) b = true)
  (posted : postedEntry p b s.day = some e)
include permitted posted

theorem reqPostEntry_live (live : s.liveTag p e.tag = true) : reqPostEntry p b s = refuse s .duplicateTag := by
  rw [reqPostEntry_permitted permitted, posted]
  exact if_pos live

variable (fresh : s.liveTag p e.tag = false)
include fresh

theorem reqPostEntry_rules (broken : e.classRules = false ∨ s.cueLineReady e = false) : reqPostEntry p b s = refuse s .range := by
  rw [reqPostEntry_permitted permitted, posted]
  dsimp only
  rw [fresh, if_neg (by decide)]
  rcases broken with broken | broken <;> rw [broken]
  · rfl
  · cases e.classRules <;> rfl

variable (rules : e.classRules = true) (ready : s.cueLineReady e = true)
include rules ready

theorem reqPostEntry_full (full : s.list.hasPlace p = false) : reqPostEntry p b s = refuse s .listFull := by
  rw [reqPostEntry_permitted permitted, posted]
  dsimp only
  rw [fresh, rules, ready, full]
  rfl

variable (place : s.list.hasPlace p = true)
include place

theorem reqPostEntry_past (past : timing (distance e.due s.now s.day) s.day = .past) : reqPostEntry p b s = refuse s .past := by
  rw [reqPostEntry_permitted permitted, posted]
  dsimp only
  rw [fresh, rules, ready, place, if_neg (by decide), if_neg (by decide), if_neg (by decide), if_neg (by decide), if_pos past]

/-- A posted entry that every check lets through (R21, R22). -/
theorem reqPostEntry_placed (ahead : timing (distance e.due s.now s.day) s.day ≠ .past) {late : Bool}
    (isLate : late = decide (timing (distance e.due s.now s.day) s.day = .late)) {e' : Entry}
    (he : e' = { e with seq := s.list.nextSeq, late := late }) : reqPostEntry p b s =
      accept { s with list := { s.list with
        entries := (placeOf s.list.entries e' s.now s.day).1 ++ [e'] ++ (placeOf s.list.entries e' s.now s.day).2
        nextSeq := s.list.nextSeq + 1 } }
        ([boolByte late] ++ natBytes 2 s.list.nextSeq.toNat ++ [nat8 (placeOf s.list.entries e' s.now s.day).1.length]) := by
  rw [reqPostEntry_permitted permitted, posted]
  dsimp only
  rw [fresh, rules, ready, place, if_neg (by decide), if_neg (by decide), if_neg (by decide), if_neg (by decide), if_neg ahead, ← isLate, ← he]

end

/-- What a body that posts an entry holds in the fields that apply (R17, R21 check 2). -/
theorem postedEntry_some {p : PortNo} {b : List Byte} {day : Nat} {e : Entry} (h : postedEntry p b day = some e) :
    byteAt b 8 = actionByte e.action ∧ natAt b 3 3 < day ∧ (e.action.stacked = true → (byteAt b 7).toNat < 8 ∧ (byteAt b 13).toNat ≤ 50) ∧
      (e.action.sourced = true → (byteAt b 9).toNat < 16) ∧ (e.action = .take → natAt b 10 3 ≤ 1048575) ∧
      ((byteAt b 14).toNat ≠ 255 → (byteAt b 15).toNat ≤ 1 ∧ (byteAt b 16).toNat ≤ 250) := by
  have cued : ∀ c, postedCue b = some c → (byteAt b 14).toNat ≠ 255 → (byteAt b 15).toNat ≤ 1 ∧ (byteAt b 16).toNat ≤ 250 := fun c hc set => by
    unfold postedCue at hc
    rw [if_neg (fun k => set (by rw [k]; rfl))] at hc
    split at hc
    · rename_i l k hl hk
      split at hc
      · refine ⟨?_, ‹_›⟩
        unfold cueKindOf at hk
        split at hk
        · rename_i e; rw [e]; decide
        · split at hk
          · rename_i e; rw [e]; decide
          · cases hk
      · cases hc
    · cases hc
  unfold postedEntry at h
  split at h
  · rename_i a cls f cue ha _ _ hc
    split at h
    · rename_i pos src splice hp hs hw
      dsimp only at h
      rw [Option.ite_none_right_eq_some] at h
      obtain ⟨fits, h⟩ := h
      · cases h
        refine ⟨actionOf_eq_some ha, fits.2, fun on => ⟨?_, ?_⟩, fun on => ?_, fun on => ?_, cued cue hc⟩
        · rw [if_pos on] at hp
          exact (toFin_eq_some.1 hp).symm.le.trans_lt pos.isLt
        · rw [if_pos on] at hw
          by_contra far
          rw [spliceOf_eq_none (by omega)] at hw
          cases hw
        · rw [if_pos on] at hs
          exact (toFin_eq_some.1 hs).symm.le.trans_lt src.isLt
        · have window := fits.1
          rwa [if_pos on] at window
    · cases h
  · cases h

/-- The numbers of the actions (12.1). -/
theorem actionByte_toNat (a : Action) : (actionByte a).toNat ≤ 4 ∧ ((actionByte a).toNat ≤ 2 → a.stacked = true) ∧
    ((actionByte a).toNat = 0 ∨ (actionByte a).toNat = 2 → a.sourced = true) ∧ ((actionByte a).toNat = 0 → a = .take) := by
  cases a <;> decide

/-- Settles O38: the checks in their order, by what a body spells, and the place of an entry. -/
theorem postEntryAnswered : Obligations.PostEntryAnswered := by
  unfold Obligations.PostEntryAnswered
  refine ⟨fun s p sequence e serves owner spelled => ?_, fun s p sequence body serves length => ?_⟩
  · subst owner
    have answer := fun {t reply} does => exec_serves (t := t) (reply := reply) serves .postEntry sequence _ e.posted_length does
    have spells := Entry.spells_posted spelled
    have posted := postedEntry_spells spells spelled s.day
    have big := (s.clock.rate.day_bounds).1
    change 2160000 ≤ s.day at big
    dsimp only
    by_cases unpermitted : (s.port e.owner).authority.feedMap.getLsbD e.feed = false ∨ (s.port e.owner).authority.classMax.rank < e.cls.rank ∨
        (e.cue.any fun c => !(s.port e.owner).authority.cueMap.getLsbD c.line) = true
    · refine ⟨_, answer (reqPostEntry_unpermitted ((postPermitted_spells spells _).2 unpermitted)), ?_⟩
      rw [if_pos unpermitted]
      rfl
    have permitted : postPermitted (s.port e.owner) e.posted = true :=
      Bool.eq_true_of_not_eq_false fun k => unpermitted ((postPermitted_spells spells _).1 k)
    simp only [if_neg unpermitted]
    split
    · rename_i out
      exact ⟨_, answer (reqPostEntry_range permitted (posted.trans (if_pos out))), rfl⟩
    rename_i within
    replace posted := posted.trans (if_neg within)
    split
    · rename_i live
      exact ⟨_, answer (reqPostEntry_live permitted posted ((s.liveTag_iff _ _).2 live)), rfl⟩
    rename_i fresh
    have fresh' : s.liveTag e.owner e.tag = false := Bool.eq_false_of_not_eq_true fun k => fresh ((s.liveTag_iff _ _).1 k)
    split
    · rename_i broken
      rw [← or_assoc] at broken
      exact ⟨_, answer (reqPostEntry_rules permitted posted fresh'
        (broken.imp (fun k => (Entry.classRules_iff _).2 k) fun k => (State.cueLineReady_iff s _).2 k)), rfl⟩
    rename_i sound
    rw [← or_assoc, not_or] at sound
    obtain ⟨rules, ready⟩ := sound
    replace rules := Bool.eq_true_of_not_eq_false fun k => rules ((Entry.classRules_iff _).1 k)
    replace ready := Bool.eq_true_of_not_eq_false fun k => ready ((State.cueLineReady_iff s _).1 k)
    split
    · rename_i full
      exact ⟨_, answer (reqPostEntry_full permitted posted fresh' rules ready ((s.list.hasPlace_iff _).2 full)), rfl⟩
    rename_i place
    replace place := Bool.eq_true_of_not_eq_false fun k => place ((s.list.hasPlace_iff _).1 k)
    split
    · rename_i past
      exact ⟨_, answer (reqPostEntry_past permitted posted fresh' rules ready place ((timing_past (by omega)).2 past)), rfl⟩
    rename_i ahead
    replace ahead : timing (distance e.due s.now s.day) s.day ≠ .past := fun k => ahead ((timing_past (by omega)).1 k)
    have does := reqPostEntry_placed permitted posted fresh' rules ready place ahead rfl rfl
    refine ⟨_, answer does, _, _, decide (timing (distance e.due s.now s.day) s.day = .late), (placeOf_append _ _ _ _).symm, ?_,
      fun y hy => placeOf_before hy, fun y hy => placeOf_after hy, rfl⟩
    rw [decide_eq_true_eq, timing_late]
    rfl
  · have answer := fun {t reply} does => exec_serves (t := t) (reply := reply) serves .postEntry sequence body length does
    dsimp only
    refine ⟨fun off => answer (reqPostEntry_unpermitted ?_), fun feed cls line out => answer (reqPostEntry_range ?_ ?_), fun e owner spelled same => ?_⟩
    · unfold postPermitted
      simp only [Bool.and_eq_false_iff, decide_eq_false_iff_not, Nat.not_le, Bool.or_eq_false_iff, beq_eq_false_iff_ne, or_assoc]
      exact off.imp id (Or.imp id (And.imp_left fun k e => k (by rw [e]; rfl)))
    · unfold postPermitted
      simp only [Bool.and_eq_true, decide_eq_true_eq, Bool.or_eq_true, beq_iff_eq]
      exact ⟨⟨feed, cls⟩, line.imp_left fun k => byte_of_toNat k⟩
    · cases posted : postedEntry p body s.day with
      | none => rfl
      | some e =>
        exfalso
        obtain ⟨action, due, placed, sourced, window, cued⟩ := postedEntry_some posted
        obtain ⟨a4, a2, a1, a0⟩ := actionByte_toNat e.action
        rw [← action] at a4 a2 a1 a0
        rcases out with late | far | ⟨on, out⟩ | ⟨on, out⟩ | ⟨on, out⟩ | ⟨on, out⟩
        · omega
        · omega
        · have := placed (a2 on); omega
        · have := sourced (a1 on); omega
        · have := window (a0 on); omega
        · have := cued on; omega
    · refine exec_same serves .postEntry sequence e.posted body e.posted_length length ?_
      subst owner
      have spells := Entry.spells_posted spelled
      have spells' := spells.congr e.posted_length length same
      have permits : postPermitted (s.port e.owner) body = postPermitted (s.port e.owner) e.posted := by
        rw [Bool.eq_iff_iff, ← not_iff_not, Bool.not_eq_true, Bool.not_eq_true, postPermitted_spells spells, postPermitted_spells spells']
      change reqPostEntry e.owner body s = reqPostEntry e.owner e.posted s
      unfold reqPostEntry
      rw [permits, postedEntry_spells spells spelled, postedEntry_spells spells' spelled]

end Sys2Proof.Machine
end

section
/-! SUPPORT. What the store of a packet makes of the sources, the positions and the ports (R90 to R94, R64, R68, R96). -/

namespace Sys2Proof.Machine

/-! ### The pushes of a full ring -/

/-- An overrun total after a number of pushes (R96). -/
def overrunsAfter (n pushes : Nat) : Nat := if pushes = 0 then n else min (n + pushes) 65535

theorem overrunsAfter_next (n c : Nat) : overrunsAfter (sat16 (n + 1)) c = overrunsAfter n (c + 1) := by
  unfold overrunsAfter sat16
  rw [if_neg (Nat.succ_ne_zero c)]
  split <;> omega

/-- OVERRUN for the ports whose feed map holds the feed of a push (R94). -/
def overrunNotice (pushed : List (FeedNo × PosNo)) (x : ControlPort) : NoticeSet :=
  if (pushed.any fun fp => x.authority.feedMap.getLsbD fp.1) = true then 0x200 else 0

/-- The second state is the first with the cursors of these positions pushed on the ring of one source, but for those positions. -/
structure Pushes (s t : State) (i : SrcNo) (pushed : List (FeedNo × PosNo)) : Prop where
  frame : ∃ v w u, t = { s with positions := v, sources := w, ports := u }
  here : t.src i = { s.src i with overrunTotal := overrunsAfter (s.src i).overrunTotal pushed.length }
  others : ∀ j, j ≠ i → t.src j = s.src j
  ports : ∀ q, t.port q = (s.port q).told (overrunNotice pushed (s.port q))

theorem overrunNotice_cons (fp : FeedNo × PosNo) (l : List (FeedNo × PosNo)) (x : ControlPort) :
    overrunNotice (fp :: l) x = (if x.authority.feedMap.getLsbD fp.1 then Notice.overrun.bit else 0) ||| overrunNotice l x := by
  unfold overrunNotice
  rw [List.any_cons]
  cases x.authority.feedMap.getLsbD fp.1 <;> cases (l.any fun fp => x.authority.feedMap.getLsbD fp.1) <;> decide

theorem Pushes.none (s : State) (i : SrcNo) : Pushes s s i [] :=
  ⟨⟨_, _, _, rfl⟩, rfl, fun _ _ => rfl, fun q => (ControlPort.told_zero (s.port q)).symm⟩

theorem State.pushCursor_pushes (s : State) (i : SrcNo) (fp : FeedNo × PosNo) :
    Pushes s (s.pushCursor i fp.1 fp.2) i (if (s.pos fp.1 fp.2).isPushed i (s.src i).ring.length then [fp] else []) := by
  by_cases h : (s.pos fp.1 fp.2).isPushed i (s.src i).ring.length = true
  · have pushed : s.pushCursor i fp.1 fp.2 = ((s.setPos fp.1 fp.2 ((s.pos fp.1 fp.2).pushed (s.src i).ring)).setSrc i
        { s.src i with overrunTotal := sat16 ((s.src i).overrunTotal + 1) }).raiseForFeed fp.1 .overrun := if_pos h
    rw [pushed, if_pos h]
    refine ⟨?_, ?_, fun j hj => ?_, fun q => ?_⟩
    · obtain ⟨_, e, _⟩ := raiseForFeed_frame ((s.setPos fp.1 fp.2 ((s.pos fp.1 fp.2).pushed (s.src i).ring)).setSrc i
        { s.src i with overrunTotal := sat16 ((s.src i).overrunTotal + 1) }) fp.1 .overrun
      rw [e]
      exact ⟨_, _, _, rfl⟩
    · rw [(raiseForFeed_frame _ _ _).src, State.src_setSrc, if_pos rfl]
      exact congrArg (fun n => { s.src i with overrunTotal := n }) (overrunsAfter_next _ 0)
    · rw [(raiseForFeed_frame _ _ _).src, State.src_setSrc, if_neg (Ne.symm hj)]
      rfl
    · rw [State.raiseForFeed_port, overrunNotice_cons]
      refine congrArg (s.port q).told ?_
      exact (BitVec.or_zero).symm
  · have stays : s.pushCursor i fp.1 fp.2 = s := if_neg h
    rw [stays, if_neg h]
    exact .none s i

theorem Pushes.trans {s t u : State} {i : SrcNo} {a b : List (FeedNo × PosNo)} (small : a.length ≤ 1) (ha : Pushes s t i a)
    (hb : Pushes t u i b) : Pushes s u i (a ++ b) := by
  refine ⟨?_, ?_, fun j hj => (hb.others j hj).trans (ha.others j hj), fun q => ?_⟩
  · obtain ⟨_, _, _, rfl⟩ := ha.frame
    obtain ⟨_, _, _, rfl⟩ := hb.frame
    exact ⟨_, _, _, rfl⟩
  · rw [hb.here, ha.here]
    match a, small with
    | [], _ => rfl
    | [fp], _ => exact congrArg (fun n => { s.src i with overrunTotal := n }) (overrunsAfter_next _ _)
  · rw [hb.ports, ha.ports]
    match a, small with
    | [], _ => rw [show overrunNotice [] (s.port q) = 0 from rfl, ControlPort.told_zero, List.nil_append]
    | [fp], _ =>
      rw [ControlPort.told_told]
      refine congrArg (s.port q).told ?_
      have same : overrunNotice b ((s.port q).told (overrunNotice [fp] (s.port q))) = overrunNotice b (s.port q) := rfl
      rw [same, List.singleton_append, overrunNotice_cons, overrunNotice_cons, show overrunNotice [] (s.port q) = 0#10 from rfl, BitVec.or_zero]

/-- The pushes of a list of positions, each by where its cursor stands before. -/
theorem State.foldl_pushes (i : SrcNo) (l : List (FeedNo × PosNo)) (nodup : l.Nodup) (s : State) :
    Pushes s (l.foldl (fun s fp => s.pushCursor i fp.1 fp.2) s) i
      (l.filter fun fp => (s.pos fp.1 fp.2).isPushed i (s.src i).ring.length) := by
  induction l generalizing s with
  | nil => exact .none s i
  | cons fp l ih =>
    obtain ⟨fresh, nodup⟩ := List.nodup_cons.1 nodup
    have rest := ih nodup (s.pushCursor i fp.1 fp.2)
    have same : l.filter (fun fq => ((s.pushCursor i fp.1 fp.2).pos fq.1 fq.2).isPushed i ((s.pushCursor i fp.1 fp.2).src i).ring.length) =
        l.filter fun fq => (s.pos fq.1 fq.2).isPushed i (s.src i).ring.length := by
      refine List.filter_congr fun fq hq => ?_
      rw [State.pushCursor_ring, State.pushCursor_pos, if_neg fun e => fresh (by rw [show fp = fq from Prod.ext e.1 e.2]; exact hq)]
    rw [same] at rest
    have whole := Pushes.trans (by split <;> simp) (s.pushCursor_pushes i fp) rest
    rw [List.foldl_cons, List.filter_cons]
    split
    · rename_i h
      rwa [if_pos h] at whole
    · rename_i h
      rwa [if_neg h] at whole

theorem Position.isPushed_eq (x : Position) (i : SrcNo) (held : Nat) :
    x.isPushed i held = x.onAir.any fun c => decide (c.source = i ∧ held ≤ c.lag) := by
  unfold Position.isPushed
  cases x.onAir with
  | none => rfl
  | some c => exact (Bool.decide_and _ _).symm

/-- What a packet written at the write point has made of the state, but for the positions (R90, R94, R96). -/
structure Written (s t : State) (i : SrcNo) (k : Packet) : Prop where
  frame : ∃ v w u, t = { s with positions := v, sources := w, ports := u }
  here : t.src i = { (s.src i).write k with
    ring := (s.src i).ring.drop ((s.src i).ring.length - 511) ++ [k]
    overrunTotal := overrunsAfter (s.src i).overrunTotal (s.pushedAt i).length }
  others : ∀ j, j ≠ i → t.src j = s.src j
  ports : ∀ q, t.port q = (s.port q).told (overrunNotice (s.pushedAt i) (s.port q))

theorem State.makeRoom_pushes (s : State) (i : SrcNo) : ∃ u, Pushes s u i (s.pushedAt i) ∧
    s.makeRoom i = u.setSrc i { u.src i with ring := (u.src i).ring.drop ((u.src i).ring.length - 511) } := by
  have places : ∀ n, n + 1 - Config.ringPlaces = n - 511 := fun n => by
    have : Config.ringPlaces = 512 := rfl
    omega
  rw [State.makeRoom_eq, places]
  unfold State.pushedAt
  by_cases room : (s.src i).ring.length < 512
  · refine ⟨s, ?_, ?_⟩
    · rw [if_pos room]
      exact .none s i
    · refine (if_pos room).trans ?_
      rw [Nat.sub_eq_zero_of_le (show (s.src i).ring.length ≤ 511 by omega), List.drop_zero]
      exact (s.setSrc_src i).symm
  · refine ⟨s.pushAll i, ?_, ?_⟩
    · rw [if_neg room]
      simp only [← Position.isPushed_eq]
      exact State.foldl_pushes i allPositions nodup_allPositions s
    · exact if_neg room

theorem State.written_written (s : State) (i : SrcNo) (k : Packet) : Written s (s.written i k) i k := by
  obtain ⟨u, pushes, room⟩ := s.makeRoom_pushes i
  unfold State.written
  rw [room]
  dsimp only
  rw [State.setSrc_setSrc, State.src_setSrc, if_pos rfl]
  refine ⟨?_, ?_, fun j hj => ?_, fun q => ?_⟩
  · obtain ⟨_, _, _, rfl⟩ := pushes.frame
    exact ⟨_, _, _, rfl⟩
  · change ((u.setSrc i _).src i) = _
    rw [State.src_setSrc, if_pos rfl, pushes.here]
    unfold Source.write
    dsimp only
  · change ((u.setSrc i _).src j) = _
    rw [State.src_setSrc, if_neg (Ne.symm hj)]
    exact pushes.others j hj
  · exact pushes.ports q

/-! ### Positions at a store -/

/-- A position once a packet is written and offered to its on-air cursor (R90, R92, R94). -/
def Position.afterWrite (x : Position) (i : SrcNo) (ring : List Packet) (k : Packet) : Position := (x.afterRoom i ring).offered i k

theorem Position.afterWrite_clear {x : Position} {i : SrcNo} (h : x.onAirSource ≠ some i) (ring : List Packet) (k : Packet) :
    x.afterWrite i ring k = x := by
  unfold Position.afterWrite Position.afterRoom Position.afterPush Position.isPushed Position.offered
  unfold Position.onAirSource at h
  cases hc : x.onAir with
  | none => simp [hc]
  | some c =>
    have other : c.source ≠ i := fun e => h (by rw [hc, ← e]; rfl)
    simp [hc, other]

theorem Position.afterWrite_keeps (x : Position) (i : SrcNo) (ring : List Packet) (k : Packet) :
    ∃ c n, x.afterWrite i ring k = { x with onAir := c, overruns := n } := by
  have room : ∃ c n, x.afterRoom i ring = { x with onAir := c, overruns := n } := by
    unfold Position.afterRoom Position.afterPush Position.pushed
    split
    · exact ⟨_, _, rfl⟩
    · split
      · cases x.onAir <;> exact ⟨_, _, rfl⟩
      · exact ⟨_, _, rfl⟩
  obtain ⟨c, n, e⟩ := room
  unfold Position.afterWrite
  rw [e]
  unfold Position.offered
  cases c with
  | none => exact ⟨_, _, rfl⟩
  | some c =>
    dsimp only
    split
    · split <;> exact ⟨_, _, rfl⟩
    · exact ⟨_, _, rfl⟩

theorem Position.finds_afterWrite (x : Position) (i : SrcNo) (ring : List Packet) (k : Packet) :
    (x.afterWrite i ring k).finds i k = x.finds i k ∧ (x.afterWrite i ring k).slot = x.slot := by
  obtain ⟨c, n, e⟩ := x.afterWrite_keeps i ring k
  rw [e]
  exact ⟨rfl, rfl⟩

/-- A position whose search a stored packet has ended (R64). -/
def Position.ended (x : Position) (i : SrcNo) : Position := { x with slot := .steady, onAir := some ⟨i, 1⟩, marks := 0xF }

/-- A position after the store of a packet. -/
def Position.afterStore (x : Position) (i : SrcNo) (ring : List Packet) (k : Packet) : Position :=
  if x.finds i k then (x.afterWrite i ring k).ended i else x.afterWrite i ring k

theorem State.foundAt_eq (s : State) (i : SrcNo) (k : Packet) : s.foundAt i k = allPositions.filter fun fp => (s.pos fp.1 fp.2).finds i k := by
  unfold State.foundAt
  refine List.filter_congr fun fp _ => ?_
  unfold Position.finds Position.carries
  rw [Bool.eq_iff_iff]
  simp only [decide_eq_true_eq, Bool.and_eq_true]
  constructor
  · rintro ⟨comp, entry, target, carried⟩
    exact ⟨⟨⟨target, comp⟩, by rw [comp]; exact carried⟩, entry⟩
  · rintro ⟨⟨⟨target, comp⟩, carried⟩, entry⟩
    rw [comp] at carried
    exact ⟨comp, entry, target, carried⟩

theorem State.entrySwitch_eq {s : State} {f : FeedNo} {p : PosNo} {i : SrcNo} (h : (s.pos f p).slot.target = some i) :
    s.entrySwitch f p = (s.moveOnAir f p (some ⟨i, 1⟩) 0xF).ownerDone f p (s.pos f p).slot.owner .none := by
  unfold State.entrySwitch
  cases hs : (s.pos f p).slot with
  | steady => rw [hs] at h; cases h
  | seeking t w o =>
    rw [hs] at h
    obtain rfl : t = i := Option.some.inj h
    rfl

/-! ### The searches that a packet ends -/

/-- The record of one search that ends (R68). -/
def State.endedAt (s : State) (i : SrcNo) (k : Packet) (u : State) (fp : FeedNo × PosNo) : State :=
  if (s.pos fp.1 fp.2).finds i k then u.ownerDone fp.1 fp.2 (s.pos fp.1 fp.2).slot.owner .none else u

/-- The searches that end at a packet: their positions, and their records in ascending order (log 7). -/
theorem State.endSearches_moves (s : State) (i : SrcNo) (k : Packet) : OnlyStacks s (s.endSearches i k) ∧
    (∀ f p, (s.endSearches i k).pos f p = if (s.pos f p).finds i k then (s.pos f p).ended i else s.pos f p) ∧
    ∀ q, (s.endSearches i k).port q = (recordsFor (fun fp => (s.pos fp.1 fp.2).slot.owner) .none s.clock.tod q
      (s.foundAt i k)).foldl ControlPort.recorded (s.port q) := by
  obtain ⟨only, positions, ports⟩ := foldl_moves (s := s)
    (g := fun s fp => if (s.pos fp.1 fp.2).finds i k then s.entrySwitch fp.1 fp.2 else s) (record := s.endedAt i k)
    (make := fun fp => if (s.pos fp.1 fp.2).finds i k then (s.pos fp.1 fp.2).ended i else s.pos fp.1 fp.2)
    (fun u fp _ same => by
      unfold State.endedAt
      rw [same]
      split
      · rename_i found
        rw [State.entrySwitch_eq (by rw [same]; exact Position.finds_target found)]
        have writes := u.moveOnAir_writes fp.1 fp.2 (some ⟨i, 1⟩) 0xF
        refine ⟨?_, ?_⟩
        · have moved := writes.movedTo.told (ownerDone_frame _ fp.1 fp.2 (u.pos fp.1 fp.2).slot.owner .none)
          rwa [same] at moved ⊢
        · rw [same]
          exact State.ownerDone_ports (v := u) writes.ports writes.clock _ _ _ _
      · refine ⟨?_, rfl⟩
        have moved := (OnlyPorts.rfl' u).movedTo (f := fp.1) (p := fp.2)
        rwa [same] at moved)
    (fun u fp => by unfold State.endedAt; split; exacts [ownerDone_frame _ _ _ _ _, .rfl' u])
    (fun u v fp ports clock => by
      unfold State.endedAt
      split
      · exact State.ownerDone_ports ports clock _ _ _ _
      · exact ports)
    allPositions nodup_allPositions
  refine ⟨only, fun f p => (positions f p).trans (if_pos (mem_allPositions f p)), fun q => ?_⟩
  unfold State.port
  rw [show (s.endSearches i k).ports = _ from ports]
  unfold State.endedAt
  rw [← List.foldl_filter, ← State.foundAt_eq]
  exact State.foldl_ownerDone _ _ q _ s

/-- The ring of a source has lost no packet that a cursor with a lag up to `b` still needs. -/
def KeepsBacklog (ring : List Packet) (b : Nat) (left : List Packet) : Prop := ∃ n, left = ring.drop n ∧ n ≤ ring.length - b

theorem KeepsBacklog.trim {ring : List Packet} {b : Nat} {s : State} {i : SrcNo} (h : KeepsBacklog ring b (s.src i).ring)
    (enough : b ≤ s.backlog i) (x : SrcNo) : KeepsBacklog ring b ((s.trim x).src i).ring := by
  obtain ⟨n, e, le⟩ := h
  rw [State.trim_ring]
  split
  · refine ⟨n + (ring.length - n - s.backlog i), ?_, by omega⟩
    rw [e, List.drop_drop, List.length_drop]
  · exact ⟨n, e, le⟩

theorem State.trim_backlog (s : State) (x i : SrcNo) : (s.trim x).backlog i = s.backlog i := by
  unfold State.backlog
  rw [State.lags_congr (s.trim_positions x)]

theorem KeepsBacklog.trimOpt {ring : List Packet} {b : Nat} {s : State} {i : SrcNo} (h : KeepsBacklog ring b (s.src i).ring)
    (enough : b ≤ s.backlog i) (x : Option SrcNo) :
    KeepsBacklog ring b ((s.trimOpt x).src i).ring ∧ b ≤ (s.trimOpt x).backlog i := by
  cases x with
  | none => exact ⟨h, enough⟩
  | some x => exact ⟨h.trim enough x, by rw [show s.trimOpt (some x) = s.trim x from rfl, State.trim_backlog]; exact enough⟩

theorem State.moveOnAir_keepsBacklog {ring : List Packet} {b : Nat} {s : State} {i : SrcNo} (h : KeepsBacklog ring b (s.src i).ring)
    (f : FeedNo) (p : PosNo) (c : Option Cursor) (m : BitVec 4)
    (enough : b ≤ (s.setPos f p { s.pos f p with slot := .steady, onAir := c, marks := m }).backlog i) :
    KeepsBacklog ring b ((s.moveOnAir f p c m).src i).ring := by
  unfold State.moveOnAir
  dsimp only
  obtain ⟨keeps, more⟩ := KeepsBacklog.trimOpt (s := s.setPos f p { s.pos f p with slot := .steady, onAir := c, marks := m }) h enough (c.map Cursor.source)
  obtain ⟨keeps, more⟩ := keeps.trimOpt more (s.pos f p).onAirSource
  exact (keeps.trimOpt more (s.pos f p).slot.target).1

/-- The searches that end free no packet that a cursor still needs (R91). -/
theorem State.endSearches_keepsBacklog (s : State) (i : SrcNo) (k : Packet) :
    KeepsBacklog (s.src i).ring ((s.endSearches i k).backlog i) ((s.endSearches i k).src i).ring := by
  obtain ⟨-, final, -⟩ := s.endSearches_moves i k
  generalize hb : (s.endSearches i k).backlog i = b
  suffices (∀ f p, (s.endSearches i k).pos f p = s.pos f p ∨ (s.pos f p).finds i k = true ∧ (s.endSearches i k).pos f p = (s.pos f p).ended i) ∧
      KeepsBacklog (s.src i).ring b ((s.endSearches i k).src i).ring from this.2
  refine foldl_keeps (fun u : State => (∀ f p, u.pos f p = s.pos f p ∨ (s.pos f p).finds i k = true ∧ u.pos f p = (s.pos f p).ended i) ∧
    KeepsBacklog (s.src i).ring b (u.src i).ring) _ (fun u fp hu => ?_) allPositions s ⟨fun _ _ => .inl rfl, 0, rfl, Nat.zero_le _⟩
  obtain ⟨between, keeps⟩ := hu
  split
  · rename_i found
    have target := Position.finds_target found
    have at' : u.pos fp.1 fp.2 = s.pos fp.1 fp.2 := (between fp.1 fp.2).resolve_right fun e => by
      rw [e.2] at target
      cases target
    rw [State.entrySwitch_eq target]
    have positions : ∀ f p, ((u.moveOnAir fp.1 fp.2 (some ⟨i, 1⟩) 0xF).ownerDone fp.1 fp.2 (u.pos fp.1 fp.2).slot.owner .none).pos f p =
        if fp.1 = f ∧ fp.2 = p then (s.pos fp.1 fp.2).ended i else u.pos f p := fun f p => by
      rw [(ownerDone_frame _ _ _ _ _).pos, (u.moveOnAir_writes fp.1 fp.2 (some ⟨i, 1⟩) 0xF).pos, State.pos_setPos, at']
      rfl
    rw [at'] at found
    refine ⟨fun f p => ?_, ?_⟩
    · rw [positions]
      split
      · rename_i e
        obtain ⟨rfl, rfl⟩ := e
        exact .inr ⟨found, rfl⟩
      · exact between f p
    · rw [(ownerDone_frame _ _ _ _ _).src]
      refine State.moveOnAir_keepsBacklog keeps _ _ _ _ ?_
      have one : ∀ l, l ≤ 1 → l ≤ (u.setPos fp.1 fp.2 { u.pos fp.1 fp.2 with slot := .steady, onAir := some ⟨i, 1⟩, marks := 0xF }).backlog i :=
        fun l hl => hl.trans (State.le_backlog _ i ((State.mem_lags _ i 1).2 ⟨fp.1, fp.2, .inl (by rw [State.pos_setPos, if_pos ⟨rfl, rfl⟩])⟩))
      rw [← hb, State.backlog_le]
      intro l hl
      obtain ⟨f, p, reads⟩ := (State.mem_lags _ i l).1 hl
      rw [final] at reads
      split at reads
      · rcases reads with e | ⟨e, -⟩
        · exact one l (by have := congrArg (Option.map Cursor.lag) e; simp [Position.ended] at this; omega)
        · cases e
      · rename_i stays
        refine State.le_backlog _ i ((State.mem_lags _ i l).2 ⟨f, p, ?_⟩)
        rw [State.pos_setPos, if_neg fun e => stays (by rw [← e.1, ← e.2]; exact found)]
        rwa [(between f p).resolve_right fun e => stays e.1]
  · exact ⟨between, keeps⟩

/-- Without a search that ends, nothing changes. -/
theorem State.endSearches_none {s : State} {i : SrcNo} {k : Packet} (h : ∀ f p, (s.pos f p).finds i k = false) : s.endSearches i k = s := by
  unfold State.endSearches
  generalize allPositions = l
  induction l with
  | nil => rfl
  | cons fp l ih =>
    rw [List.foldl_cons, if_neg (by rw [h]; decide)]
    exact ih

end Sys2Proof.Machine
end

section
/-! SUPPORT. The arrival of a packet: matched, checked, counted and stored (R88 to R91), and what the cursors on its ring do (R63, R64, R94). -/

namespace Sys2Proof.Machine

/-! ### The source and the ports -/

theorem Source.received_eq (x : Source) (k : Packet) (n : Nat) :
    { (({ x with bytes := [] } : Source).checkContinuity k).write k with
      ring := x.ring.drop (x.ring.length - 511) ++ [k], overrunTotal := n } = { x.received k with overrunTotal := n } := by
  unfold Source.checkContinuity Source.received continuityError Source.write
  dsimp only
  cases tget x.cont k.comp with
  | none => rfl
  | some last =>
    dsimp only
    split <;> rfl

theorem Source.checkContinuity_keeps (x : Source) (k : Packet) : (x.checkContinuity k).ring = x.ring ∧
    (x.checkContinuity k).overrunTotal = x.overrunTotal := by
  unfold Source.checkContinuity
  dsimp only
  split <;> exact ⟨rfl, rfl⟩

theorem ControlPort.foldl_recorded_told (l : List Outcome) (x : ControlPort) (n : NoticeSet) :
    l.foldl ControlPort.recorded (x.told n) = (l.foldl ControlPort.recorded x).told n := by
  induction l generalizing x with
  | nil => rfl
  | cons r l ih =>
    have swap : (x.told n).recorded r = (x.recorded r).told n := by
      unfold ControlPort.recorded ControlPort.told
      dsimp only
      rw [BitVec.or_assoc, BitVec.or_assoc, BitVec.or_comm n]
    rw [List.foldl_cons, List.foldl_cons, swap, ih]

/-! ### The state -/

/-- A source matched and checked at a packet's arrival (R88, R89). -/
def State.matched (s : State) (i : SrcNo) (k : Packet) : State := s.setSrc i (({ s.src i with bytes := [] } : Source).checkContinuity k)

section
variable (s : State) (i : SrcNo) (k : Packet)

theorem State.matched_pos (f : FeedNo) (p : PosNo) : (s.matched i k).pos f p = s.pos f p := State.setSrc_pos _ _ _ _ _

theorem State.matched_ring : ((s.matched i k).src i).ring = (s.src i).ring ∧
    ((s.matched i k).src i).overrunTotal = (s.src i).overrunTotal := by
  unfold State.matched
  rw [State.src_setSrc, if_pos rfl]
  exact Source.checkContinuity_keeps _ k

theorem State.matched_pushedAt : (s.matched i k).pushedAt i = s.pushedAt i := by
  unfold State.pushedAt
  simp only [State.matched_pos, (s.matched_ring i k).1]

/-- A packet that has arrived, written at the write point. -/
theorem State.matched_written : let w := (s.matched i k).written i k
    (∃ v x u, w = { s with positions := v, sources := x, ports := u }) ∧
      w.src i = { (s.src i).received k with overrunTotal := overrunsAfter (s.src i).overrunTotal (s.pushedAt i).length } ∧
      (∀ j, j ≠ i → w.src j = s.src j) ∧ (∀ q, w.port q = (s.port q).told (overrunNotice (s.pushedAt i) (s.port q))) ∧
      ∀ f p, w.pos f p = (s.pos f p).afterWrite i (s.src i).ring k := by
  obtain ⟨frame, here, others, ports⟩ := (s.matched i k).written_written i k
  obtain ⟨ring, total⟩ := s.matched_ring i k
  refine ⟨?_, ?_, fun j hj => ?_, ?_, fun f p => ?_⟩
  · obtain ⟨v, x, u, e⟩ := frame
    exact ⟨v, x, u, e⟩
  · rw [here, ring, total, State.matched_pushedAt, ← Source.received_eq]
    unfold State.matched
    rw [State.src_setSrc, if_pos rfl]
  · rw [others j hj]
    unfold State.matched
    rw [State.src_setSrc, if_neg (Ne.symm hj)]
  · rw [State.matched_pushedAt] at ports
    exact ports
  · rw [State.written_pos, State.matched_pos, ring]
    rfl

/-- The positions after the store of a packet that has arrived. -/
theorem State.arrived_pos (f : FeedNo) (p : PosNo) :
    ((s.matched i k).store i k).pos f p = (s.pos f p).afterStore i (s.src i).ring k := by
  obtain ⟨-, -, -, -, positions⟩ := s.matched_written i k
  obtain ⟨-, ends, -⟩ := ((s.matched i k).written i k).endSearches_moves i k
  rw [State.store_eq, State.trim_pos, ends, positions, (Position.finds_afterWrite _ _ _ _).1]
  rfl

/-- What the store of a packet that has arrived makes of the state. -/
theorem State.arrived_frame : StoreFrame s ((s.matched i k).store i k) i k := by
  obtain ⟨⟨v, x, u, frame⟩, here, others, ports, positions⟩ := s.matched_written i k
  have final := s.arrived_pos i k
  rw [State.store_eq] at final ⊢
  generalize (s.matched i k).written i k = w at *
  obtain ⟨only, ends, told⟩ := w.endSearches_moves i k
  have keeps := w.endSearches_keepsBacklog i k
  have none' := fun h => State.endSearches_none (s := w) (i := i) (k := k) h
  generalize w.endSearches i k = e at *
  have trimmed := trim_frame e i
  have found : w.foundAt i k = s.foundAt i k := by
    rw [State.foundAt_eq, State.foundAt_eq]
    exact List.filter_congr fun fp _ => by rw [positions, (Position.finds_afterWrite _ _ _ _).1]
  have freed : Freed w.sources (e.trim i).sources := by
    obtain ⟨_, _, _, h, freed, _⟩ := only.trans trimmed.stacks
    rw [h]
    exact freed
  have lags : (e.trim i).lags i = e.lags i := State.lags_congr (e.trim_positions i) i
  refine ⟨?_, fun j hj => ?_, fun f p clear => ?_, fun q => ?_, ?_⟩
  · have ring : ((e.trim i).src i).ring = if (e.trim i).lags i = [] then (w.src i).ring
        else (w.src i).ring.drop ((w.src i).ring.length - (e.trim i).backlog i) := by
      rw [State.trim_ring, State.trim_backlog, lags]
      by_cases h : e.lags i = []
      · rw [if_neg (fun k => k.2 h), if_pos h, none' fun f p => Bool.eq_false_of_not_eq_true fun hit => ?_]
        refine List.ne_nil_of_mem ((e.mem_lags i 1).2 ⟨f, p, .inl ?_⟩) h
        rw [ends, if_pos hit]
        rfl
      · obtain ⟨n, eq, le⟩ := keeps
        rw [if_pos ⟨rfl, h⟩, if_neg h, eq, List.drop_drop, List.length_drop]
        congr 1
        omega
    obtain ⟨n, eq⟩ := freed i
    change (e.trim i).src i = { w.src i with ring := (w.src i).ring.drop n } at eq
    have whole : (e.trim i).src i = { w.src i with ring := ((e.trim i).src i).ring } := by rw [eq]
    rw [whole, ring, here]
    dsimp only
    unfold overrunsAfter
    simp only [List.length_eq_zero_iff]
    rfl
  · have other := Freed.trimmedTo freed j
    rwa [others j hj] at other
  · rw [final]
    unfold Position.afterStore
    have stays : (s.pos f p).finds i k = false := Bool.eq_false_of_not_eq_true fun hit => clear.2 (Position.finds_target hit)
    rw [stays, if_neg (by decide), Position.afterWrite_clear clear.1]
  · have clock : w.clock = s.clock := by rw [frame]
    have owners : (fun fp : FeedNo × PosNo => (w.pos fp.1 fp.2).slot.owner) = fun fp => (s.pos fp.1 fp.2).slot.owner :=
      funext fun fp => by rw [positions, (Position.finds_afterWrite _ _ _ _).2]
    have records := State.foldl_ownerDone (fun fp => (s.pos fp.1 fp.2).slot.owner) .none q (s.foundAt i k) s
    unfold OutcomeFlags.none at records
    rw [records]
    have port : (e.trim i).port q = e.port q := by unfold State.port; rw [trimmed.ports]
    rw [port, told, ports, clock, owners, found, ControlPort.foldl_recorded_told]
    rfl
  · obtain ⟨_, _, _, h, _⟩ := only.trans trimmed.stacks
    rw [h, frame]

/-- Where no on-air cursor reads a ring, a store pushes none. -/
theorem State.pushedAt_none (unread' : ∀ f p, (s.pos f p).onAirSource ≠ some i) : s.pushedAt i = [] := by
  unfold State.pushedAt
  split
  · rfl
  · refine List.filter_eq_nil_iff.2 fun fp _ => ?_
    have h := unread' fp.1 fp.2
    unfold Position.onAirSource at h
    cases e : (s.pos fp.1 fp.2).onAir with
    | none => simp
    | some c =>
      rw [e] at h
      simp only [Option.any_some, decide_eq_true_eq, not_and]
      exact fun k => absurd (congrArg some k) h

/-- A packet stored where no on-air cursor reads and no search ends (R91): nothing changes but its source. -/
theorem State.arrived_unread (unread' : ∀ f p, (s.pos f p).onAirSource ≠ some i) (unfound : ∀ f p, (s.pos f p).finds i k = false) :
    (s.matched i k).store i k =
      s.setSrc i { (s.src i).received k with ring := if s.lags i = [] then ((s.src i).received k).ring else [] } := by
  obtain ⟨⟨v, x, u, frame⟩, here, others, ports, positions⟩ := s.matched_written i k
  have same : ∀ f p, ((s.matched i k).written i k).pos f p = s.pos f p := fun f p => by
    rw [positions, Position.afterWrite_clear (unread' f p)]
  have none' := s.pushedAt_none i unread'
  have written : (s.matched i k).written i k = s.setSrc i ((s.src i).received k) := by
    rw [none'] at here ports
    generalize (s.matched i k).written i k = w at *
    have hv : v = s.positions := by
      refine tget_ext _ _ fun f => tget_ext _ _ fun p => ?_
      have := same f p
      rw [frame] at this
      exact this
    have hx : x = tset s.sources i ((s.src i).received k) := by
      refine tget_ext _ _ fun j => ?_
      rw [tget_tset]
      split
      · rename_i e
        subst e
        rw [frame] at here
        exact here
      · rename_i e
        have := others j (Ne.symm e)
        rw [frame] at this
        exact this
    have hu : u = s.ports := by
      refine tget_ext _ _ fun q => ?_
      have := ports q
      rw [frame, show overrunNotice [] (s.port q) = 0 from rfl, ControlPort.told_zero] at this
      exact this
    rw [frame, hv, hx, hu]
    rfl
  have ends : ((s.matched i k).written i k).endSearches i k = (s.matched i k).written i k :=
    State.endSearches_none fun f p => by rw [same]; exact unfound f p
  rw [State.store_eq, ends, written]
  have lags : (s.setSrc i ((s.src i).received k)).lags i = s.lags i := State.lags_congr rfl i
  unfold State.trim
  rw [lags]
  by_cases h : s.lags i = []
  · rw [if_pos h, if_pos (by rw [h]; rfl)]
  · have zero : (s.setSrc i ((s.src i).received k)).backlog i = 0 := by
      refine Nat.le_zero.1 ((State.backlog_le _ i 0).2 fun l hl => ?_)
      rw [lags] at hl
      obtain ⟨f, p, e | ⟨-, e⟩⟩ := (s.mem_lags i l).1 hl
      · exact absurd (Position.readsAt_onAir e) (unread' f p)
      · exact e.le
    rw [if_neg (by simpa using h), if_neg h, zero]
    dsimp only
    rw [State.src_setSrc, if_pos rfl, State.setSrc_setSrc, Nat.sub_zero, List.drop_length]

end

end Sys2Proof.Machine
end

section
/-! SUPPORT. What a packet that arrives does: discarded, stored, an entry point, and the cursors that it meets (R63, R88 to R94). -/

namespace Sys2Proof.Machine

/-! ### The last byte of a packet -/

/-- The least of four numbers that a test picks is found first. -/
theorem find_least {test : Fin 4 → Bool} {c : Fin 4} (picked : test c = true) (least : ∀ d, d < c → test d = false) :
    allPorts.find? test = some c := by
  have all : allPorts = [0, 1, 2, 3] := rfl
  rw [all]
  match c, picked, least with
  | 0, picked, _ => rw [List.find?_cons_of_pos picked]
  | 1, picked, least => rw [List.find?_cons_of_neg (by simp [least 0]), List.find?_cons_of_pos picked]
  | 2, picked, least =>
    rw [List.find?_cons_of_neg (by simp [least 0]), List.find?_cons_of_neg (by simp [least 1]), List.find?_cons_of_pos picked]
  | 3, picked, least =>
    rw [List.find?_cons_of_neg (by simp [least 0]), List.find?_cons_of_neg (by simp [least 1]), List.find?_cons_of_neg (by simp [least 2]),
      List.find?_cons_of_pos picked]

section
variable {s : State} {i : SrcNo} (synced : (s.src i).sync = .synced) (full : (s.src i).bytes.length = 187)
include synced full

/-- The 188th byte of a packet (R82, R83). -/
theorem State.takeByte_last (b : Byte) : s.takeByte i b = if byteAt (s.src i).bytes 0 = 0x47 then
    (s.setSrc i { s.src i with bytes := [] }).arrive i ((s.src i).bytes ++ [b]) else s.setSrc i { s.src i with bytes := [] } := by
  unfold State.takeByte
  simp only [synced, if_pos full]

variable {b : Byte} {id : Nat} {entry disc : Bool} {count : BitVec 4} {clock : Option Tick} {payload : List Byte}
  (bytes : (s.src i).bytes ++ [b] = packetBytes id entry disc count clock payload)
include bytes

theorem State.takeByte_packet : s.takeByte i b =
    (s.setSrc i { s.src i with bytes := [] }).arrive i (packetBytes id entry disc count clock payload) := by
  have first : byteAt (s.src i).bytes 0 = 0x47 := by
    rw [← byteAt_append_left (b := [b]) (by omega), bytes, packetBytes_eq]
    rfl
  rw [State.takeByte_last synced full, if_pos first, bytes]

variable (low : id < 8192)
include low

/-- A packet that no component of an enabled source takes is discarded (R88). -/
theorem State.takeByte_stray (stray : (s.src i).table.enabled = false ∨ ∀ c, tget (s.src i).table.comps c ≠ some id) :
    s.takeByte i b = s.setSrc i { s.src i with bytes := [] } := by
  rw [State.takeByte_packet synced full bytes]
  unfold State.arrive
  rw [State.src_setSrc, if_pos rfl, headerId_packetBytes _ _ _ _ _ _ low]
  dsimp only
  rcases stray with off | absent
  · rw [off, if_neg (by decide)]
  · have none' : (s.src i).table.compOf id = none := by
      unfold SourceEntry.compOf
      rw [List.find?_eq_none]
      intro c _
      simpa using absent c
    rw [none', ite_self]

variable (enabled : (s.src i).table.enabled = true) {c : CompNo} (comp : tget (s.src i).table.comps c = some id)
  (least : ∀ d, d < c → tget (s.src i).table.comps d ≠ some id)
include enabled comp least

/-- A packet of a component of an enabled source is matched and stored (R88 to R90). -/
theorem State.takeByte_stored : s.takeByte i b = (s.matched i ⟨c, s.clock.tick, entry, disc, id, count, clock, payload⟩).store i
    ⟨c, s.clock.tick, entry, disc, id, count, clock, payload⟩ := by
  have named : (s.src i).table.compOf id = some c := by
    exact find_least (by simpa using comp) fun d hd => by simpa using least d hd
  rw [State.takeByte_packet synced full bytes]
  unfold State.arrive State.matched
  rw [State.src_setSrc, if_pos rfl, headerId_packetBytes _ _ _ _ _ _ low]
  dsimp only
  rw [if_pos enabled, named]
  dsimp only
  rw [State.setSrc_setSrc, packetOf_packetBytes _ _ _ _ _ _ low]
  rfl

end

/-- Settles O23: the packet matched by its identifier, and its store where no cursor stands on the ring. -/
theorem arrivedPacketStored : Obligations.ArrivedPacketStored := by
  unfold Obligations.ArrivedPacketStored
  refine ⟨fun s i bytes b id entry disc count clock payload c awake synced held length whole low enabled comp least clear => ?_,
    fun s i b awake synced full stray => ?_, fun s i b b0 b1 b2 b3 b3' rest awake synced bytes length same => ?_⟩
  · subst held
    rw [exec_packetArrival, s.act_awake _ awake]
    rw [State.takeByte_stored synced length whole low enabled comp least, State.arrived_unread _ _ _ (fun f p => (clear f p).1)
      fun f p => Bool.eq_false_of_not_eq_true fun hit => (clear f p).2 (Position.finds_target hit)]
    have none' : s.lags i = [] := List.eq_nil_iff_forall_not_mem.2 fun l hl => by
      obtain ⟨f, p, e | ⟨e, -⟩⟩ := (s.mem_lags i l).1 hl
      · exact (clear f p).1 (Position.readsAt_onAir e)
      · exact (clear f p).2 e
    rw [if_pos none']
  · rw [exec_packetArrival, s.act_awake _ awake]
    dsimp only
    rcases stray with ⟨id, entry, disc, count, clock, payload, whole, low, stray⟩ | ⟨whole, range'⟩
    · rw [State.takeByte_stray synced full whole low stray]
    · rw [State.takeByte_stray synced full (id := 8191) whole (by decide) (.inr fun c hc => absurd (range' c _ hc) (by decide))]
  · rw [exec_packetArrival, exec_packetArrival, s.act_awake _ awake, State.act_awake _ _ (State.awake_setSrc awake i _)]
    have full : (s.src i).bytes.length = 187 := by rw [bytes]; simp [length]
    dsimp only
    rw [State.takeByte_last synced full, State.takeByte_last (by rw [State.src_setSrc, if_pos rfl]; exact synced)
      (by rw [State.src_setSrc, if_pos rfl]; simp [length])]
    rw [State.src_setSrc, if_pos rfl, State.setSrc_setSrc, bytes]
    have first : byteAt (b0 :: b1 :: b2 :: b3' :: rest) 0 = byteAt (b0 :: b1 :: b2 :: b3 :: rest) 0 := rfl
    dsimp only
    rw [first]
    have arrives : (s.setSrc i { s.src i with bytes := [] }).arrive i (b0 :: b1 :: b2 :: b3' :: rest ++ [b]) =
        (s.setSrc i { s.src i with bytes := [] }).arrive i (b0 :: b1 :: b2 :: b3 :: rest ++ [b]) := by
      have reads := fun c => packetOf_low b0 b1 b2 b3 b3' (rest ++ [b]) c (s.setSrc i { s.src i with bytes := [] }).clock.tick same
      unfold State.arrive
      simp only [List.cons_append, (reads _).1, (reads 0).2]
    rw [arrives]

/-! ### Entry points and cursors -/

/-- A packet passes a search over (R63): it is no entry point, or the position does not carry it. -/
theorem Position.finds_iff {x : Position} {i : SrcNo} {k : Packet} (seeks : x.slot.target = some i) :
    x.finds i k = false ↔ k.entry = false ∨ k.comp ≠ 0 ∨ tget x.ids 0 = none := by
  unfold Position.finds Position.carries
  rw [seeks, decide_eq_true rfl, Bool.true_and]
  by_cases comp : k.comp = 0
  · rw [comp]
    cases k.entry <;> cases tget x.ids 0 <;> simp
  · simp [comp]

theorem Position.afterStore_passed {x : Position} {i : SrcNo} {k : Packet} (away : x.onAirSource ≠ some i) (passes : x.finds i k = false)
    (ring : List Packet) : x.afterStore i ring k = x := by
  unfold Position.afterStore
  rw [passes, if_neg (by decide), Position.afterWrite_clear away]

theorem Position.afterStore_found {x : Position} {i : SrcNo} {k : Packet} (away : x.onAirSource ≠ some i) (found : x.finds i k = true)
    (ring : List Packet) : x.afterStore i ring k = x.ended i := by
  unfold Position.afterStore
  rw [if_pos found, Position.afterWrite_clear away]

theorem not_finds_of_clear {x : Position} {i : SrcNo} (h : x.slot.target ≠ some i) (k : Packet) : x.finds i k = false :=
  Bool.eq_false_of_not_eq_true fun hit => h (Position.finds_target hit)

/-- A state that differs in its sources, one position and its ports alone. -/
theorem State.eq_setPos {s t : State} {f : FeedNo} {p : PosNo} {x : Position} {ports : Vector ControlPort 4}
    (frame : t = { s with sources := t.sources, positions := t.positions, ports := t.ports })
    (positions : ∀ g q, t.pos g q = if f = g ∧ p = q then x else s.pos g q) (told : ∀ q, t.port q = tget ports q) :
    t = { s.setPos f p x with sources := t.sources, ports := ports } := by
  have hp : t.positions = (s.setPos f p x).positions := tget_ext _ _ fun g => tget_ext _ _ fun q => by
    have := State.pos_setPos s f g p q x
    exact (positions g q).trans this.symm
  have hq : t.ports = ports := tget_ext _ _ fun q => told q
  rw [← hq]
  refine frame.trans ?_
  rw [hp]
  rfl

theorem List.filter_only {α : Type} [DecidableEq α] {l : List α} {x : α} {test : α → Bool} (nodup : l.Nodup) (mem : x ∈ l) (here : test x = true)
    (others : ∀ y, y ≠ x → test y = false) : l.filter test = [x] := by
  have same : l.filter test = l.filter (· == x) := List.filter_congr fun y _ => by
    by_cases e : y = x
    · subst e; rw [here]; simp
    · rw [others y e]; simp [e]
  rw [same, List.filter_beq, List.count_eq_one_of_mem nodup mem]
  rfl

/-- Settles O24: the positions that find the packet, by what each is after the store. -/
theorem entryPointEndsSearch : Obligations.EntryPointEndsSearch := by
  unfold Obligations.EntryPointEndsSearch
  refine ⟨fun s i b id disc count clock payload f p w o awake synced full whole low enabled comp slot away carried clear => ?_,
    fun s i b id entry disc count clock payload c awake synced full whole low enabled comp least => ?_⟩
  · have stored := State.takeByte_stored synced full whole low enabled comp (fun d hd => absurd hd (Nat.not_lt_zero _))
    generalize hk : (⟨0, s.clock.tick, true, disc, id, count, clock, payload⟩ : Packet) = k at stored
    have target : (s.pos f p).slot.target = some i := by rw [slot]; rfl
    have found : (s.pos f p).finds i k = true := by
      refine Bool.eq_true_of_not_eq_false fun e => ?_
      rcases (Position.finds_iff target).1 e with e | e | e
      · rw [← hk] at e; cases e
      · rw [← hk] at e; exact e rfl
      · rw [e] at carried; cases carried
    have other : ∀ g q, (g, q) ≠ (f, p) → (s.pos g q).finds i k = false := fun g q h => not_finds_of_clear (clear g q h).2 k
    have unread' : ∀ g q, (s.pos g q).onAirSource ≠ some i := fun g q => by
      by_cases e : (g, q) = (f, p)
      · cases e; exact away
      · exact (clear g q e).1
    have only : s.foundAt i k = [(f, p)] := by
      rw [State.foundAt_eq]
      exact List.filter_only nodup_allPositions (mem_allPositions f p) found fun fq hq => other fq.1 fq.2 hq
    have positions : ∀ g q, ((s.matched i k).store i k).pos g q = if f = g ∧ p = q then (s.pos f p).ended i else s.pos g q := fun g q => by
      rw [State.arrived_pos]
      split
      · rename_i e
        obtain ⟨rfl, rfl⟩ := e
        exact Position.afterStore_found away found _
      · rename_i e
        exact Position.afterStore_passed (unread' g q) (other g q fun h => e (by cases h; exact ⟨rfl, rfl⟩)) _
    obtain ⟨here, others, -, ports, frame⟩ := s.arrived_frame i k
    rw [only, s.pushedAt_none i unread'] at ports
    rw [s.pushedAt_none i unread', if_pos rfl] at here
    rw [exec_packetArrival, s.act_awake _ awake, stored]
    generalize (s.matched i k).store i k = t at *
    have reads : 1 ∈ t.lags i := (t.mem_lags i 1).2 ⟨f, p, .inl (by rw [positions, if_pos ⟨rfl, rfl⟩]; rfl)⟩
    have backlog : t.backlog i = 1 := by
      refine le_antisymm ((t.backlog_le i 1).2 fun l hl => ?_) (t.le_backlog i reads)
      obtain ⟨g, q, e⟩ := (t.mem_lags i l).1 hl
      rw [positions] at e
      split at e
      · rcases e with e | ⟨e, -⟩
        · have := congrArg (Option.map Cursor.lag) e
          simp only [Position.ended, Option.map_some, Option.some.injEq] at this
          omega
        · cases e
      · rename_i h
        obtain ⟨c1, c2⟩ := clear g q fun k => h (by cases k; exact ⟨rfl, rfl⟩)
        rcases e with e | ⟨e, -⟩
        · exact absurd (Position.readsAt_onAir e) c1
        · exact absurd e c2
    refine ⟨t.sources, congrArg Host.Outcome.next (State.eq_setPos frame positions fun q => ?_), ?_, others⟩
    · rw [ports, List.foldl_cons, List.foldl_nil, slot]
      exact ControlPort.told_zero _
    · rw [if_neg (List.ne_nil_of_mem reads), backlog] at here
      refine here.trans ?_
      have last : ((s.src i).received k).ring.drop (((s.src i).received k).ring.length - 1) = [k] := by
        unfold Source.received
        dsimp only
        rw [List.length_append, List.length_singleton, Nat.add_sub_cancel, List.drop_left]
      rw [last]
  · have stored := State.takeByte_stored synced full whole low enabled comp least
    have meets : ∀ x : Position, x.slot.target = some i → (x.finds i ⟨c, s.clock.tick, entry, disc, id, count, clock, payload⟩ = false ↔
        entry = false ∨ c ≠ 0 ∨ tget x.ids 0 = none) := fun x hx => Position.finds_iff hx
    rw [exec_packetArrival, s.act_awake _ awake, stored]
    generalize (⟨c, s.clock.tick, entry, disc, id, count, clock, payload⟩ : Packet) = k at meets
    refine ⟨⟨_, rfl, fun f p target away passes => ?_⟩, fun quiet seeks => ?_, ⟨_, rfl, s.arrived_frame i k, fun f p target away finds => ?_⟩⟩
    · rw [State.arrived_pos]
      exact Position.afterStore_passed away ((meets _ target).2 passes) _
    · have unfound : ∀ f p, (s.pos f p).finds i k = false := fun f p => by
        by_cases target : (s.pos f p).slot.target = some i
        · exact (meets _ target).2 ((quiet f p).2 target)
        · exact not_finds_of_clear target k
      obtain ⟨f, p, target⟩ := seeks
      rw [s.arrived_unread i k (fun f p => (quiet f p).1) unfound, if_neg (List.ne_nil_of_mem ((s.mem_lags i 0).2 ⟨f, p, .inr ⟨target, rfl⟩⟩))]
    · rw [State.arrived_pos]
      refine Position.afterStore_found away (Bool.eq_true_of_not_eq_false fun e => finds ((meets _ target).1 e)) _

/-! ### Cursors that read the ring -/

/-- An on-air cursor that a store does not push (R90 step 5, R92). -/
theorem Position.afterStore_stays {x : Position} {i : SrcNo} {lag : Nat} (reads : x.onAir = some ⟨i, lag⟩) (target : x.slot.target ≠ some i)
    {ring : List Packet} (stays : ring.length < 512 ∨ lag < ring.length) (k : Packet) :
    x.afterStore i ring k = { x with onAir := some ⟨i, if lag = 0 ∧ x.carries k.comp = false then 0 else lag + 1⟩ } := by
  have room : x.afterRoom i ring = x := by
    unfold Position.afterRoom Position.afterPush
    rw [Position.isPushed_eq, reads]
    rcases stays with h | h
    · exact if_pos h
    · have : ¬(decide (i = i ∧ ring.length ≤ lag) = true) := by simpa using h
      split
      · rfl
      · exact if_neg this
  unfold Position.afterStore
  rw [not_finds_of_clear target, if_neg (by decide)]
  unfold Position.afterWrite
  rw [room]
  unfold Position.offered
  rw [reads]
  dsimp only
  rw [if_pos rfl]
  by_cases h : lag = 0 ∧ x.carries k.comp = false
  · rw [if_pos (by simpa using h), if_pos h, ← h.1, ← reads]
  · rw [if_neg (by simpa using h), if_neg h]

/-- An on-air cursor at the oldest packet of a full ring (R94). -/
theorem Position.afterStore_pushed {x : Position} {i : SrcNo} {lag : Nat} (reads : x.onAir = some ⟨i, lag⟩) (target : x.slot.target ≠ some i)
    {ring : List Packet} (full : ring.length = 512) (oldest : lag = 512) (k : Packet) :
    let next := ((ring.drop 1).dropWhile fun k => !x.carries k.comp).length
    x.afterStore i ring k = { x with
      onAir := some ⟨i, if next = 0 ∧ x.carries k.comp = false then 0 else next + 1⟩, overruns := min (x.overruns + 1) 65535 } := by
  intro next
  have room : x.afterRoom i ring = { x with onAir := some ⟨i, next⟩, overruns := min (x.overruns + 1) 65535 } := by
    have pushed : x.isPushed i ring.length = true := by
      rw [Position.isPushed_eq, reads]
      exact decide_eq_true ⟨rfl, by dsimp only; omega⟩
    unfold Position.afterRoom Position.afterPush
    rw [if_neg (show ¬ring.length < Config.ringPlaces by rw [full]; decide), if_pos pushed]
    unfold Position.pushed passOver unread
    rw [reads, full]
    rfl
  unfold Position.afterStore
  rw [not_finds_of_clear target, if_neg (by decide)]
  unfold Position.afterWrite
  rw [room]
  unfold Position.offered
  dsimp only
  rw [if_pos rfl]
  by_cases h : next = 0 ∧ x.carries k.comp = false
  · rw [if_pos h, h.1]
    refine if_pos ⟨rfl, ?_⟩
    rw [Bool.not_eq_true']
    exact h.2
  · rw [if_neg h]
    refine if_neg fun e => h ⟨e.1, ?_⟩
    have := e.2
    rw [Bool.not_eq_true'] at this
    exact this

/-- Settles O25: each cursor by where it stands, and the rest by `State.arrived_frame`. -/
theorem cursorsMeetArrival : Obligations.CursorsMeetArrival := by
  unfold Obligations.CursorsMeetArrival
  refine ⟨fun s i b id entry disc count clock payload c f p lag awake synced full whole low enabled comp least reads target => ?_,
    fun s i b id entry disc count clock payload c awake synced full whole low enabled comp least => ?_⟩
  · have stored := State.takeByte_stored synced full whole low enabled comp least
    rw [exec_packetArrival, s.act_awake _ awake, stored]
    have stays := fun {ring} h => Position.afterStore_stays (ring := ring) reads target h ⟨c, s.clock.tick, entry, disc, id, count, clock, payload⟩
    have pushed := fun h h' => Position.afterStore_pushed (ring := (s.src i).ring) reads target h h' ⟨c, s.clock.tick, entry, disc, id, count, clock, payload⟩
    dsimp only at stays pushed
    have position := s.arrived_pos i ⟨c, s.clock.tick, entry, disc, id, count, clock, payload⟩ f p
    obtain ⟨here, -, -, ports, -⟩ := s.arrived_frame i ⟨c, s.clock.tick, entry, disc, id, count, clock, payload⟩
    generalize (s.matched i ⟨c, s.clock.tick, entry, disc, id, count, clock, payload⟩).store i _ = t at *
    have overrun : (s.src i).ring.length = 512 → lag = 512 → ∀ q, (s.port q).authority.feedMap.getLsbD f = true →
        (t.port q).notices &&& 0x200 ≠ 0 := fun h h' q held => by
      have mem : (f, p) ∈ s.pushedAt i := by
        unfold State.pushedAt
        rw [if_neg (by omega), List.mem_filter]
        refine ⟨mem_allPositions f p, ?_⟩
        rw [reads]
        exact decide_eq_true ⟨rfl, by dsimp only; omega⟩
      rw [ports, if_pos (List.any_eq_true.2 ⟨(f, p), mem, held⟩)]
      intro zero
      have bit := congrArg (·.getLsbD 9) zero
      simp at bit
    refine ⟨t, rfl, fun h => position.trans (stays (.inl h)), fun h h' all => ⟨?_, overrun h h'⟩, fun h h' => ⟨position.trans (pushed h h'), overrun h h'⟩,
      fun h h' => position.trans (stays (.inr (by omega))), ?_⟩
    · have next : (((s.src i).ring.drop 1).dropWhile fun x => !(s.pos f p).carries x.comp).length = 511 := by
        have none' : ∀ l : List Packet, l.dropWhile (fun x => !(s.pos f p).carries x.comp) = l := fun l => by
          cases l with
          | nil => rfl
          | cons x l => rw [List.dropWhile_cons_of_neg (by simp [all])]
        rw [none', List.length_drop, h]
      have moved := position.trans (pushed h h')
      rw [next, if_neg (by simp)] at moved
      rw [moved, show (511 + 1 : Nat) = lag from h'.symm, ← reads]
    · rw [here]
      rfl
  · rw [exec_packetArrival, s.act_awake _ awake, State.takeByte_stored synced full whole low enabled comp least]
    exact ⟨_, rfl, s.arrived_frame i _⟩

end Sys2Proof.Machine
end

section
/-! SUPPORT. The control ports: the reply list, the receiver, the byte gap and the speed change (R147 to R152). -/

namespace Sys2Proof.Machine

/-! ### The reply list -/

/-- A frame that joins a list that is not empty (R151). -/
theorem acceptFrame_of_busy (s : State) (p : PortNo) (q : Frame) (busy : (s.port p).replies ≠ []) : s.acceptFrame p q =
    s.setPort p (if ((s.port p).replies.filter Item.isWaiting).length < 4 then { s.port p with replies := (s.port p).replies ++ [.waiting q] }
      else if ((s.port p).replies.filter Item.isBusy).length < 4 then
        { s.port p with replies := (s.port p).replies ++ [.busyOwed q.sequence q.code] }
      else { s.port p with rx := .waiting, badFrames := min ((s.port p).badFrames + 1) 65535 }) := by
  have places : Config.replyPlaces = 4 := rfl
  unfold State.acceptFrame
  dsimp only
  rw [places]
  split
  · exact if_neg fun h => busy (List.isEmpty_iff.1 h)
  · split <;> rfl

/-- A frame on an idle port, and the same frame come to the head of a list, make the same answer (R152). -/
theorem answers_execute (p : PortNo) (code : Byte) (body : List Byte) : Answers p (execute p code body) := by
  unfold execute
  cases reqOf code with
  | none => exact answers_refuse p _
  | some r =>
    exact answers_ite p (fun s => s.loader.state = .loading ∧ r ≠ .readPort) _ _ (fun _ _ => Iff.rfl) (answers_refuse p _)
      (answers_ite p (fun _ => body.length ≠ reqLength r) _ _ (fun _ _ => Iff.rfl) (answers_refuse p _) (answers_perform p body r))

theorem exec_frame {s : State} (awake : s.awake) {p : PortNo} {c : Instr} {sequence code : Byte} {body : List Byte}
    (h : c = .unknownRequest p sequence code body ∨ ∃ r, c = .ofRequest r p sequence body ∧ code = reqCode r) :
    exec c s = .next (s.acceptFrame p ⟨sequence, code, body⟩) := by
  rcases h with rfl | ⟨r, rfl, rfl⟩
  · rw [exec_unknownRequest, s.act_awake _ awake]
  · exact exec_ofRequest_awake r p sequence body s awake

/-- Settles O29: a frame on a list, and the head that a reply leaves. -/
theorem replyListServedInOrder : Obligations.ReplyListServedInOrder := by
  unfold Obligations.ReplyListServedInOrder
  intro s p list awake replies
  have sent : exec (.replySent p) s = .next (s.replyDone p) := by rw [exec_replySent, s.act_awake _ awake]
  refine ⟨fun c sequence code body h busy => ?_, fun empty => ⟨?_, ?_⟩, fun reply rest h => ?_, fun sequence code rest h => ?_,
    fun first rest h next => ?_, fun first sequence code body rest h => ?_⟩
  · rw [exec_frame awake h, acceptFrame_of_busy s p _ (by rw [replies]; exact busy), replies]
  · unfold ControlPort.sending
    rw [replies, empty]
  · rw [sent]
    unfold State.replyDone
    rw [replies, empty]
  · unfold ControlPort.sending
    rw [replies, h]
  · unfold ControlPort.sending
    rw [replies, h]
    exact ⟨busyCode code, rfl, fun low => if_pos low⟩
  · rw [sent]
    unfold State.replyDone
    rw [replies, h]
    dsimp only
    unfold State.handleHead
    rw [State.port_setReplies, if_pos rfl]
    dsimp only
    match rest, next with
    | [], _ => rfl
    | .waiting q :: _, next => exact absurd rfl (next q)
    | .busyOwed _ _ :: _, _ => rfl
    | .answering _ :: _, _ => rfl
  · intro alone u
    refine ⟨?_, fun c hc awake' => exec_frame awake' hc⟩
    have handled : u = _ := acceptFrame_of_idle alone p ⟨sequence, code, body⟩ (by
      change ((s.setPort p _).port p).replies = []
      rw [State.port_setPort, if_pos rfl])
    have put : ∀ l, alone.setReplies p l = s.setReplies p l := fun l => State.setReplies_setReplies ..
    rw [put, answers_execute p code body s] at handled
    dsimp only at handled
    rw [State.setReplies_setReplies] at handled
    rw [sent, handled]
    unfold State.replyDone
    rw [replies, h]
    dsimp only
    unfold State.handleHead
    rw [State.port_setReplies, if_pos rfl]
    dsimp only
    rw [answers_execute p code body s]
    dsimp only
    rw [State.setReplies_setReplies, State.port_setReplies, if_pos rfl]
    unfold State.setReplies
    rw [State.setPort_setPort]
    rfl

/-! ### The receiver -/

theorem natAt_append_left {a b : List Byte} {k n : Nat} (h : k + n ≤ a.length) : natAt (a ++ b) k n = natAt a k n := by
  unfold natAt
  rw [List.drop_append_of_le_length (by omega), List.take_append_of_le_length (by rw [List.length_drop]; omega)]

/-- A receive error (R149). -/
theorem State.receiveError_eq (s : State) (p : PortNo) :
    s.receiveError p = s.setPort p { s.port p with rx := .waiting, badFrames := min ((s.port p).badFrames + 1) 65535 } := rfl

section
variable {s : State} {p : PortNo}

theorem State.receive_waiting (h : (s.port p).rx = .waiting) (b : Byte) (framing : Bool) : s.receive p b framing =
    if b = 0xC3 ∧ framing = false then s.setPort p { s.port p with rx := .receiving [] s.clock.tick } else s := by
  unfold State.receive
  dsimp only
  rw [h]

variable {bytes : List Byte} {since : Tick} (h : (s.port p).rx = .receiving bytes since) (b : Byte)
include h

theorem State.receive_framing : s.receive p b true = s.receiveError p := by
  unfold State.receive
  dsimp only
  rw [h]
  exact if_pos rfl

theorem State.receive_byte : s.receive p b false =
    if (bytes ++ [b]).length < 2 then s.setPort p { s.port p with rx := .receiving (bytes ++ [b]) s.clock.tick }
    else if natAt (bytes ++ [b]) 0 2 < 2 ∨ 242 < natAt (bytes ++ [b]) 0 2 then s.receiveError p
    else if (bytes ++ [b]).length < natAt (bytes ++ [b]) 0 2 + 4 then
      s.setPort p { s.port p with rx := .receiving (bytes ++ [b]) s.clock.tick }
    else s.frameWhole p (bytes ++ [b]) := by
  unfold State.receive
  dsimp only
  rw [h]
  rfl

/-- A byte before the last of a frame is collected (R149). -/
theorem State.receive_collected (short : bytes = [] ∨ 2 ≤ natAt (bytes ++ [b]) 0 2 ∧ natAt (bytes ++ [b]) 0 2 ≤ 242 ∧
    bytes.length < natAt (bytes ++ [b]) 0 2 + 3) :
    s.receive p b false = s.setPort p { s.port p with rx := .receiving (bytes ++ [b]) s.clock.tick } := by
  rw [State.receive_byte h]
  rcases short with rfl | ⟨low, high, short⟩
  · rfl
  · split
    · rfl
    · rw [if_neg (by omega), if_pos (by rw [List.length_append, List.length_singleton]; omega)]

/-- The last byte of a frame (R149). -/
theorem State.receive_last {fed : List Byte} {high : Byte} (split' : bytes = fed ++ [high]) (least : 4 ≤ fed.length) (most : fed.length ≤ 244)
    (len : natAt fed 0 2 + 2 = fed.length) : s.receive p b false =
      if (crc16 fed).toNat = high.toNat * 256 + b.toNat then
        (s.setPort p { s.port p with rx := .waiting }).acceptFrame p ⟨byteAt fed 2, byteAt fed 3, fed.drop 4⟩
      else s.receiveError p := by
  have whole : bytes ++ [b] = fed ++ [high, b] := by rw [split', List.append_assoc]; rfl
  have length : (fed ++ [high, b]).length = fed.length + 2 := by rw [List.length_append]; rfl
  have check : natAt (fed ++ [high, b]) fed.length 2 = high.toNat * 256 + b.toNat := by
    rw [natAt_two_byteAt (by omega), byteAt_eq_get (by omega), byteAt_eq_get (by omega),
      List.getElem_append_right le_rfl, List.getElem_append_right (Nat.le_succ _)]
    simp
  rw [State.receive_byte h, whole, length, natAt_append_left (by omega), if_neg (by omega), if_neg (by omega), if_neg (by omega)]
  unfold State.frameWhole
  dsimp only
  rw [natAt_append_left (by omega), len, List.take_left, check, byteAt_append_left (by omega), byteAt_append_left (by omega)]

end

/-- Settles O31: each place of a byte in a frame. -/
theorem receiverJudgesBytes : Obligations.ReceiverJudgesBytes := by
  unfold Obligations.ReceiverJudgesBytes
  refine ⟨fun s p b => rfl, fun s p b awake => ⟨fun waiting framing => ?_, fun bytes since rx => ?_⟩⟩
  · rw [exec_controlPortByte, s.act_awake _ awake, State.receive_waiting waiting]
  have byte : ∀ framing, exec (.controlPortByte p b framing) s = .next (s.receive p b framing) := fun framing => by
    rw [exec_controlPortByte, s.act_awake _ awake]
  have frame : exec (.controlFrame p b) s = .next (s.receive p b false) := byte false
  refine ⟨?_, fun short => ?_, fun high one out => ?_, fun fed high split' least most len wrong => ?_,
    fun fed high split' least most len right busy => ?_⟩
  · rw [byte, State.receive_framing rx, State.receiveError_eq]
  · rw [byte, State.receive_collected rx]
    rcases short with none' | ⟨high, rfl, low, most⟩ | ⟨two, low, most, short⟩
    · exact .inl none'
    · have len : natAt ([high] ++ [b]) 0 2 = high.toNat * 256 + b.toNat := natAt_two _ _ _ _ rfl
      rw [len, List.length_singleton]
      exact .inr ⟨low, most, by omega⟩
    · rw [natAt_append_left (by omega)]
      exact .inr ⟨low, most, short⟩
  · subst one
    have len : natAt ([high] ++ [b]) 0 2 = high.toNat * 256 + b.toNat := natAt_two _ _ _ _ rfl
    rw [byte, State.receive_byte rx, len, if_neg (by simp), if_pos out, State.receiveError_eq]
  · rw [frame, State.receive_last rx b split' least most len, if_neg wrong, State.receiveError_eq]
  · intro free
    rw [frame, State.receive_last rx b split' least most len, if_pos right,
      acceptFrame_of_busy _ _ _ (by rw [State.port_setPort, if_pos rfl]; exact busy), State.port_setPort, if_pos rfl, State.setPort_setPort]
    congr 2
    change ite (((s.port p).replies.filter Item.isWaiting).length < 4) _ _ = _
    by_cases first : ((s.port p).replies.filter Item.isWaiting).length < 4
    · have f1 : free Item.isWaiting = true := decide_eq_true first
      rw [if_pos first, f1]
      rfl
    · have f1 : free Item.isWaiting = false := decide_eq_false first
      rw [if_neg first, f1]
      dsimp only
      by_cases second : ((s.port p).replies.filter Item.isBusy).length < 4
      · have f2 : free Item.isBusy = true := decide_eq_true second
        rw [if_pos second, f2]
        rfl
      · have f2 : free Item.isBusy = false := decide_eq_false second
        rw [if_neg second, f2]
        simp

/-! ### A frame byte by byte -/

/-- A quiet port of an awake state has no speed to take (R147). -/
theorem State.awake.unpending {s : State} (h : s.awake) (p : PortNo) : ((s.port p).pendingSpeed.isSome && (s.port p).quiet) = false := by
  have none' := List.all_eq_true.1 h.2 (.lineSpeed p) (by simp [allPieces, mem_allPorts])
  unfold State.dueIn at none'
  dsimp only at none'
  refine Bool.eq_false_of_not_eq_true fun k => ?_
  rw [if_pos k] at none'
  cases none'

/-- A port of an awake state made RECEIVING. -/
theorem State.awake.receiving {s : State} (h : s.awake) (p : PortNo) {x : ControlPort} (rx : x.rx ≠ .waiting) : (s.setPort p x).awake :=
  (State.awake_setPort s p x (by rw [h.unpending, ControlPort.quiet_of_rx rx, Bool.and_false])).2 h

section
variable {s : State} {p : PortNo} (awake : s.awake) {w : List Byte} {len : Nat} (head : natAt w 0 2 = len) (low : 2 ≤ len) (most : len ≤ 242)
  (length : w.length = len + 3)
include awake head low most length

/-- The bytes before the last of a frame are collected one by one (R149). -/
theorem execAll_receiving (k : Nat) (within : k ≤ w.length) :
    execAll ((w.take k).map (Instr.controlPortByte p · false)) (s.setPort p { s.port p with rx := .receiving [] s.clock.tick }) =
      .next (s.setPort p { s.port p with rx := .receiving (w.take k) s.clock.tick }) := by
  induction k with
  | zero => rfl
  | succ k ih =>
    have step : w.take (k + 1) = w.take k ++ [w[k]] := (List.take_concat_get' w k (by omega)).symm
    rw [step, List.map_append, execAll_append _ _ (ih (by omega)), List.map_singleton]
    unfold execAll
    rw [exec_controlPortByte, State.act_awake _ _ (awake.receiving p (by dsimp only; exact fun e => by cases e))]
    dsimp only
    rw [State.receive_collected (bytes := w.take k) (since := s.clock.tick) (by rw [State.port_setPort, if_pos rfl]), State.port_setPort, if_pos rfl,
      State.setPort_setPort]
    · rfl
    · have taken : (w.take k).length = k := List.length_take_of_le (by omega)
      rw [← step]
      cases k with
      | zero => exact .inl rfl
      | succ k =>
        have same : natAt (w.take (k + 1 + 1)) 0 2 = len := by
          rw [← head]
          conv_rhs => rw [← List.take_append_drop (k + 1 + 1) w]
          rw [natAt_append_left (by rw [List.length_take_of_le (by omega)]; omega)]
        rw [same, taken]
        exact .inr ⟨low, most, by omega⟩

end

/-- What the bytes of a frame hold (R148). -/
theorem frame_fields (sequence code : Byte) (body : List Byte) (short : body.length ≤ 240) :
    let fed := natBytes 2 (body.length + 2) ++ [sequence, code] ++ body
    natAt fed 0 2 = body.length + 2 ∧ fed.length = body.length + 4 ∧ byteAt fed 2 = sequence ∧ byteAt fed 3 = code ∧ fed.drop 4 = body := by
  intro fed
  have length : fed.length = body.length + 4 := by
    change (natBytes 2 (body.length + 2) ++ [sequence, code] ++ body).length = _
    rw [List.length_append, List.length_append, natBytes_length, List.length_cons, List.length_singleton]
    omega
  have head : natAt fed 0 2 = body.length + 2 := by
    have read := natAt_natBytes_two [] ([sequence, code] ++ body) (n := body.length + 2) (by omega)
    rw [List.nil_append, ← List.append_assoc] at read
    exact read
  exact ⟨head, length, rfl, rfl, rfl⟩

/-- A whole frame, and what it does: the frame is accepted (R149). -/
theorem execAll_frame {s : State} (awake : s.awake) {p : PortNo} (waiting : (s.port p).rx = .waiting) {sequence code : Byte} {body : List Byte}
    (short : body.length ≤ 240) {high low : Byte}
    (check : (crc16 (natBytes 2 (body.length + 2) ++ [sequence, code] ++ body)).toNat = high.toNat * 256 + low.toNat) {last : Instr}
    (takes : ∀ u : State, exec last u = exec (.controlPortByte p low false) u) :
    execAll ((0xC3 :: (natBytes 2 (body.length + 2) ++ [sequence, code] ++ body ++ [high])).map (Instr.controlPortByte p · false) ++ [last]) s =
      .next (s.acceptFrame p ⟨sequence, code, body⟩) := by
  obtain ⟨head, length, second, third, rest⟩ := frame_fields sequence code body short
  generalize natBytes 2 (body.length + 2) ++ [sequence, code] ++ body = fed at *
  have first : exec (.controlPortByte p 0xC3 false) s = .next (s.setPort p { s.port p with rx := .receiving [] s.clock.tick }) := by
    rw [exec_controlPortByte, s.act_awake _ awake, State.receive_waiting waiting, if_pos ⟨rfl, rfl⟩]
  have length' : (fed ++ [high]).length = body.length + 2 + 3 := by rw [List.length_append, length, List.length_singleton]
  have collected := execAll_receiving awake (p := p) (w := fed ++ [high]) (len := body.length + 2) (by rw [natAt_append_left (by omega), head])
    (by omega) (by omega) length' (fed ++ [high]).length le_rfl
  rw [List.take_length] at collected
  rw [List.map_cons, List.cons_append, execAll_cons first, execAll_append _ _ collected]
  unfold execAll
  rw [takes, exec_controlPortByte, State.act_awake _ _ (awake.receiving p (by dsimp only; exact fun e => by cases e))]
  dsimp only
  rw [State.receive_last (bytes := fed ++ [high]) (since := s.clock.tick) (by rw [State.port_setPort, if_pos rfl]) low rfl (by omega) (by omega)
    (by omega), if_pos check, State.port_setPort, if_pos rfl, State.setPort_setPort, second, third, rest]
  have same : s.setPort p { s.port p with rx := .waiting } = s := by
    rw [← waiting]
    exact s.setPort_port p
  dsimp only
  rw [same]
  rfl

/-- Settles O30: the bytes collected, and the last one judged by a check that is right. -/
theorem frameBytesAreTheRequest : Obligations.FrameBytesAreTheRequest := by
  unfold Obligations.FrameBytesAreTheRequest
  refine ⟨by decide +kernel, fun s p sequence code body bytes last awake waiting short whole => ?_⟩
  intro given
  have check := toNat_natBytes_two (crc16 (natBytes 2 (body.length + 2) ++ [sequence, code] ++ body)).isLt
  have parts : frameBytes sequence code body = 0xC3 :: (natBytes 2 (body.length + 2) ++ [sequence, code] ++ body ++
      [BitVec.ofNat 8 ((crc16 (natBytes 2 (body.length + 2) ++ [sequence, code] ++ body)).toNat / 256)]) ++
      [BitVec.ofNat 8 (crc16 (natBytes 2 (body.length + 2) ++ [sequence, code] ++ body)).toNat] := by
    unfold frameBytes
    dsimp only
    rw [natBytes_two (crc16 _).toNat]
    simp only [List.append_assoc, List.cons_append, List.nil_append]
  obtain ⟨front, back⟩ := List.append_inj' (whole.symm.trans parts) rfl
  obtain rfl := List.singleton_inj.1 back
  have accepted := fun {last} takes => execAll_frame awake waiting short check.symm (last := last) takes
  rw [← front] at accepted
  have byte := accepted fun _ => rfl
  refine ⟨byte.trans (exec_frame awake (.inl rfl)).symm, (accepted (last := .controlFrame p _) fun _ => rfl).trans (exec_frame awake (.inl rfl)).symm, fun r hr => ?_⟩
  exact byte.trans (exec_frame awake (.inr ⟨r, rfl, hr⟩)).symm

/-! ### The timers of a port -/

theorem State.dueIn_byteGap {s : State} {p : PortNo} {bytes : List Byte} {since : Tick} (rx : (s.port p).rx = .receiving bytes since) :
    s.dueIn (.byteGap p) = some (since + BitVec.ofNat 40 (Config.byteGapTicks + 1) - s.clock.tick).toNat := by
  unfold State.dueIn
  dsimp only
  rw [rx]

/-- A byte gap that expires once a number of ticks has passed. -/
theorem State.gapExpired_advance {s : State} {p : PortNo} {bytes : List Byte} {since : Tick} (rx : (s.port p).rx = .receiving bytes since)
    (d : Nat) : (s.advance d).gapExpired p =
      { s.setPort p { s.port p with rx := .waiting, badFrames := min ((s.port p).badFrames + 1) 65535 } with
        clock := { s.clock with
          tick := s.clock.tick + BitVec.ofNat 40 d
          timer := (s.advance d).clock.timer, atUnderflow := (s.advance d).clock.atUnderflow } } := by
  have busy : ((s.advance d).port p).rx ≠ .waiting := by
    rw [State.advance_port, rx]
    exact fun e => by cases e
  unfold State.gapExpired
  rw [if_neg busy, State.receiveError_eq]
  rfl

/-- Settles O32: the byte gap's own tick, and the speed that a quiet port takes. -/
theorem portTimersExpire : Obligations.PortTimersExpire := by
  unfold Obligations.PortTimersExpire
  refine fun s p held => ⟨fun calm bytes since rx first => ?_, fun speed pending waiting empty => ?_⟩
  · have gap : BitVec.ofNat 40 (Config.byteGapTicks + 1) = (1350001 : Tick) := by decide
    have due := State.dueIn_byteGap rx
    rw [gap] at due
    rw [exec_byteGapExpiry, s.act_awake _ ⟨held, calm⟩, State.runTimed_at _ due first, State.takeTimed, State.gapExpired_advance rx,
      Tick.add_ofNat_sub]
  · have quiet : (s.port p).quiet = true := by
      unfold ControlPort.quiet
      rw [waiting, empty]
      rfl
    have due : s.dueIn (.lineSpeed p) = some 0 := by
      unfold State.dueIn
      dsimp only
      rw [pending, quiet]
      rfl
    rw [exec_lineSpeedChange, State.actPiece_released _ _ held, State.runTimed_now _ due, State.takeTimed]
    unfold State.changeSpeed
    dsimp only
    rw [pending, quiet]
    rfl

end Sys2Proof.Machine
end

section
/-! SUPPORT. A slot event: the stale discards at the positions of a feed, one by one, and what they come to together (09 9.6). -/

namespace Sys2Proof.Machine

/-! ### One position -/

theorem dropStale_eq (x : Position) (departure : Tick) (limit : Nat) (l : List Packet) (pass : Packet → Bool)
    (h : ∀ k, pass k = (!x.carries k.comp || k.stale departure limit)) :
    dropStale x departure limit l = (((l.takeWhile pass).filter fun k => x.carries k.comp).length, l.dropWhile pass) := by
  induction l with
  | nil => rfl
  | cons k l ih =>
    unfold dropStale
    rw [List.takeWhile_cons, List.dropWhile_cons, h k]
    cases carried : x.carries k.comp
    · simp [ih, carried]
    · cases old : k.stale departure limit
      · simp
      · simp [ih, carried]

theorem unread_of_suffix {l ring : List Packet} (h : l <:+ ring) : unread ring l.length = l := by
  obtain ⟨a, rfl⟩ := h
  unfold unread
  rw [List.length_append, Nat.add_sub_cancel, List.drop_left]

theorem State.unreadAt_suffix (s : State) (c : Cursor) : s.unreadAt c <:+ (s.src c.source).ring := List.drop_suffix _ _

theorem State.leftAt_suffix {s : State} {f : FeedNo} {q : PosNo} {c : Cursor} (h : (s.pos f q).onAir = some c) :
    s.leftAt f q <:+ (s.src c.source).ring := by
  unfold State.leftAt
  rw [h]
  exact (List.dropWhile_suffix _).trans (s.unreadAt_suffix c)

/-- What a trim frees lies before the next packet of every cursor (R91). -/
theorem State.trim_unreadAt {s : State} (x : SrcNo) {f : FeedNo} {q : PosNo} {c : Cursor} (h : (s.pos f q).onAir = some c) :
    (s.trim x).unreadAt c = s.unreadAt c := by
  have covered : c.lag ≤ s.backlog c.source := s.le_backlog _ ((s.mem_lags _ _).2 ⟨f, q, .inl h⟩)
  unfold State.unreadAt
  rw [State.trim_ring]
  split
  · rw [List.drop_drop, List.length_drop]
    congr 1
    omega
  · rfl

/-- A total raised by stale discards: it saturates where it is written at all. -/
def raisedBy (read : Bool) (n more : Nat) : Nat := if read then sat16 (n + more) else n

theorem raisedBy_raisedBy (a b : Bool) {n k m : Nat} (hb : b = false → m = 0) (ha : a = false → k = 0) :
    raisedBy b (raisedBy a n k) m = raisedBy (a || b) n (k + m) := by
  unfold raisedBy sat16
  cases a with
  | false => rw [ha rfl]; simp
  | true =>
    cases b with
    | false => rw [hb rfl]; simp
    | true => simp only [Bool.true_or, if_true]; omega

/-- The place that the stale discards leave a position at (R135). -/
def State.discardedAt (s : State) (f : FeedNo) (q : PosNo) : Position :=
  { s.pos f q with onAir := (s.pos f q).onAir.map fun c => ⟨c.source, (s.leftAt f q).length⟩ }

theorem State.discardedAt_none {s : State} {f : FeedNo} {q : PosNo} (h : (s.pos f q).onAir = none) : s.discardedAt f q = s.pos f q := by
  unfold State.discardedAt
  rw [h, Option.map_none, ← h]

theorem State.leftAt_none {s : State} {f : FeedNo} {q : PosNo} (h : (s.pos f q).onAir = none) : s.leftAt f q = [] := by
  unfold State.leftAt; rw [h]

theorem State.staleAt_none {s : State} {f : FeedNo} {q : PosNo} (h : (s.pos f q).onAir = none) : s.staleAt f q = 0 := by
  unfold State.staleAt; rw [h]

/-- The stale discards of a position, as far as they are written out (R135). -/
def State.discardedAll (s : State) (f : FeedNo) (p : PosNo) (c : Cursor) : State :=
  ((s.setPos f p (s.discardedAt f p)).setSrc c.source
    { s.src c.source with staleTotal := sat16 ((s.src c.source).staleTotal + s.staleAt f p) }).setFeed f
    { s.feed f with counts := { (s.feed f).counts with stale := sat16 ((s.feed f).counts.stale + s.staleAt f p) } }

theorem State.discardStale_eq {s : State} {f : FeedNo} {p : PosNo} {c : Cursor} (h : (s.pos f p).onAir = some c)
    (now : (s.feed f).departure = s.clock.tick) : s.discardStale f p = (s.discardedAll f p c).trim c.source := by
  have dropped := dropStale_eq (s.pos f p) (s.feed f).departure (s.staleTicks c.source) (s.unreadAt c) (s.passes f p c)
    fun k => by rw [now]; rfl
  have stale : s.staleAt f p = (((s.unreadAt c).takeWhile (s.passes f p c)).filter fun x => (s.pos f p).carries x.comp).length := by
    unfold State.staleAt; rw [h]
  have left : s.leftAt f p = (s.unreadAt c).dropWhile (s.passes f p c) := by unfold State.leftAt; rw [h]
  unfold State.discardStale
  dsimp only
  rw [h]
  dsimp only
  rw [show unread (s.src c.source).ring c.lag = s.unreadAt c from rfl, dropped, ← stale, ← left]
  unfold State.discardedAll State.discardedAt
  rw [h, Option.map_some]

theorem State.discardStale_none {s : State} {f : FeedNo} {p : PosNo} (h : (s.pos f p).onAir = none) : s.discardStale f p = s := by
  unfold State.discardStale
  dsimp only
  rw [h]

variable {s t : State} {f : FeedNo}

theorem State.discardStale_pos (now : (s.feed f).departure = s.clock.tick) (p : PosNo) (g : FeedNo) (q : PosNo) :
    (s.discardStale f p).pos g q = if g = f ∧ q = p then s.discardedAt f p else s.pos g q := by
  cases h : (s.pos f p).onAir with
  | none =>
    rw [State.discardStale_none h, State.discardedAt_none h]
    split
    · rename_i e; rw [e.1, e.2]
    · rfl
  | some c =>
    rw [State.discardStale_eq h now, State.trim_pos]
    exact (State.pos_setPos ..).trans (by congr 1; simp only [eq_comm])

theorem State.discardStale_feed (now : (s.feed f).departure = s.clock.tick) (p : PosNo) (g : FeedNo) :
    (s.discardStale f p).feed g = if g = f then
      { s.feed f with counts := { (s.feed f).counts with
        stale := raisedBy (s.pos f p).onAir.isSome (s.feed f).counts.stale (s.staleAt f p) } } else s.feed g := by
  cases h : (s.pos f p).onAir with
  | none =>
    rw [State.discardStale_none h]
    split
    · rename_i e; rw [e]; rfl
    · rfl
  | some c =>
    obtain ⟨_, e, _⟩ := trim_frame (s.discardedAll f p c) c.source
    rw [State.discardStale_eq h now, e]
    exact (State.feed_setFeed ..).trans (by simp only [eq_comm]; rfl)

theorem State.discardStale_src (now : (s.feed f).departure = s.clock.tick) (p : PosNo) (i : SrcNo) :
    (∃ n, (s.discardStale f p).src i = { s.src i with
      ring := (s.src i).ring.drop n
      staleTotal := raisedBy (decide ((s.pos f p).onAirSource = some i)) (s.src i).staleTotal (s.staleAt f p) }) ∧
    ((s.pos f p).onAirSource ≠ some i → (s.discardStale f p).src i = s.src i) := by
  cases h : (s.pos f p).onAir with
  | none =>
    rw [State.discardStale_none h]
    have unread : (s.pos f p).onAirSource = none := by rw [Position.onAirSource, h]; rfl
    exact ⟨⟨0, by rw [unread]; rfl⟩, fun _ => rfl⟩
  | some c =>
    have reads : (s.pos f p).onAirSource = some c.source := by rw [Position.onAirSource, h]; rfl
    rw [State.discardStale_eq h now, reads]
    have written : (s.discardedAll f p c).src i = if c.source = i then
        { s.src c.source with staleTotal := sat16 ((s.src c.source).staleTotal + s.staleAt f p) } else s.src i :=
      State.src_setSrc ..
    by_cases e : c.source = i
    · rw [if_pos e] at written
      subst e
      obtain ⟨_, k, freed⟩ := trim_frame (s.discardedAll f p c) c.source
      obtain ⟨n, hn⟩ := freed c.source
      refine ⟨⟨n, ?_⟩, fun ne => absurd rfl ne⟩
      rw [k]
      refine hn.trans ?_
      rw [show tget (s.discardedAll f p c).sources c.source = _ from written]
      simp [raisedBy]
    · rw [if_neg e] at written
      have kept : ((s.discardedAll f p c).trim c.source).src i = s.src i := by
        unfold State.trim
        by_cases none : (s.discardedAll f p c).lags c.source = []
        · rw [if_pos (by simp [none])]; exact written
        · rw [if_neg (by simpa using none), State.src_setSrc, if_neg e]; exact written
      refine ⟨⟨0, ?_⟩, fun _ => kept⟩
      rw [kept, show decide (some c.source = some i) = false by simpa using e]
      rfl

/-- What each cursor still has to read after the stale discards of one position. -/
theorem State.discardStale_unread (now : (s.feed f).departure = s.clock.tick) (p : PosNo) {g : FeedNo} {q : PosNo} {c : Cursor}
    (h : ((s.discardStale f p).pos g q).onAir = some c) :
    (s.discardStale f p).unreadAt c = if g = f ∧ q = p then s.leftAt f p else s.unreadAt c := by
  cases read : (s.pos f p).onAir with
  | none =>
    rw [State.discardStale_none read] at h ⊢
    by_cases same : g = f ∧ q = p
    · obtain ⟨rfl, rfl⟩ := same
      exact absurd (read.symm.trans h) (by simp)
    · rw [if_neg same]
  | some d =>
    have place := State.discardStale_pos now p g q
    rw [State.discardStale_eq read now] at h place ⊢
    rw [State.trim_unreadAt d.source (by rwa [State.trim_pos] at h)]
    have ring : ((s.discardedAll f p d).src c.source).ring = (s.src c.source).ring := by
      rw [show (s.discardedAll f p d).src c.source = _ from State.src_setSrc ..]
      split
      · rename_i e; rw [← e]
      · rfl
    have all : (s.discardedAll f p d).unreadAt c = s.unreadAt c := by unfold State.unreadAt; rw [ring]
    rw [all]
    by_cases same : g = f ∧ q = p
    · rw [if_pos same] at place ⊢
      rw [place, State.discardedAt, read, Option.map_some] at h
      obtain rfl := Option.some.inj h
      exact unread_of_suffix (ring := (s.src d.source).ring) (State.leftAt_suffix read)
    · rw [if_neg same]

/-! ### All positions -/

/-- The second state comes from the first by the stale discards of these positions of a feed. -/
structure Discarded (s : State) (f : FeedNo) (done : List PosNo) (t : State) : Prop where
  emission : OnlyEmission s t
  pos : ∀ g q, t.pos g q = if g = f ∧ q ∈ done then s.discardedAt f q else s.pos g q
  feed : ∀ g, t.feed g = if g = f then
    { s.feed f with counts := { (s.feed f).counts with
      stale := raisedBy (done.any fun q => (s.pos f q).onAir.isSome) (s.feed f).counts.stale ((done.map (s.staleAt f)).sum) } }
    else s.feed g
  src : ∀ i, ∃ n, t.src i = { s.src i with
    ring := (s.src i).ring.drop n
    staleTotal := raisedBy (done.any fun q => (s.pos f q).onAirSource = some i) (s.src i).staleTotal
      (((done.filter fun q => (s.pos f q).onAirSource = some i).map (s.staleAt f)).sum) }
  clear : ∀ i, (∀ q ∈ done, (s.pos f q).onAirSource ≠ some i) → t.src i = s.src i
  unread : ∀ g q c, (t.pos g q).onAir = some c → t.unreadAt c = if g = f ∧ q ∈ done then s.leftAt f q else s.unreadAt c

theorem Discarded.start (s : State) (f : FeedNo) : Discarded s f [] s where
  emission := .rfl' s
  pos g q := (if_neg (by simp)).symm
  feed g := by
    split
    · rename_i e; rw [e]; rfl
    · rfl
  src i := ⟨0, rfl⟩
  clear _ _ := rfl
  unread g q c _ := (if_neg (by simp)).symm

/-- The discards of a position are those of the state in which the slot event began. -/
theorem Discarded.same {done : List PosNo} (h : Discarded s f done t) {p : PosNo} (new : p ∉ done) :
    t.pos f p = s.pos f p ∧ t.leftAt f p = s.leftAt f p ∧ t.staleAt f p = s.staleAt f p ∧ t.discardedAt f p = s.discardedAt f p := by
  have place : t.pos f p = s.pos f p := by rw [h.pos, if_neg (fun k => new k.2)]
  have same : ∀ c, (s.pos f p).onAir = some c → t.unreadAt c = s.unreadAt c ∧ t.passes f p c = s.passes f p c := fun c hc => by
    refine ⟨by rw [h.unread f p c (by rw [place]; exact hc), if_neg (fun k => new k.2)], funext fun x => ?_⟩
    obtain ⟨n, table⟩ := h.src c.source
    unfold State.passes
    rw [place, table, h.emission.clock]
  have left : t.leftAt f p = s.leftAt f p := by
    unfold State.leftAt
    rw [place]
    cases hc : (s.pos f p).onAir with
    | none => rfl
    | some c => dsimp only; rw [(same c hc).1, (same c hc).2]
  refine ⟨place, left, ?_, by unfold State.discardedAt; rw [place, left]⟩
  unfold State.staleAt
  rw [place]
  cases hc : (s.pos f p).onAir with
  | none => rfl
  | some c => dsimp only; rw [(same c hc).1, (same c hc).2]

theorem Discarded.step {done : List PosNo} (now : (s.feed f).departure = s.clock.tick) (h : Discarded s f done t) {p : PosNo}
    (new : p ∉ done) : Discarded s f (done ++ [p]) (t.discardStale f p) := by
  obtain ⟨place, left, stale, moved⟩ := h.same new
  have now' : (t.feed f).departure = t.clock.tick := by rw [h.feed, if_pos rfl, h.emission.clock]; exact now
  refine ⟨h.emission.trans (discardStale_frame t f p), fun g q => ?_, fun g => ?_, fun i => ?_, fun i off => ?_, fun g q c hc => ?_⟩
  · rw [State.discardStale_pos now', moved, h.pos]
    by_cases e : q = p
    · subst e
      by_cases same : g = f
      · simp [same]
      · simp [same]
    · simp [e]
  · rw [State.discardStale_feed now', place, stale, h.feed f, if_pos rfl]
    split
    · rename_i e
      dsimp only
      rw [raisedBy_raisedBy _ _ (fun e => State.staleAt_none (by simpa using e))
        (fun e => List.sum_eq_zero fun n hn => by
          obtain ⟨q, hq, rfl⟩ := List.mem_map.1 hn
          exact State.staleAt_none (by simpa using List.any_eq_false.1 e q hq))]
      simp
    · rename_i e; rw [h.feed, if_neg e]
  · obtain ⟨n, hn⟩ := h.src i
    obtain ⟨m, hm⟩ := (State.discardStale_src now' p i).1
    refine ⟨n + m, ?_⟩
    rw [hm, place, stale, hn]
    dsimp only
    by_cases e : (s.pos f p).onAirSource = some i
    · rw [raisedBy_raisedBy _ _ (by simp [e]) (fun none => List.sum_eq_zero fun n hn => by
          obtain ⟨q, hq, rfl⟩ := List.mem_map.1 hn
          obtain ⟨hq, hi⟩ := List.mem_filter.1 hq
          exact absurd hi (List.any_eq_false.1 none q hq))]
      simp [e, List.drop_drop, List.filter_append]
    · simp [e, raisedBy, List.drop_drop, List.filter_append]
  · rw [(State.discardStale_src now' p i).2 (by rw [place]; exact off p (by simp))]
    exact h.clear i fun q hq => off q (by simp [hq])
  · rw [State.discardStale_unread now' p hc, left]
    by_cases e : q = p
    · subst e
      by_cases same : g = f
      · simp [same]
      · rw [if_neg (fun k => same k.1), if_neg (fun k => same k.1)]
        rw [State.discardStale_pos now', if_neg (fun k => same k.1)] at hc
        rw [h.unread g q c hc, if_neg (fun k => same k.1)]
    · rw [State.discardStale_pos now', if_neg (fun k => e k.2)] at hc
      rw [if_neg (fun k => e k.2), h.unread g q c hc]
      simp [e]

theorem Discarded.fold (now : (s.feed f).departure = s.clock.tick) (l : List PosNo) {done : List PosNo} (h : Discarded s f done t)
    (new : (done ++ l).Nodup) : Discarded s f (done ++ l) (l.foldl (fun s p => s.discardStale f p) t) := by
  induction l generalizing done t with
  | nil => rw [List.append_nil]; exact h
  | cons p l ih =>
    have fresh : p ∉ done := fun k => (List.disjoint_of_nodup_append new k) (by simp)
    rw [List.append_cons] at new ⊢
    exact ih (h.step now fresh) new

/-- The stale discards of a slot event (R135). -/
theorem State.discarded (now : (s.feed f).departure = s.clock.tick) :
    Discarded s f allPlaces (allPlaces.foldl (fun s p => s.discardStale f p) s) :=
  (Discarded.start s f).fold now allPlaces (by decide)

theorem Discarded.all (h : Discarded s f allPlaces t) (q : PosNo) : t.pos f q = s.discardedAt f q := by
  rw [h.pos, if_pos ⟨rfl, mem_allPlaces q⟩]

theorem Discarded.fresh (h : Discarded s f allPlaces t) (q : PosNo) : t.fresh f q = (s.leftAt f q).head? := by
  unfold State.fresh
  cases hc : (t.pos f q).onAir with
  | none =>
    rw [h.all, State.discardedAt, Option.map_eq_none_iff] at hc
    rw [State.leftAt_none hc]
    rfl
  | some c =>
    have read := h.unread f q c hc
    rw [if_pos ⟨rfl, mem_allPlaces q⟩] at read
    exact congrArg List.head? read

theorem Discarded.counted (h : Discarded s f allPlaces t) (read : ∃ p, (s.pos f p).onAir ≠ none) : StaleCounted s t f := by
  obtain ⟨p, hp⟩ := read
  refine ⟨?_, fun i q reads => ?_⟩
  · rw [h.feed, if_pos rfl]
    exact if_pos (List.any_eq_true.2 ⟨p, mem_allPlaces p, Option.isSome_iff_ne_none.2 hp⟩)
  · obtain ⟨_, e⟩ := h.src i
    rw [e]
    exact if_pos (List.any_eq_true.2 ⟨q, mem_allPlaces q, by simpa using reads⟩)

/-- With no on-air cursor in the feed nothing is discarded. -/
theorem State.discard_none (off : ∀ p, (s.pos f p).onAir = none) : allPlaces.foldl (fun s p => s.discardStale f p) s = s :=
  foldl_keeps (· = s) _ (fun t p (e : t = s) => by rw [e]; exact State.discardStale_none (off p)) allPlaces s rfl

end Sys2Proof.Machine
end

section
/-! SUPPORT. A slot event: what filling the slot writes, what fills it, and what is sent (09 9.2, 9.6 to 9.9). -/

namespace Sys2Proof.Machine

/-! ### What filling a slot may write -/

/-- A carousel entry as a slot may leave it: as it was, or no longer due. -/
def Unmade (x y : Option Table) : Prop := y = x ∨ ∃ k, x = some k ∧ y = some { k with due := false }

theorem Unmade.trans {x y z : Option Table} (a : Unmade x y) (b : Unmade y z) : Unmade x z := by
  rcases a with rfl | ⟨k, rfl, rfl⟩
  · exact b
  · rcases b with rfl | ⟨l, e, rfl⟩
    · exact .inr ⟨k, rfl, rfl⟩
    · obtain rfl := Option.some.inj e
      exact .inr ⟨k, rfl, rfl⟩

/-- A feed as the filling of a slot may leave it. -/
structure Feed.FilledTo (x y : Feed) : Prop where
  shape : ∃ sh cs p q ca ct o a b c d, y = { x with
    shares := sh, carouselShare := cs, sharePtr := p, sparePtr := q, carousel := ca, counters := ct, output := o
    counts := { x.counts with share := a, spare := b, carousel := c, null := d } }
  carousel : ∀ c, Unmade (tget x.carousel c) (tget y.carousel c)

theorem Feed.FilledTo.rfl' (x : Feed) : x.FilledTo x := ⟨⟨_, _, _, _, _, _, _, _, _, _, _, rfl⟩, fun _ => .inl rfl⟩

theorem Feed.FilledTo.trans {x y z : Feed} (a : x.FilledTo y) (b : y.FilledTo z) : x.FilledTo z := by
  refine ⟨?_, fun c => (a.carousel c).trans (b.carousel c)⟩
  obtain ⟨_, _, _, _, _, _, _, _, _, _, _, rfl⟩ := a.shape
  obtain ⟨_, _, _, _, _, _, _, _, _, _, _, rfl⟩ := b.shape
  exact ⟨_, _, _, _, _, _, _, _, _, _, _, rfl⟩

/-- What the filling of a slot of a feed may write. -/
structure Filled (f : FeedNo) (s t : State) : Prop where
  others : ∀ g, g ≠ f → t.feed g = s.feed g ∧ ∀ q, t.pos g q = s.pos g q
  feed : (s.feed f).FilledTo (t.feed f)
  pos : ∀ q, ∃ o m, t.pos f q = { s.pos f q with onAir := o, marks := m } ∧ o.map Cursor.source = (s.pos f q).onAirSource
  src : ∀ i, ∃ n, t.src i = { s.src i with ring := (s.src i).ring.drop n }
  clear : ∀ i, (∀ q, (s.pos f q).onAirSource ≠ some i) → t.src i = s.src i

theorem Filled.rfl' (f : FeedNo) (s : State) : Filled f s s :=
  ⟨fun _ _ => ⟨rfl, fun _ => rfl⟩, .rfl' _, fun _ => ⟨_, _, rfl, rfl⟩, fun _ => ⟨0, rfl⟩, fun _ _ => rfl⟩

theorem Filled.onAirSource {f : FeedNo} {s t : State} (h : Filled f s t) (q : PosNo) :
    (t.pos f q).onAirSource = (s.pos f q).onAirSource := by
  obtain ⟨o, m, e, source⟩ := h.pos q
  rw [e]
  exact source

theorem Filled.trans {f : FeedNo} {s t u : State} (a : Filled f s t) (b : Filled f t u) : Filled f s u where
  others g ne := ⟨(b.others g ne).1.trans (a.others g ne).1, fun q => ((b.others g ne).2 q).trans ((a.others g ne).2 q)⟩
  feed := a.feed.trans b.feed
  pos q := by
    obtain ⟨_, _, e, -⟩ := a.pos q
    obtain ⟨o, m, e', source⟩ := b.pos q
    exact ⟨o, m, by rw [e', e], source.trans (a.onAirSource q)⟩
  src i := by
    obtain ⟨n, e⟩ := a.src i
    obtain ⟨m, e'⟩ := b.src i
    exact ⟨n + m, by rw [e', e, List.drop_drop]⟩
  clear i off := (b.clear i fun q => by rw [a.onAirSource]; exact off q).trans (a.clear i off)

theorem Filled.setFeed {f : FeedNo} (s : State) {x : Feed} (h : (s.feed f).FilledTo x) : Filled f s (s.setFeed f x) where
  others g ne := ⟨by rw [State.feed_setFeed, if_neg (Ne.symm ne)], fun _ => rfl⟩
  feed := by rw [State.feed_setFeed, if_pos rfl]; exact h
  pos _ := ⟨_, _, rfl, rfl⟩
  src _ := ⟨0, rfl⟩
  clear _ _ := rfl

theorem Feed.sendTable_filled (x : Feed) (c : TableNo) : x.FilledTo (x.sendTable c) := by
  cases h : tget x.carousel c with
  | none =>
    have idle : x.sendTable c = x := by unfold Feed.sendTable; rw [h]
    rw [idle]
    exact .rfl' x
  | some k =>
    unfold Feed.sendTable
    rw [h]
    refine ⟨⟨_, _, _, _, _, _, _, _, _, _, _, rfl⟩, fun d => ?_⟩
    show Unmade _ (tget (tset x.carousel c _) d)
    rw [tget_tset]
    split
    · rename_i e; subst e; exact .inr ⟨k, h, rfl⟩
    · exact .inl rfl

/-- A programme packet sent, written out (R139 to R141). -/
theorem State.sendFrom_eq {s : State} {f : FeedNo} {p : PosNo} {c : Cursor} {k : Packet} {id : Nat} (read : (s.pos f p).onAir = some c)
    (fresh : s.fresh f p = some k) (carried : tget (s.pos f p).ids k.comp = some id) :
    s.sendFrom f p = ((s.setPos f p ((s.pos f p).served c (s.src c.source).ring k)).setFeed f
      ({ s.feed f with output := sentBytes (s.feed f) (s.pos f p) k id }.bump id)).trim c.source := by
  unfold State.sendFrom
  dsimp only
  rw [read, fresh]
  dsimp only
  rw [carried]

theorem State.trim_other {s : State} {x i : SrcNo} (ne : i ≠ x) : (s.trim x).src i = s.src i := by
  unfold State.trim
  by_cases none : s.lags x = []
  · rw [if_pos (by simp [none])]
  · rw [if_neg (by simpa using none), State.src_setSrc, if_neg (Ne.symm ne)]

theorem State.trim_feed (s : State) (x : SrcNo) (f : FeedNo) : (s.trim x).feed f = s.feed f := by
  obtain ⟨_, e, _⟩ := trim_frame s x
  rw [e]
  rfl

theorem State.trim_drops (s : State) (x i : SrcNo) : ∃ n, (s.trim x).src i = { s.src i with ring := (s.src i).ring.drop n } := by
  obtain ⟨_, e, freed⟩ := trim_frame s x
  obtain ⟨n, hn⟩ := freed i
  exact ⟨n, by rw [e]; exact hn⟩

theorem Filled.sendFrom (s : State) (f : FeedNo) (p : PosNo) : Filled f s (s.sendFrom f p) := by
  cases read : (s.pos f p).onAir with
  | none =>
    have idle : s.sendFrom f p = s := by unfold State.sendFrom; dsimp only; rw [read]
    rw [idle]
    exact .rfl' f s
  | some c =>
    cases fresh : s.fresh f p with
    | none =>
      have idle : s.sendFrom f p = s := by unfold State.sendFrom; dsimp only; rw [read, fresh]
      rw [idle]
      exact .rfl' f s
    | some k =>
      cases carried : tget (s.pos f p).ids k.comp with
      | none =>
        have idle : s.sendFrom f p = s := by unfold State.sendFrom; dsimp only; rw [read, fresh]; dsimp only; rw [carried]
        rw [idle]
        exact .rfl' f s
      | some id =>
        rw [State.sendFrom_eq read fresh carried]
        refine ⟨fun g ne => ⟨?_, fun q => ?_⟩, ?_, fun q => ?_, fun i => ?_, fun i off => ?_⟩
        · rw [State.trim_feed, State.feed_setFeed, if_neg (Ne.symm ne)]; rfl
        · rw [State.trim_pos]
          exact (State.pos_setPos ..).trans (if_neg fun e => ne e.1.symm)
        · rw [State.trim_feed, State.feed_setFeed, if_pos rfl]
          exact ⟨⟨_, _, _, _, _, _, _, _, _, _, _, rfl⟩, fun _ => .inl rfl⟩
        · have place : (s.setPos f p ((s.pos f p).served c (s.src c.source).ring k)).pos f q = _ := State.pos_setPos ..
          rw [State.trim_pos]
          by_cases e : p = q
          · subst e
            exact ⟨_, _, place.trans (if_pos ⟨rfl, rfl⟩), by rw [Position.onAirSource, read]; rfl⟩
          · exact ⟨_, _, place.trans (if_neg fun k => e k.2), rfl⟩
        · obtain ⟨n, e⟩ := State.trim_drops ((s.setPos f p ((s.pos f p).served c (s.src c.source).ring k)).setFeed f
            ({ s.feed f with output := sentBytes (s.feed f) (s.pos f p) k id }.bump id)) c.source i
          exact ⟨n, e⟩
        · refine State.trim_other fun e => off p ?_
          rw [Position.onAirSource, read, e]
          rfl

theorem Feed.countShare_filled (x : Feed) (p : PosNo) : x.FilledTo (x.countShare p) :=
  ⟨⟨_, _, _, _, _, _, _, _, _, _, _, rfl⟩, fun _ => .inl rfl⟩

theorem Feed.countSpare_filled (x : Feed) (p : PosNo) : x.FilledTo (x.countSpare p) :=
  ⟨⟨_, _, _, _, _, _, _, _, _, _, _, rfl⟩, fun _ => .inl rfl⟩

theorem Feed.sendNull_filled (x : Feed) : x.FilledTo x.sendNull := ⟨⟨_, _, _, _, _, _, _, _, _, _, _, rfl⟩, fun _ => .inl rfl⟩

theorem State.fillSlot_filled (s : State) (f : FeedNo) (c : Fill) : Filled f s (s.fillSlot f c) := by
  cases c with
  | table c => exact .setFeed s (Feed.sendTable_filled _ c)
  | share p => exact (Filled.setFeed s (Feed.countShare_filled _ p)).trans (.sendFrom _ f p)
  | spare p => exact (Filled.setFeed s (Feed.countSpare_filled _ p)).trans (.sendFrom _ f p)
  | null => exact .setFeed s (Feed.sendNull_filled _)

theorem Feed.FilledTo.stale {x y : Feed} (h : x.FilledTo y) : y.counts.stale = x.counts.stale := by
  obtain ⟨_, _, _, _, _, _, _, _, _, _, _, rfl⟩ := h.shape; rfl

theorem Feed.FilledTo.nextSlot_departure {x y : Feed} (h : x.FilledTo y) : y.nextSlot.departure = x.nextSlot.departure := by
  obtain ⟨_, _, _, _, _, _, _, _, _, _, _, rfl⟩ := h.shape; rfl

theorem Feed.FilledTo.nextSlot_remainder {x y : Feed} (h : x.FilledTo y) : y.nextSlot.remainder = x.nextSlot.remainder := by
  obtain ⟨_, _, _, _, _, _, _, _, _, _, _, rfl⟩ := h.shape; rfl

/-- The filling of a slot counts no stale discard. -/
theorem Filled.counted {f : FeedNo} {s t u : State} (h : StaleCounted s t f) (fill : Filled f t u) : StaleCounted s u f := by
  refine ⟨by rw [fill.feed.stale]; exact h.1, fun i q reads => ?_⟩
  obtain ⟨n, e⟩ := fill.src i
  rw [e]
  exact h.2 i q reads

/-! ### The event -/

variable {s u : State} {f : FeedNo}

theorem State.setFeed_setFeed (s : State) (f : FeedNo) (x y : Feed) : (s.setFeed f x).setFeed f y = s.setFeed f y := by
  have twice : tset (tset s.feeds f x) f y = tset s.feeds f y := tget_ext _ _ fun j => by
    simp only [tget_tset]
    split <;> rfl
  unfold State.setFeed
  rw [twice]

/-- A slot event at its tick: the discards, the slot filled, and the slot clock moved on. -/
theorem exec_slot (awake : s.awake) (running : (s.feed f).running = true) (now : (s.feed f).departure = s.clock.tick) :
    ∃ u, Discarded s f allPlaces u ∧ u = allPlaces.foldl (fun s p => s.discardStale f p) s ∧
      exec (.slotEvent f) s = .next ((u.fillSlot f (u.choose f)).setFeed f ((u.fillSlot f (u.choose f)).feed f).nextSlot) := by
  refine ⟨_, State.discarded now, rfl, ?_⟩
  have due : s.dueIn (.slot f) = some 0 := by
    unfold State.dueIn
    dsimp only
    rw [if_pos running, now, BitVec.sub_self]
    rfl
  rw [exec_slotEvent, s.act_awake _ awake, State.runTimed_now _ due]
  rfl

/-- Settles O26: the discards, the filling and the slot clock, each with what it may write. -/
theorem slotEventMovesSlotClock : Obligations.SlotEventMovesSlotClock := by
  unfold Obligations.SlotEventMovesSlotClock
  intro s f awake running now
  obtain ⟨u, stale, begun, run⟩ := exec_slot awake running now
  have fill := u.fillSlot_filled f (u.choose f)
  have frame := fillSlot_frame u f (u.choose f)
  generalize u.fillSlot f (u.choose f) = v at run fill frame
  have feed : (v.setFeed f (v.feed f).nextSlot).feed f = (v.feed f).nextSlot := by rw [State.feed_setFeed, if_pos rfl]
  have before := (stale.feed f).trans (if_pos rfl)
  refine ⟨_, run, ?_, ?_, ?_, fun c => ?_, fun g ne => ⟨?_, fun q => ?_⟩, fun q => ?_, fun i => ⟨?_, ?_, fun off => ?_⟩,
    fun read => ?_, fun off => ?_, ?_⟩
  · rw [feed, fill.feed.nextSlot_departure, before]
    show (s.feed f).departure + _ = _
    rw [now]
    rfl
  · rw [feed, fill.feed.nextSlot_remainder, before]
    rfl
  · rw [feed]
    obtain ⟨_, _, _, _, _, _, _, _, _, _, _, e⟩ := fill.feed.shape
    rw [e, before]
    rfl
  · rw [feed, Feed.nextSlot_carousel]
    have kept : Unmade (tget (s.feed f).carousel c) (tget (v.feed f).carousel c) := by
      have k := fill.feed.carousel c
      rwa [before] at k
    rcases kept with e | ⟨k, e, e'⟩
    · exact ⟨fun h => e.trans h, fun k h => .inl (e.trans h)⟩
    · refine ⟨fun h => absurd (e.symm.trans h) (by simp), fun l h => .inr ?_⟩
      obtain rfl := Option.some.inj (e.symm.trans h)
      exact e'
  · rw [State.feed_setFeed, if_neg (Ne.symm ne), (fill.others g ne).1, stale.feed, if_neg ne]
  · exact ((fill.others g ne).2 q).trans ((stale.pos g q).trans (if_neg fun k => ne k.1))
  · obtain ⟨o, m, e, source⟩ := fill.pos q
    have sought : (v.pos f q).onAirSource = (s.pos f q).onAirSource := by
      rw [fill.onAirSource, stale.all, State.discardedAt, Position.onAirSource, Option.map_map]
      rfl
    refine ⟨?_, sought⟩
    show v.pos f q = _
    rw [show (v.setFeed f (v.feed f).nextSlot).pos f q = v.pos f q from rfl, e, stale.all]
    rfl
  · obtain ⟨n, e⟩ := fill.src i
    obtain ⟨m, e'⟩ := stale.src i
    show (v.src i).ring <:+ _
    rw [e, e']
    exact (List.drop_suffix _ _).trans (List.drop_suffix _ _)
  · obtain ⟨n, e⟩ := fill.src i
    obtain ⟨m, e'⟩ := stale.src i
    show v.src i = { s.src i with ring := (v.src i).ring, staleTotal := (v.src i).staleTotal }
    rw [e, e']
  · refine (fill.clear i fun q => ?_).trans (stale.clear i fun q _ => off q)
    rw [stale.all, State.discardedAt, Position.onAirSource, Option.map_map]
    exact off q
  · refine (Filled.counted (stale.counted read) fill).imp (fun k => ?_) fun k => k
    rw [feed, Feed.nextSlot_counts]
    exact k
  · rw [feed, Feed.nextSlot_counts, fill.feed.stale, begun, State.discard_none off]
  · obtain ⟨_, _, _, e, _⟩ := stale.emission.trans frame
    rw [e]
    rfl

/-! ### What fills the slot -/

/-- The first of a rising list with a property. -/
theorem find_first {n : Nat} {test : Fin n → Bool} {c : Fin n} {l : List (Fin n)} (rising : l.Pairwise (· < ·)) (mem : c ∈ l)
    (picked : test c = true) (least : ∀ d, d < c → test d = false) : l.find? test = some c := by
  induction l with
  | nil => cases mem
  | cons a l ih =>
    obtain ⟨above, rising⟩ := List.pairwise_cons.1 rising
    rcases List.mem_cons.1 mem with rfl | mem
    · exact List.find?_cons_of_pos picked
    · rw [List.find?_cons_of_neg (by simp [least a (above c mem)])]
      exact ih rising mem

theorem Feed.dueSlot_eq {x : Feed} {c : TableNo} {k : Table} (table : tget x.carousel c = some k) (due : k.due = true)
    (least : ∀ d y, d < c → tget x.carousel d = some y → y.due = false) : x.dueSlot = some c := by
  refine find_first (by decide) (mem_allSources c) (by rw [table]; exact due) fun d below => ?_
  cases h : tget x.carousel d with
  | none => rfl
  | some y => exact least d y below h

theorem Feed.noTable {x : Feed} (h : x.carouselShare = 0 ∨ ∀ c y, tget x.carousel c = some y → y.due = false) :
    (if 1 ≤ x.carouselShare then x.dueSlot else none) = none := by
  rcases h with h | h
  · rw [if_neg (by omega)]
  · have none : x.dueSlot = none := List.find?_eq_none.2 fun c _ => by
      cases e : tget x.carousel c with
      | none => simp
      | some y => simp [h c y e]
    rw [none, ite_self]

theorem State.pick_eq {ptr p n : PosNo} {test : Nat → Bool} (place : p = ptr + 1 + n) (fresh : (u.fresh f p).isSome = true)
    (picked : test (tget (u.feed f).shares p) = true)
    (least : ∀ m, m < n → test (tget (u.feed f).shares (ptr + 1 + m)) = false ∨ u.fresh f (ptr + 1 + m) = none) :
    u.pick f ptr test = some p := by
  unfold State.pick roundRobin
  rw [List.find?_map, find_first (c := n) (by decide) (mem_allPlaces n)]
  · rw [place]; rfl
  · show (test (tget (u.feed f).shares (ptr + 1 + n)) && (u.fresh f (ptr + 1 + n)).isSome) = true
    rw [← place, picked, fresh]
    rfl
  · intro m below
    show (test (tget (u.feed f).shares (ptr + 1 + m)) && (u.fresh f (ptr + 1 + m)).isSome) = false
    rcases least m below with e | e <;> simp [e]

theorem State.pick_none {ptr : PosNo} {test : Nat → Bool}
    (off : ∀ q, test (tget (u.feed f).shares q) = false ∨ u.fresh f q = none) : u.pick f ptr test = none := by
  refine List.find?_eq_none.2 fun q _ => ?_
  rcases off q with e | e <;> simp [e]

theorem State.choose_table {c : TableNo} (share : 1 ≤ (u.feed f).carouselShare) (due : (u.feed f).dueSlot = some c) :
    u.choose f = .table c := by
  unfold State.choose
  dsimp only
  rw [if_pos share, due]

theorem State.choose_share {p : PosNo} (table : (if 1 ≤ (u.feed f).carouselShare then (u.feed f).dueSlot else none) = none)
    (share : (u.pick f (u.feed f).sharePtr fun n => decide (1 ≤ n)) = some p) : u.choose f = .share p := by
  unfold State.choose
  dsimp only
  rw [table]
  dsimp only
  rw [share]

theorem State.choose_spare {p : PosNo} (table : (if 1 ≤ (u.feed f).carouselShare then (u.feed f).dueSlot else none) = none)
    (share : (u.pick f (u.feed f).sharePtr fun n => decide (1 ≤ n)) = none)
    (spare : (u.pick f (u.feed f).sparePtr fun n => decide (n = 0)) = some p) : u.choose f = .spare p := by
  unfold State.choose
  dsimp only
  rw [table]
  dsimp only
  rw [share]
  dsimp only
  rw [spare]

theorem State.choose_null (table : (if 1 ≤ (u.feed f).carouselShare then (u.feed f).dueSlot else none) = none)
    (off : ∀ q, u.fresh f q = none) : u.choose f = .null := by
  unfold State.choose
  dsimp only
  rw [table]
  dsimp only
  rw [State.pick_none fun q => .inr (off q)]
  dsimp only
  rw [State.pick_none fun q => .inr (off q)]

theorem packetBytes_plain {id : Nat} (h : id < 8192) (count : BitVec 4) (payload : List Byte) :
    packetBytes id false false count none payload =
      [0x47, BitVec.ofNat 8 (id / 256), BitVec.ofNat 8 id, count.setWidth 8] ++ payload := by
  rw [packetBytes_eq, secondByte, Nat.mod_eq_of_lt (show id / 256 < 32 by omega)]
  simp [boolByte, nat8, afterHeader]

/-- A table sent, written out (R131, R136). -/
theorem Feed.sendTable_eq {x : Feed} {c : TableNo} {k : Table} (h : tget x.carousel c = some k) :
    x.sendTable c = { x with
      carouselShare := x.carouselShare - 1
      carousel := tset x.carousel c (some { k with due := false })
      counts := { x.counts with carousel := x.counts.carousel + 1 }
      counters := counterSet x.counters k.id (counterGet x.counters k.id + 1)
      output := packetBytes k.id false false (counterGet x.counters k.id) none k.payload } := by
  unfold Feed.sendTable
  rw [h]
  rfl

/-- Settles O27: the table or the null packet chosen after the discards. -/
theorem tableOrNullSent : Obligations.TableOrNullSent := by
  unfold Obligations.TableOrNullSent
  intro s f awake running now
  obtain ⟨u, stale, begun, run⟩ := exec_slot awake running now
  have before := (stale.feed f).trans (if_pos rfl)
  refine ⟨fun c table share held due low least => ?_, fun idle off => ?_, fun idle off read => ?_⟩
  · have chosen : u.choose f = .table c := by
      refine State.choose_table (by rw [before]; exact share) ?_
      rw [before]
      exact Feed.dueSlot_eq (x := { s.feed f with counts := _ }) held due least
    have sent := Feed.sendTable_eq (x := u.feed f) (c := c) (k := table) (by rw [before]; exact held)
    rw [chosen] at run
    have feed : ((u.fillSlot f (.table c)).setFeed f ((u.fillSlot f (.table c)).feed f).nextSlot).feed f =
        ((u.feed f).sendTable c).nextSlot := by
      rw [State.feed_setFeed, if_pos rfl, State.fillSlot, State.feed_setFeed, if_pos rfl]
    refine ⟨_, run, ?_, ?_, ?_, ?_, ?_, ?_, ?_, ?_, ?_, ?_, ?_, fun p => stale.all p, fun read => ?_⟩
    · rw [feed, Feed.nextSlot_output, sent, ← packetBytes_plain low, before]
    · rw [feed, Feed.nextSlot_carouselShare, sent, before]
    · rw [feed, Feed.nextSlot_carousel, sent, before]
    · rw [feed, Feed.nextSlot_counters, sent, before]
    · rw [feed, Feed.nextSlot_counts, sent, before]
    · rw [feed, Feed.nextSlot_counts, sent, before]
    · rw [feed, Feed.nextSlot_counts, sent, before]
    · rw [feed, Feed.nextSlot_counts, sent, before]
    · rw [feed, Feed.nextSlot_shares, sent, before]
    · rw [feed, Feed.nextSlot_sharePtr, sent, before]
    · rw [feed, Feed.nextSlot_sparePtr, sent, before]
    · refine (Filled.counted (stale.counted read) (u.fillSlot_filled f (.table c))).imp (fun k => ?_) fun k => k
      rw [State.feed_setFeed, if_pos rfl, Feed.nextSlot_counts]
      exact k
  · have same : u = s := begun.trans (State.discard_none off)
    subst same
    rw [State.choose_null (Feed.noTable idle) fun q => by rw [stale.fresh, State.leftAt_none (off q)]; rfl] at run
    refine ⟨(u.feed f).sendNull.nextSlot.departure, (u.feed f).sendNull.nextSlot.remainder, run.trans ?_⟩
    rw [State.fillSlot, State.setFeed_setFeed, State.feed_setFeed, if_pos rfl]
    rfl
  · rw [State.choose_null (by rw [before]; exact Feed.noTable (x := { s.feed f with counts := _ }) idle)
      fun q => by rw [stale.fresh, off]; rfl] at run
    refine ⟨_, run, ?_, ?_, fun p => ?_⟩
    · refine (Filled.counted (stale.counted read) (u.fillSlot_filled f .null)).imp (fun k => ?_) fun k => k
      rw [State.feed_setFeed, if_pos rfl, Feed.nextSlot_counts]
      exact k
    · rw [State.feed_setFeed, if_pos rfl, State.fillSlot, State.feed_setFeed, if_pos rfl, before]
      rfl
    · refine (stale.all p).trans ?_
      rw [State.discardedAt, off]
      rfl

/-! ### A fresh packet sent -/

theorem unread_tail {ring rest : List Packet} {k : Packet} {lag : Nat} (h : unread ring lag = k :: rest) (full : lag = (k :: rest).length) :
    unread ring (lag - 1) = rest := by
  have suffix : k :: rest <:+ ring := h ▸ List.drop_suffix _ _
  rw [full]
  exact unread_of_suffix ((List.suffix_cons k rest).trans suffix)

/-- A position's fresh packet has been sent, by a feed that stood thus when it was (R139 to R141). -/
structure FreshSent (s t : State) (f : FeedNo) (p : PosNo) (i : SrcNo) (id : Nat) (k : Packet) (rest : List Packet) (x : Feed) : Prop where
  feed : t.feed f = { x with
    output := packetBytes id k.entry (k.disc || (s.pos f p).marks.getLsbD k.comp.val) (counterGet (s.feed f).counters id)
      (k.clock.map fun c => c + (s.clock.tick - k.arrival)) k.payload
    counters := counterSet (s.feed f).counters id (counterGet (s.feed f).counters id + 1) }
  served : t.pos f p = { s.pos f p with
    onAir := some ⟨i, (rest.dropWhile fun x => !(s.pos f p).carries x.comp).length⟩
    marks := (s.pos f p).marks &&& ~~~(1#4 <<< k.comp.val) }
  others : ∀ q, q ≠ p → t.pos f q = s.discardedAt f q

/-- Whether the packet goes out within a share or in a spare slot, the feed sends it alike. -/
theorem Discarded.sends (stale : Discarded s f allPlaces u) (now : (s.feed f).departure = s.clock.tick) {p : PosNo} {i : SrcNo} {lag id : Nat}
    {k : Packet} {rest : List Packet} (read : (s.pos f p).onAir = some ⟨i, lag⟩) (left : s.leftAt f p = k :: rest)
    (carried : tget (s.pos f p).ids k.comp = some id) {x : Feed} (same : x.departure = (s.feed f).departure)
    (counters : x.counters = (s.feed f).counters) : FreshSent s ((u.setFeed f x).sendFrom f p) f p i id k rest x := by
  have place : u.pos f p = { s.pos f p with onAir := some ⟨i, (k :: rest).length⟩ } := by
    rw [stale.all, State.discardedAt, read, left]; rfl
  have unreads : Machine.unread (u.src i).ring (k :: rest).length = k :: rest := by
    have e := stale.unread f p ⟨i, (k :: rest).length⟩ (by rw [place])
    rw [if_pos ⟨rfl, mem_allPlaces p⟩, left] at e
    exact e
  have fresh : (u.setFeed f x).fresh f p = some k := by
    have e := stale.fresh p
    rw [left] at e
    exact e
  have here : ((u.setFeed f x).pos f p) = u.pos f p := rfl
  have sent := State.sendFrom_eq (s := u.setFeed f x) (c := ⟨i, (k :: rest).length⟩) (k := k) (id := id)
    (by rw [here, place]) fresh (by rw [here, place]; exact carried)
  have served : (u.pos f p).served ⟨i, (k :: rest).length⟩ (u.src i).ring k = { s.pos f p with
      onAir := some ⟨i, (rest.dropWhile fun x => !(s.pos f p).carries x.comp).length⟩
      marks := (s.pos f p).marks &&& ~~~(1#4 <<< k.comp.val) } := by
    rw [place]
    unfold Position.served passOver
    rw [unread_tail unreads rfl]
    rfl
  rw [sent, here]
  refine ⟨?_, ?_, fun q ne => ?_⟩
  · rw [State.trim_feed, State.feed_setFeed, if_pos rfl, State.feed_setFeed, if_pos rfl]
    unfold sentBytes Feed.bump Packet.residence
    rw [same, now, counters, place]
  · rw [State.trim_pos]
    exact (State.pos_setPos ..).trans ((if_pos ⟨rfl, rfl⟩).trans served)
  · rw [State.trim_pos]
    exact (State.pos_setPos ..).trans ((if_neg fun e => ne e.2.symm).trans (stale.all q))

/-- Settles O28: the position chosen within a share or in a spare slot, and its packet sent. -/
theorem freshPacketSent : Obligations.FreshPacketSent := by
  unfold Obligations.FreshPacketSent
  intro s f p i lag id k rest awake running now idle read left carried turn
  obtain ⟨u, stale, begun, run⟩ := exec_slot awake running now
  have before := (stale.feed f).trans (if_pos rfl)
  have table : (if 1 ≤ (u.feed f).carouselShare then (u.feed f).dueSlot else none) = none := by
    rw [before]; exact Feed.noTable (x := { s.feed f with counts := _ }) idle
  have shares : (u.feed f).shares = (s.feed f).shares := by rw [before]
  have sharePtr : (u.feed f).sharePtr = (s.feed f).sharePtr := by rw [before]
  have sparePtr : (u.feed f).sparePtr = (s.feed f).sparePtr := by rw [before]
  have isFresh : (u.fresh f p).isSome = true := by rw [stale.fresh, left]; rfl
  have noFresh : ∀ q, s.leftAt f q = [] → u.fresh f q = none := fun q e => by rw [stale.fresh, e]; rfl
  have attached : ∃ p, (s.pos f p).onAir ≠ none := ⟨p, by rw [read]; simp⟩
  have goes : ∀ (c : Fill) (x : Feed), u.choose f = c → u.fillSlot f c = (u.setFeed f x).sendFrom f p →
      x.departure = (s.feed f).departure → x.counters = (s.feed f).counters → ∃ v,
      exec (.slotEvent f) s = .next (v.setFeed f (v.feed f).nextSlot) ∧ StaleCounted s (v.setFeed f (v.feed f).nextSlot) f ∧ FreshSent s v f p i id k rest x := fun c x chosen fill same counters => by
    rw [chosen] at run
    refine ⟨_, run, ?_, fill ▸ stale.sends now read left carried same counters⟩
    exact (Filled.counted (stale.counted attached) (u.fillSlot_filled f c)).imp
      (fun k => by rw [State.feed_setFeed, if_pos rfl, Feed.nextSlot_counts]; exact k) fun k => k
  by_cases share : tget (s.feed f).shares p = 0
  · obtain ⟨none, n, place, first⟩ := turn.resolve_left fun h => by omega
    have chosen : u.choose f = .spare p := by
      refine State.choose_spare table (State.pick_none fun q => ?_) ?_
      · rw [shares]
        exact (none q).imp (fun e => by simp [e]) (noFresh q)
      · rw [sparePtr]
        exact State.pick_eq place isFresh (by rw [shares, share]; rfl) fun m below => .inr (noFresh _ (first m below))
    obtain ⟨v, run, counted, sent⟩ := goes _ ((u.feed f).countSpare p) chosen rfl (by rw [before]; rfl) (by rw [before]; rfl)
    have feed : (v.setFeed f (v.feed f).nextSlot).feed f = _ := (State.feed_setFeed ..).trans ((if_pos rfl).trans (congrArg Feed.nextSlot sent.feed))
    refine ⟨_, run, ?_, ?_, sent.served, sent.others, counted, ?_⟩
    · rw [feed, Feed.nextSlot_output]
    · rw [feed, Feed.nextSlot_counters]
    · rw [if_pos share, feed, Feed.nextSlot_carousel, Feed.nextSlot_carouselShare, Feed.nextSlot_counts, Feed.nextSlot_shares,
        Feed.nextSlot_sparePtr, Feed.nextSlot_sharePtr, Feed.countSpare, before]
      exact ⟨rfl, rfl, rfl, rfl, rfl, rfl, rfl, rfl, rfl⟩
  · obtain ⟨held, n, place, first⟩ := turn.resolve_right fun h => by
      rcases h.1 p with e | e
      · exact share e
      · rw [left] at e; cases e
    have chosen : u.choose f = .share p := by
      refine State.choose_share table ?_
      rw [sharePtr]
      exact State.pick_eq place isFresh (by rw [shares]; simpa using held) fun m below => by
        rw [shares]
        exact (first m below).imp (fun e => by simp [e]) (noFresh _)
    obtain ⟨v, run, counted, sent⟩ := goes _ ((u.feed f).countShare p) chosen rfl (by rw [before]; rfl) (by rw [before]; rfl)
    have feed : (v.setFeed f (v.feed f).nextSlot).feed f = _ := (State.feed_setFeed ..).trans ((if_pos rfl).trans (congrArg Feed.nextSlot sent.feed))
    refine ⟨_, run, ?_, ?_, sent.served, sent.others, counted, ?_⟩
    · rw [feed, Feed.nextSlot_output]
    · rw [feed, Feed.nextSlot_counters]
    · rw [if_neg share, feed, Feed.nextSlot_carousel, Feed.nextSlot_carouselShare, Feed.nextSlot_counts, Feed.nextSlot_shares,
        Feed.nextSlot_sparePtr, Feed.nextSlot_sharePtr, Feed.countShare, before]
      exact ⟨rfl, rfl, rfl, rfl, rfl, rfl, rfl, rfl, rfl⟩

end Sys2Proof.Machine
end

section
/-! SUPPORT. The bytes of a configuration image: a list of bytes taken apart field by field, and what the reader of each record takes
(12.4, 12.5). -/

namespace Sys2Proof.Machine

/-! ### A list of bytes taken apart -/

theorem natBytes_spelled (l : List Byte) : natBytes l.length (l.foldl (fun a x => a * 256 + x.toNat) 0) = l := by
  induction l using List.reverseRecOn with
  | nil => rfl
  | append_singleton l x ih =>
    have bound := x.isLt
    rw [List.length_append, List.length_singleton, natBytes, List.foldl_append, List.foldl_cons, List.foldl_nil,
      show ((l.foldl (fun a x => a * 256 + x.toNat) 0) * 256 + x.toNat) / 256 = l.foldl (fun a x => a * 256 + x.toNat) 0 by omega, ih]
    refine congrArg (fun y => l ++ [y]) (BitVec.eq_of_toNat_eq ?_)
    rw [BitVec.toNat_ofNat]
    omega

theorem natBytes_natAt {b : List Byte} {i k : Nat} (h : i + k ≤ b.length) : natBytes k (natAt b i k) = (b.drop i).take k := by
  have length : ((b.drop i).take k).length = k := by rw [List.length_take, List.length_drop]; omega
  have spelled := natBytes_spelled ((b.drop i).take k)
  rw [length] at spelled
  exact spelled

section
variable {b rest : List Byte} {i : Nat}

theorem drop_piece {x : List Byte} : b.drop i = x ++ rest ↔ (b.drop i).take x.length = x ∧ b.drop (i + x.length) = rest := by
  rw [← List.drop_drop]
  constructor
  · intro h
    rw [h, List.take_left, List.drop_left]
    exact ⟨rfl, rfl⟩
  · rintro ⟨first, others⟩
    rw [← List.take_append_drop x.length (b.drop i), first, others]

theorem drop_byte {x : Byte} (h : i < b.length) : b.drop i = x :: rest ↔ byteAt b i = x ∧ b.drop (i + 1) = rest := by
  rw [List.drop_eq_getElem_cons h, byteAt_eq_get h, List.cons_eq_cons]

theorem drop_number {k n : Nat} (h : i + k ≤ b.length) (small : n < 256 ^ k) :
    b.drop i = natBytes k n ++ rest ↔ natAt b i k = n ∧ b.drop (i + k) = rest := by
  rw [drop_piece, natBytes_length, ← natBytes_natAt h]
  refine and_congr_left fun _ => ⟨fun e => ?_, fun e => by rw [e]⟩
  have read := congrArg (fun l => List.foldl (fun a (x : Byte) => a * 256 + x.toNat) 0 l) e
  have bound : natAt b i k < 256 ^ k := by
    have spelled := foldl_natBytes k (natAt b i k) 0
    rw [natBytes_natAt h, Nat.zero_mul, Nat.zero_add] at spelled
    exact (show natAt b i k = _ from spelled) ▸ Nat.mod_lt _ (Nat.pow_pos (by decide))
  simp only [foldl_natBytes, Nat.zero_mul, Nat.zero_add, Nat.mod_eq_of_lt bound, Nat.mod_eq_of_lt small] at read
  exact read

theorem drop_pads {n : Nat} (h : b.length = i + n) : b.drop i = List.replicate n 0 ↔ padded b i = true := by
  unfold padded
  rw [List.eq_replicate_iff, List.length_drop, List.all_eq_true, h]
  simp

end

theorem byte_eq_iff {x : Byte} {n : Nat} (h : n < 256) : x = BitVec.ofNat 8 n ↔ x.toNat = n :=
  ⟨fun e => by rw [e, toNat_byte h], byte_of_toNat⟩

/-! ### Fields -/

theorem classOf_iff {x : Byte} {c : SelClass} : classOf x = some c ↔ x = classByte c := by
  refine ⟨fun h => ?_, fun h => h ▸ classOf_classByte c⟩
  unfold classOf at h
  split at h
  · rename_i e; cases h; exact e
  · split at h
    · rename_i e; cases h; exact e
    · split at h
      · rename_i e; cases h; exact e
      · cases h

theorem boolOf_iff {x : Byte} {c : Bool} : boolOf x = some c ↔ x = boolByte c := by
  refine ⟨fun h => ?_, fun h => h ▸ boolOf_boolByte c⟩
  unfold boolOf at h
  split at h
  · rename_i e; cases h; exact e
  · split at h
    · rename_i e; cases h; exact e
    · cases h

theorem lineModeOf_iff {x : Byte} {c : LineMode} : lineModeOf x = some c ↔ x = lineModeByte c := by
  refine ⟨fun h => ?_, fun h => by subst h; cases c <;> rfl⟩
  unfold lineModeOf at h
  split at h
  · rename_i e; cases h; exact e
  · split at h
    · rename_i e; cases h; exact e
    · cases h

theorem toFin_iff {n : Nat} {x : Byte} {f : Fin n} (small : n ≤ 256) : toFin n x.toNat = some f ↔ x = BitVec.ofNat 8 f.val := by
  rw [toFin_eq_some, byte_eq_iff (f.isLt.trans_le small)]
  exact eq_comm

theorem sourceOrNone_iff {x : Byte} {o : Option SrcNo} : sourceOrNone x = some o ↔ x = sourceByte o := by
  refine ⟨fun h => ?_, fun h => h ▸ sourceOrNone_sourceByte o⟩
  unfold sourceOrNone at h
  split at h
  · rename_i e; cases h; exact e
  · cases k : toFin 16 x.toNat with
    | none => rw [k] at h; cases h
    | some f => rw [k] at h; cases h; exact (toFin_iff (by decide)).1 k

theorem spliceOf_iff {x : Byte} {c : Splice} : spliceOf x = some c ↔ x = spliceByte c ∧ ∀ w, c = .entry w → 1 ≤ w ∧ w ≤ 50 := by
  refine ⟨fun h => ?_, fun h => h.1 ▸ spliceOf_spliceByte h.2⟩
  unfold spliceOf at h
  split at h
  · rename_i e; cases h; exact ⟨e, fun w k => by cases k⟩
  · rename_i nonzero
    split at h
    · rename_i low
      cases h
      refine ⟨byte_of_toNat rfl, fun w k => ?_⟩
      cases k
      exact ⟨Nat.pos_of_ne_zero fun z => nonzero (BitVec.eq_of_toNat_eq z), low⟩
    · cases h

theorem idOrNone_iff {low n : Nat} {o : Option Nat} : idOrNone low n = some o ↔ n = idNumber o ∧ ∀ k, o = some k → low ≤ k ∧ k ≤ 8190 :=
  ⟨idOrNone_some, fun h => h.1 ▸ idOrNone_idNumber h.2⟩

theorem idsAt_iff {low : Nat} {b : List Byte} {i : Nat} {v : Vector (Option Nat) 4} : idsAt low b i = some v ↔
    (∀ c : CompNo, natAt b (i + 2 * c.val) 2 = idNumber (tget v c)) ∧ ∀ c n, tget v c = some n → low ≤ n ∧ n ≤ 8190 :=
  ⟨fun h => ⟨fun c => (idOrNone_iff.1 (idsAt_small h c)).1, fun c => (idOrNone_iff.1 (idsAt_small h c)).2⟩,
    fun h => idsAt_some fun c => idOrNone_iff.2 ⟨h.1 c, h.2 c⟩⟩

theorem drop_ids {b rest : List Byte} {i : Nat} {v : Vector (Option Nat) 4} (h : i + 8 ≤ b.length) (small : ∀ c n, tget v c = some n → n ≤ 8190) :
    b.drop i = idsBytes v ++ rest ↔ (∀ c : CompNo, natAt b (i + 2 * c.val) 2 = idNumber (tget v c)) ∧ b.drop (i + 8) = rest := by
  have low : ∀ c, idNumber (tget v c) < 256 ^ 2 := fun c => idNumber_lt (small c)
  rw [idsBytes_eq, List.append_assoc, List.append_assoc, List.append_assoc, drop_number (by omega) (low 0), drop_number (by omega) (low 1),
    drop_number (by omega) (low 2), drop_number (by omega) (low 3), Fin.forall_fin_succ, Fin.forall_fin_succ, Fin.forall_fin_succ,
    Fin.forall_fin_one]
  simp only [and_assoc]
  rfl

theorem Plan.inRange_iff {x : Plan} : x.inRange = true ↔ (∀ k, tget x.shares k ≤ 4095) ∧ x.carousel ≤ 255 := by
  unfold Plan.inRange
  rw [Vector.toList_eight, Bool.and_eq_true, decide_eq_true_eq]
  refine and_congr_left fun _ => ?_
  simp only [List.all_cons, List.all_nil, Bool.and_true, Bool.and_eq_true, decide_eq_true_eq]
  constructor
  · rintro ⟨h0, h1, h2, h3, h4, h5, h6, h7⟩ k
    fin_cases k <;> assumption
  · intro h
    exact ⟨h 0, h 1, h 2, h 3, h 4, h 5, h 6, h 7⟩

theorem planAt_iff {b : List Byte} {i : Nat} {x : Plan} :
    planAt b i = x ↔ (∀ k : PosNo, natAt b (i + 2 * k.val) 2 = tget x.shares k) ∧ (byteAt b (i + 16)).toNat = x.carousel := by
  constructor
  · rintro rfl
    exact ⟨fun k => (planAt_share b i k).symm, rfl⟩
  · rintro ⟨shares, carousel⟩
    exact Plan.ext_shares (fun k => (planAt_share b i k).trans (shares k)) carousel

theorem drop_plan {b rest : List Byte} {i : Nat} {x : Plan} (h : i + 17 ≤ b.length) (range' : x.inRange = true) :
    b.drop i = planBytes x ++ rest ↔ planAt b i = x ∧ b.drop (i + 17) = rest := by
  obtain ⟨shares, carousel⟩ := Plan.inRange_iff.1 range'
  have low : ∀ k, tget x.shares k < 256 ^ 2 := fun k => (shares k).trans_lt (by decide)
  have spelled : planBytes x ++ rest = natBytes 2 (tget x.shares 0) ++ (natBytes 2 (tget x.shares 1) ++ (natBytes 2 (tget x.shares 2) ++
      (natBytes 2 (tget x.shares 3) ++ (natBytes 2 (tget x.shares 4) ++ (natBytes 2 (tget x.shares 5) ++ (natBytes 2 (tget x.shares 6) ++
      (natBytes 2 (tget x.shares 7) ++ nat8 x.carousel :: rest))))))) := by
    unfold planBytes
    rw [Vector.toList_eight]
    simp only [List.flatMap_cons, List.flatMap_nil, List.append_nil, List.append_assoc, List.singleton_append]
  rw [spelled, planAt_iff, drop_number (by omega) (low 0), drop_number (by omega) (low 1), drop_number (by omega) (low 2),
    drop_number (by omega) (low 3), drop_number (by omega) (low 4), drop_number (by omega) (low 5), drop_number (by omega) (low 6),
    drop_number (by omega) (low 7), drop_byte (by omega), nat8, byte_eq_iff (by omega)]
  simp only [Nat.add_assoc, Nat.reduceAdd]
  constructor
  · rintro ⟨h0, h1, h2, h3, h4, h5, h6, h7, c, r⟩
    exact ⟨⟨fun k => by fin_cases k <;> assumption, c⟩, r⟩
  · rintro ⟨⟨s, c⟩, r⟩
    exact ⟨s 0, s 1, s 2, s 3, s 4, s 5, s 6, s 7, c, r⟩

/-! ### Records -/

variable {b : List Byte}

theorem feedMap_iff {x : Byte} {m : BitVec 6} : x = m.setWidth 8 ↔ x.toNat < 64 ∧ x.setWidth 6 = m := by
  constructor
  · rintro rfl
    have bound := m.isLt
    refine ⟨by simp; omega, BitVec.eq_of_toNat_eq ?_⟩
    simp only [BitVec.toNat_setWidth]
    omega
  · rintro ⟨low, rfl⟩
    refine BitVec.eq_of_toNat_eq ?_
    simp only [BitVec.toNat_setWidth]
    omega

theorem speedByte_iff {x : Byte} {v : LineSpeed} : x = speedByte v ↔ ∃ high, boolOf x = some high ∧ (if high then .high else .low) = v := by
  constructor
  · rintro rfl
    cases v
    · exact ⟨false, rfl, rfl⟩
    · exact ⟨true, rfl, rfl⟩
  · rintro ⟨high, e, rfl⟩
    rw [boolOf_iff.1 e]
    cases high <;> rfl

/-- A ports record (R166). -/
theorem portRecordOf_iff (length : b.length = 8) (r : PortRecord) : portRecordOf b = some r ↔ ∃ quota : Byte,
    b = [classByte r.authority.classMax, r.authority.feedMap.setWidth 8, r.authority.cueMap, boolByte r.authority.configure, quota,
      speedByte r.speed, 0, 0] ∧ r.quota = (if quota = 255 then 16 else quota.toNat) ∧ r.quota ≤ 128 := by
  have apart : ∀ quota, b = [classByte r.authority.classMax, r.authority.feedMap.setWidth 8, r.authority.cueMap, boolByte r.authority.configure,
      quota, speedByte r.speed, 0, 0] ↔ byteAt b 0 = classByte r.authority.classMax ∧ byteAt b 1 = r.authority.feedMap.setWidth 8 ∧
        byteAt b 2 = r.authority.cueMap ∧ byteAt b 3 = boolByte r.authority.configure ∧ byteAt b 4 = quota ∧
        byteAt b 5 = speedByte r.speed ∧ padded b 6 = true := fun quota => by
    rw [← drop_pads (b := b) (i := 6) (n := 2) length, ← drop_byte (i := 5) (by omega), ← drop_byte (i := 4) (by omega),
      ← drop_byte (i := 3) (by omega), ← drop_byte (i := 2) (by omega), ← drop_byte (i := 1) (by omega), ← drop_byte (i := 0) (by omega)]
    rfl
  have full : byteAt b 4 = 255 ↔ (byteAt b 4).toNat = 255 := byte_eq_iff (n := 255) (by decide)
  simp only [apart]
  unfold portRecordOf
  constructor
  · intro h
    cases hc : classOf (byteAt b 0) with
    | none => rw [hc] at h; cases h
    | some cls =>
      cases hf : boolOf (byteAt b 3) with
      | none => rw [hc, hf] at h; cases h
      | some configure =>
        cases hs : boolOf (byteAt b 5) with
        | none => rw [hc, hf, hs] at h; cases h
        | some high =>
          rw [hc, hf, hs] at h
          dsimp only at h
          split at h
          · rename_i within
            obtain ⟨map, quota, pads⟩ := within
            cases h
            refine ⟨_, ⟨classOf_iff.1 hc, feedMap_iff.2 ⟨map, rfl⟩, rfl, boolOf_iff.1 hf, rfl, speedByte_iff.2 ⟨high, hs, rfl⟩, pads⟩, ?_, ?_⟩
            · simp only [full]
            · dsimp only
              split <;> omega
          · cases h
  · rintro ⟨quota, ⟨hc, map, cue, hf, rfl, speed, pads⟩, number, low⟩
    obtain ⟨high, hs, e⟩ := speedByte_iff.1 speed
    obtain ⟨small, e'⟩ := feedMap_iff.1 map
    rw [classOf_iff.2 hc, boolOf_iff.2 hf, hs]
    dsimp only
    rw [if_pos ⟨small, by rw [number] at low; split at low <;> [(rename_i k; exact .inr (full.1 k)); exact .inl low], pads⟩, e, e', cue]
    simp only [← full, ← number]

/-- A sources record (R84, R166, R173). -/
theorem sourceRecordOf_iff (length : b.length = 32) (t : SourceEntry) : sourceRecordOf b = some t ↔
    b = sourceEntryBytes t ++ List.replicate 12 0 ∧ t.inRange ∧ (present t.comps).Nodup := by
  have reads : t.inRange → (b = sourceEntryBytes t ++ List.replicate 12 0 ↔
      t.readAt b 0 ∧ (byteAt b 0).toNat < 8 ∧ (byteAt b 1).toNat < 16 ∧ padded b 20 = true) := fun range' => by
    obtain ⟨ids, -, stale, low, high, -, tol, fault, recovery⟩ := range'
    have apart : b = sourceEntryBytes t ++ List.replicate 12 0 ↔ byteAt b 0 = flagByte t.enabled t.fallbackPermit t.noticePermit false false ∧
        byteAt b 1 = checksByte t.checks ∧ (∀ c : CompNo, natAt b (2 + 2 * c.val) 2 = idNumber (tget t.comps c)) ∧
        byteAt b 10 = clockByte t.clockComp ∧ byteAt b 11 = nat8 t.staleLimit ∧ byteAt b 12 = rateModeByte t.rateMode ∧
        natAt b 13 2 = t.low ∧ natAt b 15 2 = t.high ∧ byteAt b 17 = nat8 t.tolerance ∧ byteAt b 18 = nat8 t.faultThreshold ∧
        byteAt b 19 = nat8 t.recoveryThreshold ∧ padded b 20 = true := by
      rw [← drop_pads (b := b) (i := 20) (n := 12) length, ← drop_byte (i := 19) (by omega), ← drop_byte (i := 18) (by omega),
        ← drop_byte (i := 17) (by omega), ← drop_number (i := 15) (k := 2) (by omega) (show t.high < 256 ^ 2 by omega),
        ← drop_number (i := 13) (k := 2) (by omega) (show t.low < 256 ^ 2 by omega), ← drop_byte (i := 12) (by omega),
        ← drop_byte (i := 11) (by omega), ← drop_byte (i := 10) (by omega), ← drop_ids (i := 2) (by omega) ids,
        ← drop_byte (i := 1) (by omega), ← drop_byte (i := 0) (by omega), List.drop_zero, sourceEntryBytes_eq]
      simp only [List.append_assoc, List.cons_append, List.nil_append]
    rw [apart]
    unfold SourceEntry.readAt
    rw [idsAt_iff, nat8, byte_eq_iff (by omega), nat8, byte_eq_iff (by omega), nat8, byte_eq_iff (by omega), nat8, byte_eq_iff (by omega)]
    simp only [Nat.zero_add]
    obtain ⟨f0, f1, f2⟩ := flagByte_bits t.enabled t.fallbackPermit t.noticePermit false false
    constructor
    · rintro ⟨first, checks, comps, clock, s, mode, lo, hi, tl, fa, re, pads⟩
      refine ⟨⟨⟨comps, fun c n hn => ⟨Nat.zero_le _, ids c n hn⟩⟩, mode, clock, s, lo, hi, tl, fa, re, ?_, ?_, ?_, ?_⟩, ?_, ?_, pads⟩
      · rw [first, f0]
      · rw [first, f1]
      · rw [first, f2.1]
      · rw [checks, checksOf_checksByte]
      · rw [first]; exact (flagByte_lt _ _ _ false).1
      · rw [checks]; exact (flagByte_lt _ _ _ _).2
    · rintro ⟨⟨⟨comps, -⟩, mode, clock, s, lo, hi, tl, fa, re, b0, b1, b2, checks⟩, first, second, pads⟩
      refine ⟨?_, ?_, comps, clock, s, mode, lo, hi, tl, fa, re, pads⟩
      · rw [flagByte_of_lt_eight _ first, b0, b1, b2]
      · rw [flagByte_of_lt_sixteen _ second, checks]
  unfold sourceRecordOf
  constructor
  · intro h
    cases e : sourceEntryAt b 0 with
    | none => rw [e] at h; cases h
    | some x =>
      rw [e] at h
      dsimp only at h
      split at h
      · rename_i within
        obtain ⟨first, second, distinct, pads⟩ := within
        cases h
        obtain ⟨read, range'⟩ := (sourceEntryAt_iff b 0 t).1 e
        exact ⟨(reads range').2 ⟨read, first, second, pads⟩, range', distinct⟩
      · cases h
  · rintro ⟨spelled, range', distinct⟩
    obtain ⟨read, first, second, pads⟩ := (reads range').1 spelled
    rw [(sourceEntryAt_iff b 0 t).2 ⟨read, range'⟩]
    exact if_pos ⟨first, second, distinct, pads⟩

/-- The scan-range record. -/
theorem scanRecordOf_iff (length : b.length = 4) (r : Scan) : scanRecordOf b = some r ↔
    b = [BitVec.ofNat 8 r.first.val, BitVec.ofNat 8 r.last.val, 0, 0] ∧ r.first ≤ r.last ∧ r.pointer = r.first := by
  have apart : b = [BitVec.ofNat 8 r.first.val, BitVec.ofNat 8 r.last.val, 0, 0] ↔
      byteAt b 0 = BitVec.ofNat 8 r.first.val ∧ byteAt b 1 = BitVec.ofNat 8 r.last.val ∧ padded b 2 = true := by
    rw [← drop_pads (b := b) (i := 2) (n := 2) length, ← drop_byte (i := 1) (by omega), ← drop_byte (i := 0) (by omega)]
    rfl
  rw [apart]
  unfold scanRecordOf
  constructor
  · intro h
    cases hx : toFin 16 (byteAt b 0).toNat with
    | none => rw [hx] at h; cases h
    | some x =>
      cases hy : toFin 16 (byteAt b 1).toNat with
      | none => rw [hx, hy] at h; cases h
      | some y =>
        rw [hx, hy] at h
        dsimp only at h
        split at h
        · rename_i within
          cases h
          exact ⟨⟨(toFin_iff (by decide)).1 hx, (toFin_iff (by decide)).1 hy, within.2⟩, within.1, rfl⟩
        · cases h
  · rintro ⟨⟨hx, hy, pads⟩, order, pointer⟩
    rw [(toFin_iff (by decide)).2 hx, (toFin_iff (by decide)).2 hy]
    dsimp only
    rw [if_pos ⟨order, pads⟩]
    obtain ⟨_, _, _⟩ := r
    cases pointer
    rfl

/-- A positions record. -/
theorem positionRecordOf_iff (length : b.length = 16) (r : PositionRecord) : positionRecordOf b = some r ↔
    b = idsBytes r.ids ++ [sourceByte r.base, sourceByte r.fallback, spliceByte r.policy] ++ List.replicate 5 0 ∧
    (∀ c i, tget r.ids c = some i → 1 ≤ i ∧ i ≤ 8190) ∧ ∀ w, r.policy = .entry w → 1 ≤ w ∧ w ≤ 50 := by
  have apart : (∀ c i, tget r.ids c = some i → 1 ≤ i ∧ i ≤ 8190) →
      (b = idsBytes r.ids ++ [sourceByte r.base, sourceByte r.fallback, spliceByte r.policy] ++ List.replicate 5 0 ↔
      idsAt 1 b 0 = some r.ids ∧ byteAt b 8 = sourceByte r.base ∧ byteAt b 9 = sourceByte r.fallback ∧ byteAt b 10 = spliceByte r.policy ∧
        padded b 11 = true) := fun ids => by
    have spelled := drop_ids (b := b) (i := 0) (v := r.ids) (rest := [sourceByte r.base, sourceByte r.fallback, spliceByte r.policy] ++
      List.replicate 5 0) (by omega) fun c n hn => (ids c n hn).2
    rw [List.drop_zero] at spelled
    rw [List.append_assoc, spelled, idsAt_iff, ← drop_pads (b := b) (i := 11) (n := 5) length, ← drop_byte (i := 10) (by omega),
      ← drop_byte (i := 9) (by omega), ← drop_byte (i := 8) (by omega)]
    exact and_congr_left fun _ => (and_iff_left ids).symm
  unfold positionRecordOf
  constructor
  · intro h
    cases hi : idsAt 1 b 0 with
    | none => rw [hi] at h; cases h
    | some ids =>
      cases hb : sourceOrNone (byteAt b 8) with
      | none => rw [hi, hb] at h; cases h
      | some base =>
        cases hf : sourceOrNone (byteAt b 9) with
        | none => rw [hi, hb, hf] at h; cases h
        | some fallback =>
          cases hp : spliceOf (byteAt b 10) with
          | none => rw [hi, hb, hf, hp] at h; cases h
          | some policy =>
            rw [hi, hb, hf, hp] at h
            dsimp only at h
            split at h
            · rename_i pads
              cases h
              obtain ⟨byte, within⟩ := spliceOf_iff.1 hp
              have range' := (idsAt_iff.1 hi).2
              exact ⟨(apart range').2 ⟨hi, sourceOrNone_iff.1 hb, sourceOrNone_iff.1 hf, byte, pads⟩, range', within⟩
            · cases h
  · rintro ⟨spelled, ids, within⟩
    obtain ⟨hi, hb, hf, byte, pads⟩ := (apart ids).1 spelled
    rw [hi, sourceOrNone_iff.2 hb, sourceOrNone_iff.2 hf, spliceOf_iff.2 ⟨byte, within⟩]
    exact if_pos pads

/-- A feeds record. -/
theorem feedRecordOf_iff (length : b.length = 64) (r : FeedRecord) : feedRecordOf b = some r ↔
    b = natBytes 4 r.rate ++ [boolByte r.autostart, boolByte r.activeB] ++ planBytes r.planA ++ planBytes r.planB ++ List.replicate 24 0 ∧
    (1504000 ≤ r.rate ∧ r.rate ≤ 90240000) ∧ r.planA.inRange = true ∧ r.planB.inRange = true := by
  have apart : r.rate ≤ 90240000 → r.planA.inRange = true → r.planB.inRange = true →
      (b = natBytes 4 r.rate ++ [boolByte r.autostart, boolByte r.activeB] ++ planBytes r.planA ++ planBytes r.planB ++ List.replicate 24 0 ↔
      natAt b 0 4 = r.rate ∧ byteAt b 4 = boolByte r.autostart ∧ byteAt b 5 = boolByte r.activeB ∧ planAt b 6 = r.planA ∧
        planAt b 23 = r.planB ∧ padded b 40 = true) := fun high a b' => by
    rw [← drop_pads (b := b) (i := 40) (n := 24) length, ← drop_plan (i := 23) (by omega) b', ← drop_plan (i := 6) (by omega) a,
      ← drop_byte (i := 5) (by omega), ← drop_byte (i := 4) (by omega),
      ← drop_number (i := 0) (k := 4) (by omega) (show r.rate < 256 ^ 4 from high.trans_lt (by decide)), List.drop_zero]
    simp only [List.append_assoc, List.cons_append, List.nil_append]
  unfold feedRecordOf
  constructor
  · intro h
    cases ha : boolOf (byteAt b 4) with
    | none => rw [ha] at h; cases h
    | some autostart =>
      cases hb : boolOf (byteAt b 5) with
      | none => rw [ha, hb] at h; cases h
      | some activeB =>
        rw [ha, hb] at h
        dsimp only at h
        split at h
        · rename_i within
          obtain ⟨low, high, planA, planB, pads⟩ := within
          cases h
          exact ⟨(apart high planA planB).2 ⟨rfl, boolOf_iff.1 ha, boolOf_iff.1 hb, rfl, rfl, pads⟩, ⟨low, high⟩, planA, planB⟩
        · cases h
  · rintro ⟨spelled, ⟨low, high⟩, planA, planB⟩
    obtain ⟨rate, ha, hb, a, b', pads⟩ := (apart high planA planB).1 spelled
    rw [boolOf_iff.2 ha, boolOf_iff.2 hb]
    dsimp only
    rw [rate, a, b', if_pos ⟨low, high, planA, planB, pads⟩]

/-- A carousel record. -/
theorem carouselRecordOf_iff (length : b.length = 192) (r : CarouselRecord) : carouselRecordOf b = some r ↔
    b = [BitVec.ofNat 8 r.feed.val, BitVec.ofNat 8 r.slot.val] ++ natBytes 2 r.id ++ [BitVec.ofNat 8 r.interval] ++ r.payload ++ [0, 0, 0] ∧
    (1 ≤ r.id ∧ r.id ≤ 8190) ∧ (1 ≤ r.interval ∧ r.interval ≤ 250) ∧ r.payload.length = 184 := by
  have apart : r.id ≤ 8190 → r.interval ≤ 250 → r.payload.length = 184 →
      (b = [BitVec.ofNat 8 r.feed.val, BitVec.ofNat 8 r.slot.val] ++ natBytes 2 r.id ++ [BitVec.ofNat 8 r.interval] ++ r.payload ++ [0, 0, 0] ↔
      byteAt b 0 = BitVec.ofNat 8 r.feed.val ∧ byteAt b 1 = BitVec.ofNat 8 r.slot.val ∧ natAt b 2 2 = r.id ∧ (byteAt b 4).toNat = r.interval ∧
        (b.drop 5).take 184 = r.payload ∧ padded b 189 = true) := fun id interval payload => by
    have piece := drop_piece (b := b) (i := 5) (x := r.payload) (rest := List.replicate 3 0)
    rw [payload] at piece
    rw [← drop_pads (b := b) (i := 189) (n := 3) length, ← piece, ← byte_eq_iff (show r.interval < 256 by omega), ← drop_byte (i := 4) (by omega),
      ← drop_number (i := 2) (k := 2) (by omega) (show r.id < 256 ^ 2 by omega), ← drop_byte (i := 1) (by omega),
      ← drop_byte (i := 0) (by omega), List.drop_zero]
    simp only [List.append_assoc, List.cons_append, List.nil_append]
    rfl
  unfold carouselRecordOf
  constructor
  · intro h
    cases hf : toFin 6 (byteAt b 0).toNat with
    | none => rw [hf] at h; cases h
    | some f =>
      cases hc : toFin 16 (byteAt b 1).toNat with
      | none => rw [hf, hc] at h; cases h
      | some c =>
        rw [hf, hc] at h
        dsimp only at h
        split at h
        · rename_i within
          obtain ⟨id, id', interval, interval', pads⟩ := within
          cases h
          have payload : ((b.drop 5).take 184).length = 184 := by rw [List.length_take, List.length_drop, length]; rfl
          exact ⟨(apart id' interval' payload).2 ⟨(toFin_iff (by decide)).1 hf, (toFin_iff (by decide)).1 hc, rfl, rfl, rfl, pads⟩, ⟨id, id'⟩,
            ⟨interval, interval'⟩, payload⟩
        · cases h
  · rintro ⟨spelled, ⟨id, id'⟩, ⟨interval, interval'⟩, payload⟩
    obtain ⟨hf, hc, number, count, bytes, pads⟩ := (apart id' interval' payload).1 spelled
    rw [(toFin_iff (by decide)).2 hf, (toFin_iff (by decide)).2 hc]
    dsimp only
    rw [number, count, bytes, if_pos ⟨id, id', interval, interval', pads⟩]

/-- A cue-lines record. -/
theorem lineRecordOf_iff (length : b.length = 4) (r : LineRecord) : lineRecordOf b = some r ↔
    b = [lineModeByte r.mode, BitVec.ofNat 8 r.feed.val, BitVec.ofNat 8 r.position.val, BitVec.ofNat 8 r.source.val] := by
  have apart : b = [lineModeByte r.mode, BitVec.ofNat 8 r.feed.val, BitVec.ofNat 8 r.position.val, BitVec.ofNat 8 r.source.val] ↔
      byteAt b 0 = lineModeByte r.mode ∧ byteAt b 1 = BitVec.ofNat 8 r.feed.val ∧ byteAt b 2 = BitVec.ofNat 8 r.position.val ∧
        byteAt b 3 = BitVec.ofNat 8 r.source.val ∧ b.drop 4 = [] := by
    rw [← drop_byte (i := 3) (by omega), ← drop_byte (i := 2) (by omega), ← drop_byte (i := 1) (by omega), ← drop_byte (i := 0) (by omega)]
    rfl
  rw [apart]
  unfold lineRecordOf
  constructor
  · intro h
    cases hm : lineModeOf (byteAt b 0) with
    | none => rw [hm] at h; cases h
    | some m =>
      cases hf : toFin 6 (byteAt b 1).toNat with
      | none => rw [hm, hf] at h; cases h
      | some f =>
        cases hp : toFin 8 (byteAt b 2).toNat with
        | none => rw [hm, hf, hp] at h; cases h
        | some p =>
          cases hx : toFin 16 (byteAt b 3).toNat with
          | none => rw [hm, hf, hp, hx] at h; cases h
          | some x =>
            rw [hm, hf, hp, hx] at h
            cases h
            exact ⟨lineModeOf_iff.1 hm, (toFin_iff (by decide)).1 hf, (toFin_iff (by decide)).1 hp, (toFin_iff (by decide)).1 hx,
              List.drop_of_length_le length.le⟩
  · rintro ⟨hm, hf, hp, hx, -⟩
    rw [lineModeOf_iff.2 hm, (toFin_iff (by decide)).2 hf, (toFin_iff (by decide)).2 hp, (toFin_iff (by decide)).2 hx]

end Sys2Proof.Machine
end

section
/-! SUPPORT. The sections of a configuration image, the image as its bytes lay it out, and the verdict on the bytes read (11.2, 11.3,
12.5). -/

namespace Sys2Proof.Machine

/-! ### Sections -/

/-- The records that are read, each in its place (12.5). -/
theorem records_iff {α : Type} {read : List Byte → Option α} {size n : Nat} {b : List Byte} {l : List α} : records read size n b = some l ↔
    l.length = n ∧ ∀ k x, l[k]? = some x → read ((b.drop (size * k)).take size) = some x := by
  induction n generalizing b l with
  | zero =>
    rw [records, List.length_eq_zero_iff]
    exact ⟨fun h => by cases h; simp, fun h => by rw [h.1]⟩
  | succ n ih =>
    constructor
    · intro h
      refine ⟨records_length h, ?_⟩
      unfold records at h
      split at h
      · rename_i x rest hx hrest
        cases h
        intro k y hy
        cases k with
        | zero => cases hy; exact hx
        | succ k =>
          have e := (ih.1 hrest).2 k y hy
          rwa [List.drop_drop, Nat.add_comm, ← Nat.mul_succ] at e
      · cases h
    · rintro ⟨length, each⟩
      cases l with
      | nil => cases length
      | cons x rest =>
        unfold records
        have first : read (b.take size) = some x := each 0 x rfl
        have others : records read size n (b.drop size) = some rest := ih.2 ⟨Nat.succ.inj length, fun k y hy => by
          rw [List.drop_drop, Nat.add_comm, ← Nat.mul_succ]
          exact each (k + 1) y hy⟩
        rw [first, others]

/-- A section in an image's bytes: its opening and its records (12.5). -/
structure SectionAt {α : Type} (code size : Nat) (read : List Byte → Option α) (b : List Byte) (start : Nat) (l : List α) : Prop where
  fits : start + 4 + l.length * size ≤ b.length
  opening : (b.drop start).take 4 = [BitVec.ofNat 8 code, BitVec.ofNat 8 l.length] ++ natBytes 2 (l.length * size)
  each : ∀ k x, l[k]? = some x → read ((b.drop (start + 4 + size * k)).take size) = some x

theorem opening_iff {b : List Byte} {code n m : Nat} (long : 4 ≤ b.length) (code' : code < 256) (n' : n < 256) (m' : m < 65536) :
    b.take 4 = [BitVec.ofNat 8 code, BitVec.ofNat 8 n] ++ natBytes 2 m ↔
      (byteAt b 0).toNat = code ∧ (byteAt b 1).toNat = n ∧ natAt b 2 2 = m := by
  have piece := drop_piece (b := b) (i := 0) (x := [BitVec.ofNat 8 code, BitVec.ofNat 8 n] ++ natBytes 2 m) (rest := b.drop 4)
  rw [show ([BitVec.ofNat 8 code, BitVec.ofNat 8 n] ++ natBytes 2 m).length = 4 from rfl, and_iff_left rfl, List.append_assoc, List.drop_zero] at piece
  refine piece.symm.trans ?_
  rw [← List.drop_zero (l := b), List.drop_drop]
  rw [List.cons_append, List.cons_append, List.nil_append, drop_byte (by omega), drop_byte (by omega), drop_number (by omega) m',
    byte_eq_iff code', byte_eq_iff n']
  simp

section
variable {α : Type} {code size start : Nat} {counts : Nat → Bool} {read : List Byte → Option α} {b rest : List Byte} {l : List α}

theorem sectionOf_some (code' : code < 256) (h : sectionOf code counts size read (b.drop start) = some (l, rest)) :
    counts l.length = true ∧ SectionAt code size read b start l ∧ rest = b.drop (start + 4 + l.length * size) := by
  unfold sectionOf at h
  dsimp only at h
  split at h
  · rename_i passes
    obtain ⟨fits, first, counted, number⟩ := passes
    split at h
    · rename_i l' hl
      cases h
      obtain ⟨length, each⟩ := records_iff.1 hl
      have small := (byteAt (b.drop start) 1).isLt
      rw [List.length_drop] at fits
      rw [length]
      refine ⟨counted, ⟨by rw [length]; omega, ?_, fun k x hx => ?_⟩, by rw [List.drop_drop, Nat.add_assoc]⟩
      · refine (opening_iff (by rw [List.length_drop]; omega) code' (by rw [length]; exact small) ?_).2
          ⟨first, length.symm, by rw [length]; exact number⟩
        rw [length, ← number, natAt_two_byteAt (by rw [List.length_drop]; omega)]
        have := (byteAt (b.drop start) 2).isLt
        have := (byteAt (b.drop start) 3).isLt
        omega
      · have e := each k x hx
        rwa [List.drop_drop, List.drop_drop, ← Nat.add_assoc] at e
    · cases h
  · cases h

theorem sectionOf_spelled (code' : code < 256) (small : l.length < 256) (total : l.length * size < 65536) (counted : counts l.length = true)
    (h : SectionAt code size read b start l) :
    sectionOf code counts size read (b.drop start) = some (l, b.drop (start + 4 + l.length * size)) := by
  have fits := h.fits
  obtain ⟨first, second, number⟩ := (opening_iff (by rw [List.length_drop]; omega) code' small total).1 h.opening
  have all : records read size l.length ((b.drop start).drop 4) = some l := records_iff.2 ⟨rfl, fun k x hx => by
    rw [List.drop_drop, List.drop_drop, ← Nat.add_assoc]
    exact h.each k x hx⟩
  unfold sectionOf
  dsimp only
  rw [second, if_pos ⟨by rw [List.length_drop]; omega, first, counted, number⟩, all]
  dsimp only
  rw [List.drop_drop, Nat.add_assoc]

end

/-! ### The image -/

/-- The sections of an image, each in its place (12.5). -/
structure Image.sectionsIn (m : Image) (b : List Byte) : Prop where
  length : b.length = 1760 + 192 * m.carousel.length
  few : m.carousel.length ≤ 96
  portsCount : m.ports.length = 4
  sourcesCount : m.sources.length = 16
  positionsCount : m.positions.length = 48
  feedsCount : m.feeds.length = 6
  linesCount : m.lines.length = 8
  ports : SectionAt 1 8 portRecordOf b 0 m.ports
  sources : SectionAt 2 32 sourceRecordOf b 36 m.sources
  scan : SectionAt 3 4 scanRecordOf b 552 [m.scan]
  positions : SectionAt 4 16 positionRecordOf b 560 m.positions
  feeds : SectionAt 5 64 feedRecordOf b 1332 m.feeds
  carousel : SectionAt 6 192 carouselRecordOf b 1720 m.carousel
  lines : SectionAt 7 4 lineRecordOf b (1724 + 192 * m.carousel.length) m.lines

theorem imageOf_iff (b : List Byte) (m : Image) : imageOf b = some m ↔ m.sectionsIn b := by
  constructor
  · intro h
    simp only [imageOf, Option.bind_eq_bind, Option.bind_eq_some_iff, Prod.exists] at h
    obtain ⟨ports, _, h1, sources, _, h2, scan, _, h3, positions, _, h4, feeds, _, h5, carousel, _, h6, lines, _, h7, h⟩ := h
    obtain ⟨c1, s1, rfl⟩ := sectionOf_some (start := 0) (by decide) h1
    have n1 : ports.length = 4 := by simpa using c1
    rw [show 0 + 4 + ports.length * 8 = 36 by omega] at h2
    obtain ⟨c2, s2, rfl⟩ := sectionOf_some (by decide) h2
    have n2 : sources.length = 16 := by simpa using c2
    rw [show 36 + 4 + sources.length * 32 = 552 by omega] at h3
    obtain ⟨c3, s3, rfl⟩ := sectionOf_some (by decide) h3
    have n3 : scan.length = 1 := by simpa using c3
    rw [show 552 + 4 + scan.length * 4 = 560 by omega] at h4
    obtain ⟨c4, s4, rfl⟩ := sectionOf_some (by decide) h4
    have n4 : positions.length = 48 := by simpa using c4
    rw [show 560 + 4 + positions.length * 16 = 1332 by omega] at h5
    obtain ⟨c5, s5, rfl⟩ := sectionOf_some (by decide) h5
    have n5 : feeds.length = 6 := by simpa using c5
    rw [show 1332 + 4 + feeds.length * 64 = 1720 by omega] at h6
    obtain ⟨c6, s6, rfl⟩ := sectionOf_some (by decide) h6
    have n6 : carousel.length ≤ 96 := by simpa using c6
    rw [show 1720 + 4 + carousel.length * 192 = 1724 + 192 * carousel.length by omega] at h7
    obtain ⟨c7, s7, rfl⟩ := sectionOf_some (by decide) h7
    have n7 : lines.length = 8 := by simpa using c7
    split at h
    · rename_i range' rest
      cases h
      have fits := s7.fits
      rw [n7] at fits rest
      have all := List.drop_eq_nil_iff.1 rest
      exact ⟨by dsimp only; omega, n6, n1, n2, n4, n5, n7, s1, s2, s3, s4, s5, s6, s7⟩
    · cases h
  · intro h
    have h1 := sectionOf_spelled (counts := (· == 4)) (by decide) (by rw [h.portsCount]; decide) (by rw [h.portsCount]; decide)
      (by rw [h.portsCount]; rfl) h.ports
    have h2 := sectionOf_spelled (counts := (· == 16)) (by decide) (by rw [h.sourcesCount]; decide) (by rw [h.sourcesCount]; decide)
      (by rw [h.sourcesCount]; rfl) h.sources
    have h3 := sectionOf_spelled (counts := (· == 1)) (by decide)
      (show [m.scan].length < 256 from Nat.lt_of_sub_eq_succ rfl) (show [m.scan].length * 4 < 65536 from Nat.lt_of_sub_eq_succ rfl) rfl h.scan
    have h4 := sectionOf_spelled (counts := (· == 48)) (by decide) (by rw [h.positionsCount]; decide) (by rw [h.positionsCount]; decide)
      (by rw [h.positionsCount]; rfl) h.positions
    have h5 := sectionOf_spelled (counts := (· == 6)) (by decide) (by rw [h.feedsCount]; decide) (by rw [h.feedsCount]; decide)
      (by rw [h.feedsCount]; rfl) h.feeds
    have few := h.few
    have h6 := sectionOf_spelled (counts := fun n => decide (n ≤ 96)) (by decide) (by omega) (by omega) (by simpa using few) h.carousel
    have h7 := sectionOf_spelled (counts := (· == 8)) (by decide) (by rw [h.linesCount]; decide) (by rw [h.linesCount]; decide)
      (by rw [h.linesCount]; rfl) h.lines
    rw [h.portsCount, List.drop_zero] at h1
    rw [h.sourcesCount] at h2
    rw [h.positionsCount] at h4
    rw [h.feedsCount] at h5
    rw [show 1720 + 4 + m.carousel.length * 192 = 1724 + 192 * m.carousel.length by omega] at h6
    rw [h.linesCount, List.drop_of_length_le (l := b) (i := 1724 + 192 * m.carousel.length + 4 + 8 * 4) (by rw [h.length]; omega)] at h7
    simp only [List.length_singleton, Nat.reduceMul, Nat.reduceAdd] at h1 h2 h3 h4 h5
    simp only [imageOf, Option.bind_eq_bind, h1, h2, h3, h4, h5, h6, h7, Option.bind_some]

/-- A section's records, each as the bytes in its place spell it. -/
theorem SectionAt.each_iff {α : Type} {size start : Nat} {read : List Byte → Option α} {b : List Byte} {l : List α}
    {spelled : List Byte → α → Prop} (fits : start + 4 + l.length * size ≤ b.length)
    (reads : ∀ c : List Byte, c.length = size → ∀ x, read c = some x ↔ spelled c x) :
    (∀ k x, l[k]? = some x → read ((b.drop (start + 4 + size * k)).take size) = some x) ↔
      ∀ k x, l[k]? = some x → spelled ((b.drop (start + 4 + size * k)).take size) x := by
  refine forall_congr' fun k => forall_congr' fun x => imp_congr_right fun hx => reads _ ?_ x
  have below : k < l.length := (List.getElem?_eq_some_iff.1 hx).1
  have room : size * k + size ≤ l.length * size := by
    rw [Nat.mul_comm l.length, ← Nat.mul_succ]
    exact Nat.mul_le_mul_left _ below
  rw [List.length_take, List.length_drop]
  omega

theorem SectionAt.iff {α : Type} {code size start : Nat} {read : List Byte → Option α} {b : List Byte} {l : List α}
    {spelled : List Byte → α → Prop} (fits : start + 4 + l.length * size ≤ b.length)
    (reads : ∀ c : List Byte, c.length = size → ∀ x, read c = some x ↔ spelled c x) : SectionAt code size read b start l ↔
    (b.drop start).take 4 = [BitVec.ofNat 8 code, BitVec.ofNat 8 l.length] ++ natBytes 2 (l.length * size) ∧
      ∀ k x, l[k]? = some x → spelled ((b.drop (start + 4 + size * k)).take size) x :=
  ⟨fun h => ⟨h.opening, (each_iff fits reads).1 h.each⟩, fun h => ⟨fits, h.1, (each_iff fits reads).2 h.2⟩⟩

/-- The bytes that are read as an image are those that lay it out (R166, R173, 12.5). -/
theorem sectionsIn_iff (m : Image) (b : List Byte) : m.sectionsIn b ↔ m.laidOut b := by
  have apart : b.length = 1760 + 192 * m.carousel.length → m.ports.length = 4 → m.sources.length = 16 → m.positions.length = 48 →
      m.feeds.length = 6 → m.lines.length = 8 → _ := fun length n1 n2 n4 n5 n7 =>
    (⟨SectionAt.iff (b := b) (code := 1) (start := 0) (l := m.ports) (by omega) fun _ hc r => portRecordOf_iff hc r,
      SectionAt.iff (b := b) (code := 2) (start := 36) (l := m.sources) (by omega) fun _ hc r => sourceRecordOf_iff hc r,
      SectionAt.iff (b := b) (code := 3) (start := 552) (l := [m.scan]) (show 552 + 4 + 1 * 4 ≤ b.length by omega) fun _ hc r => scanRecordOf_iff hc r,
      SectionAt.iff (b := b) (code := 4) (start := 560) (l := m.positions) (by omega) fun _ hc r => positionRecordOf_iff hc r,
      SectionAt.iff (b := b) (code := 5) (start := 1332) (l := m.feeds) (by omega) fun _ hc r => feedRecordOf_iff hc r,
      SectionAt.iff (b := b) (code := 6) (start := 1720) (l := m.carousel) (by omega) fun _ hc r => carouselRecordOf_iff hc r,
      SectionAt.iff (b := b) (code := 7) (start := 1724 + 192 * m.carousel.length) (l := m.lines) (by omega) fun _ hc r => lineRecordOf_iff hc r⟩ :
      _ ∧ _ ∧ _ ∧ _ ∧ _ ∧ _ ∧ _)
  constructor
  · rintro ⟨length, few, n1, n2, n4, n5, n7, s1, s2, s3, s4, s5, s6, s7⟩
    obtain ⟨i1, i2, i3, i4, i5, i6, i7⟩ := apart length n1 n2 n4 n5 n7
    obtain ⟨o1, e1⟩ := i1.1 s1
    obtain ⟨o2, e2⟩ := i2.1 s2
    obtain ⟨o3, e3⟩ := i3.1 s3
    obtain ⟨o4, e4⟩ := i4.1 s4
    obtain ⟨o5, e5⟩ := i5.1 s5
    obtain ⟨o6, e6⟩ := i6.1 s6
    obtain ⟨o7, e7⟩ := i7.1 s7
    rw [n1] at o1
    rw [show [m.scan].length = 1 from rfl] at o3
    rw [n2] at o2
    rw [n4] at o4
    rw [n5] at o5
    rw [Nat.mul_comm] at o6
    rw [n7] at o7
    exact ⟨⟨length, few, n1, n2, n4, n5, n7⟩, ⟨o1, o2, o3, o4, o5, o6, o7⟩, e1, e2, e3 0 m.scan rfl, e4, e5, e6, e7⟩
  · rintro ⟨⟨length, few, n1, n2, n4, n5, n7⟩, ⟨o1, o2, o3, o4, o5, o6, o7⟩, e1, e2, e3, e4, e5, e6, e7⟩
    obtain ⟨i1, i2, i3, i4, i5, i6, i7⟩ := apart length n1 n2 n4 n5 n7
    refine ⟨length, few, n1, n2, n4, n5, n7, i1.2 ⟨by rw [n1]; exact o1, e1⟩, i2.2 ⟨by rw [n2]; exact o2, e2⟩,
      i3.2 ⟨by rw [show [m.scan].length = 1 from rfl]; exact o3, fun k x hx => ?_⟩,
      i4.2 ⟨by rw [n4]; exact o4, e4⟩, i5.2 ⟨by rw [n5]; exact o5, e5⟩, i6.2 ⟨by rw [Nat.mul_comm]; exact o6, e6⟩,
      i7.2 ⟨by rw [n7]; exact o7, e7⟩⟩
    cases k with
    | zero => cases hx; exact e3
    | succ k => cases hx

/-! ### The verdict -/

/-- An image passes by the four cross checks (R166, R167). -/
theorem Image.passes_iff (m : Image) (rate : FrameRate) : m.passes rate = true ↔
    (m.carousel.map fun r => (r.feed, r.slot)).Nodup ∧ (m.ports.map PortRecord.quota).sum ≤ 128 ∧
    (∀ f : FeedNo, (((m.positions.drop (8 * f.val)).take 8).flatMap (fun r => present r.ids) ++
      (m.carousel.filter fun r => r.feed = f).map CarouselRecord.id).Nodup) ∧
    ∀ r, r ∈ m.feeds → (if r.activeB then r.planB else r.planA).total ≤ r.rate / (1504 * rate.fps) := by
  unfold Image.passes
  simp only [Bool.and_eq_true, decide_eq_true_eq, List.all_eq_true, and_assoc]
  refine and_congr_right fun _ => and_congr_right fun _ => and_congr ?_ ?_
  · refine ⟨fun h f => ?_, fun h f _ => ?_⟩
    · have e := h f (mem_allFeeds f)
      unfold Image.feedIds at e
      rwa [Nat.mul_comm] at e
    · have e := h f
      unfold Image.feedIds
      rwa [Nat.mul_comm] at e
  · refine forall_congr' fun r => imp_congr_right fun _ => ?_
    unfold FeedRecord.withinBudget capacityOf
    rw [decide_eq_true_eq]
    rfl

/-- The section bytes read in one go bring the verdict. -/
theorem State.readSections_whole {s : State} {bytes : List Byte} (phase : s.loader.phase = .sections) (store : s.loader.store = [])
    (crc : s.loader.crc = 0xFFFFFFFF) (remaining : s.loader.remaining = bytes.length) :
    s.readSections bytes = { s with loader := { s.loader with
      store := bytes, crc := crc32Feed 0xFFFFFFFF bytes, remaining := 0 } }.verdict := by
  unfold State.readSections
  rw [if_neg (by simp [phase]), remaining]
  dsimp only
  rw [List.take_length, store, crc, Nat.sub_self, if_pos rfl, List.nil_append]

/-- Settles O5: the layout of an image, its cross checks, and the verdict. -/
theorem sectionsJudged : Obligations.SectionsJudged := by
  unfold Obligations.SectionsJudged
  refine ⟨by decide +kernel, fun b m => (imageOf_iff b m).trans (sectionsIn_iff m b), Image.passes_iff,
    fun s bytes awake phase store crc remaining => ?_⟩
  rw [exec_imageReadComplete, s.act_awake _ awake, State.readSections_whole phase store crc remaining]
  unfold State.verdict
  dsimp only
  refine ⟨fun fails => ?_, fun ⟨check, m, image, passes⟩ => ?_⟩
  · by_cases check : ~~~crc32Feed 0xFFFFFFFF bytes = s.loader.check
    · rw [if_neg (by simpa using check)]
      cases image : imageOf bytes with
      | none => rfl
      | some m =>
        dsimp only
        rw [if_neg fun passes => fails ⟨check, m, image, passes⟩]
        rfl
    · rw [if_pos check]
      rfl
  · rw [if_neg (by simpa using check), image]
    dsimp only
    rw [if_pos passes]
    exact ⟨_, rfl, State.applyImage_loader _ m⟩

end Sys2Proof.Machine
end

section
/-! SUPPORT. The settings that a passed image puts in place (11.4). -/

namespace Sys2Proof.Machine

theorem State.applyImage_scan (s : State) (m : Image) : (s.applyImage m).scan = m.scan := by
  rw [State.applyImage_eq]
  obtain ⟨_, e4⟩ := applyLines_frame
    ((({ (s.applyPorts m).applySources m with scan := m.scan }.applyPositions m).applyFeeds m).applyTables m) m
  obtain ⟨_, e3⟩ := applyTables_frame (({ (s.applyPorts m).applySources m with scan := m.scan }.applyPositions m).applyFeeds m) m
  obtain ⟨_, e2⟩ := applyFeeds_frame ({ (s.applyPorts m).applySources m with scan := m.scan }.applyPositions m) m
  obtain ⟨_, e1⟩ := applyPositions_frame { (s.applyPorts m).applySources m with scan := m.scan } m
  rw [e4, e3, e2, e1]

theorem State.applyImage_line (s : State) (m : Image) (l : LineNo) (r : LineRecord) (h : m.lines[l.val]? = some r) :
    (s.applyImage m).line l = (s.line l).configured r := by
  obtain ⟨_, e3⟩ := applyTables_frame (({ (s.applyPorts m).applySources m with scan := m.scan }.applyPositions m).applyFeeds m) m
  obtain ⟨_, e2⟩ := applyFeeds_frame ({ (s.applyPorts m).applySources m with scan := m.scan }.applyPositions m) m
  obtain ⟨_, e1⟩ := applyPositions_frame { (s.applyPorts m).applySources m with scan := m.scan } m
  obtain ⟨_, e0⟩ := applySources_frame (s.applyPorts m) m
  obtain ⟨_, _, e⟩ := applyPorts_frame s m
  rw [State.applyImage_eq, State.applyLines_at _ m l r h, e3, e2, e1, e0, e]
  rfl

theorem State.applyImage_port (s : State) (m : Image) (p : PortNo) :
    (∀ r, m.ports[p.val]? = some r → (s.applyImage m).port p = { s.port p with
        authority := r.authority, pendingSpeed := if r.speed = (s.port p).speed then none else some r.speed } ∧
      tget (s.applyImage m).list.quotas p = r.quota) ∧ (m.ports[p.val]? = none → (s.applyImage m).port p = s.port p) := by
  obtain ⟨ports, list⟩ := State.applyImage_ports_eq s m
  have same : (s.applyImage m).port p = (s.applyPorts m).port p := by unfold State.port; rw [ports]
  obtain ⟨named, unnamed⟩ := State.applyPorts_at s m
  rw [same, list]
  exact ⟨fun r h => Prod.ext_iff.1 (named p r h), fun h => congrArg Prod.fst (unnamed p h)⟩

/-- A source whose table entry an image sets, from a disabled one (R98, R113). -/
theorem Source.configured_eq {x : Source} (r : SourceEntry) (off : x.table.enabled = false) :
    (x.configured r = if r.enabled then
        { x with
          table := r, cont := (x.configured r).cont, health := .healthy, badCount := 0, goodCount := 0, n := 0, e := 0, k := 0
          syncBad := decide (x.sync = .hunting), clockSeen := false }
      else { x with table := r, cont := (x.configured r).cont }) ∧
    ∀ c, tget (x.configured r).cont c = if r.enabled = true ∨ tget r.comps c ≠ tget x.table.comps c then none else tget x.cont c := by
  constructor
  · cases on : r.enabled with
    | true => exact Source.withTable_enabled on off
    | false => exact Source.withTable_same (on.trans off.symm)
  · intro c
    rw [Source.configured, Source.withTable_cont, Source.contAfter_get, off]
    cases r.enabled <;> simp

/-- Settles O6: each block's part of an image, put together. -/
theorem passedImageApplied : Obligations.PassedImageApplied := by
  unfold Obligations.PassedImageApplied
  intro s bytes m awake phase store crc remaining check image passes disabled
  obtain ⟨distinct, -⟩ := (Image.passes_iff m _).1 passes
  rw [exec_imageReadComplete, s.act_awake _ awake, State.readSections_whole phase store crc remaining]
  unfold State.verdict
  dsimp only
  rw [if_neg (by simpa using check), image]
  dsimp only
  rw [if_pos passes]
  refine ⟨_, rfl, ?_⟩
  have load : s.LoadSound → ∀ f c, tget (s.feed f).carousel c = none := fun sound => by
    obtain ⟨-, -, -, idle⟩ := sound (.inr phase)
    exact fun f => (idle f).2.2.2
  generalize hu : ({ s with loader := { s.loader with
    state := .ready, phase := .ended, store := bytes, crc := crc32Feed 0xFFFFFFFF bytes, remaining := 0 } } : State) = u
  have feeds : ∀ f, u.feed f = s.feed f := fun f => by rw [← hu]; rfl
  have ports : ∀ p, u.port p = s.port p := fun p => by rw [← hu]; rfl
  have sources : ∀ i, u.src i = s.src i := fun i => by rw [← hu]; rfl
  obtain ⟨_, _, _, _, _, _, _, frame⟩ := applyImage_frame u m
  obtain ⟨named, unnamed⟩ := State.applyTables_at (u.applyFeeds m) m distinct
  obtain ⟨feedNamed, feedKept⟩ := State.applyFeeds_at u m
  refine ⟨?_, State.applyImage_scan u m, ?_, fun p => ?_, fun p r h => ?_, ?_, fun i r h => ?_, fun f p r h => ?_, fun f => ?_, fun f r h => ?_,
    fun r h => ?_, fun f c none' => ?_, fun l r h => ?_, ?_, ?_⟩
  · rw [frame, ← hu]
  · rw [frame, ← hu]
  · obtain ⟨some', none'⟩ := State.applyImage_port u m p
    rw [← ports p]
    cases h : m.ports[p.val]? with
    | none => rw [none' h]
    | some r => rw [(some' r h).1]
  · obtain ⟨port, quota⟩ := (State.applyImage_port u m p).1 r h
    rw [port, quota, ports]
    exact ⟨rfl, rfl, rfl⟩
  · rw [frame, ← hu]
  · rw [State.applyImage_src u m i r h, sources]
    exact Source.configured_eq r (disabled i).1
  · rw [State.applyImage_pos u m f p r h, ← hu]
    rfl
  · obtain ⟨_, tables⟩ := State.applyTables_rest (u.applyFeeds m) m f
    rw [State.applyImage_feed_eq, tables]
    rcases feedKept f with e | ⟨r, -, e⟩
    · rw [e, feeds]
    · rw [e, feeds]
      rfl
  · obtain ⟨_, tables⟩ := State.applyTables_rest (u.applyFeeds m) m f
    rw [State.applyImage_feed_eq, tables, feedNamed f r h, ← hu]
    exact ⟨rfl, rfl, rfl, rfl, rfl, rfl⟩
  · rw [State.applyImage_feed_eq]
    exact named r h
  · have kept : tget ((u.applyImage m).feed f).carousel c = tget (s.feed f).carousel c := by
      rw [State.applyImage_feed_eq, unnamed f c none']
      rcases feedKept f with e | ⟨r, -, e⟩ <;> rw [e, feeds]
      rfl
    exact ⟨kept, fun sound => kept.trans (load sound f c)⟩
  · rw [State.applyImage_line u m l r h, ← hu]
    rfl
  · rw [frame, ← hu]
    exact awake.1
  · rw [frame, ← hu]

end Sys2Proof.Machine
end

section
/-! SUPPORT. The examination of a source: its checks and verdict, the notices of a change of health, and what the change moves (07). -/

namespace Sys2Proof.Machine

/-! ### The verdict -/

theorem Source.ratePasses_eq_false {x : Source} : x.ratePasses = false ↔
    (x.table.rateMode ≠ .ceiling ∧ x.n < x.table.low * x.k) ∨ (x.table.rateMode ≠ .floor ∧ x.table.high * x.k < x.n) := by
  unfold Source.ratePasses
  cases x.table.rateMode with
  | band =>
    simp only [Bool.and_eq_false_iff, decide_eq_false_iff_not, ne_eq, reduceCtorEq, not_false_eq_true, true_and]
    omega
  | floor =>
    simp only [decide_eq_false_iff_not, ne_eq, reduceCtorEq, not_false_eq_true, true_and, not_true_eq_false, false_and, or_false]
    omega
  | ceiling =>
    simp only [decide_eq_false_iff_not, ne_eq, reduceCtorEq, not_false_eq_true, true_and, not_true_eq_false, false_and, false_or]
    omega

/-- The causes that the enabled checks give (R102). -/
theorem Source.causes_eq {x : Source} {c : Checks} (sync : c.sync = true ↔ x.table.checks.sync = true ∧ x.syncBad = true)
    (continuity : c.continuity = true ↔ x.table.checks.continuity = true ∧ x.table.tolerance < x.e)
    (rate : c.rate = true ↔ x.table.checks.rate = true ∧
      ((x.table.rateMode ≠ .ceiling ∧ x.n < x.table.low * x.k) ∨ (x.table.rateMode ≠ .floor ∧ x.table.high * x.k < x.n)))
    (clock : c.clock = true ↔ x.table.checks.clock = true ∧ x.table.clockComp ≠ none ∧ x.clockSeen = false) : x.causes = c := by
  obtain ⟨s, e, r, k⟩ := c
  unfold Source.causes
  congr 1
  · rw [Bool.eq_iff_iff, sync, Bool.and_eq_true]
  · rw [Bool.eq_iff_iff, continuity, Bool.and_eq_true, decide_eq_true_eq]
  · rw [Bool.eq_iff_iff, rate, Bool.and_eq_true, Bool.not_eq_true', Source.ratePasses_eq_false]
  · rw [Bool.eq_iff_iff, clock, Bool.and_eq_true, Bool.and_eq_true, Bool.not_eq_true', and_assoc, Option.isSome_iff_ne_none]

/-- A source examined, in its parts (R102, R106, R110). -/
theorem Source.examined_eq (x : Source) (tod : TimeOfDay) : ∃ y : Source, x.examined tod = y ∧ y = { x with
      n := 0, e := 0, k := 0, syncBad := decide (x.sync = .hunting), clockSeen := false
      badCount := y.badCount, goodCount := y.goodCount, health := y.health, latched := y.latched, verdict := y.verdict } ∧
    y.badCount = (if x.causes.any then min (x.badCount + 1) 7 else 0) ∧ y.goodCount = (if x.causes.any then 0 else min (x.goodCount + 1) 7) ∧
    y.verdict = some ⟨tod, x.causes.any, x.causes⟩ ∧
    y.health = ({ x with badCount := y.badCount, goodCount := y.goodCount } : Source).healthAfter x.causes.any ∧
    y.latched = (if y.health = .faulted ∧ x.health ≠ .faulted then ⟨x.causes, some tod, min (x.latched.count + 1) 255, true⟩ else x.latched) :=
  ⟨_, rfl, rfl, rfl, rfl, rfl, rfl, rfl⟩

theorem Source.healthAfter_well {x : Source} (bad : Bool) (h : x.health = .healthy ∨ x.health = .suspect) :
    x.healthAfter bad = if bad then (if x.table.faultThreshold ≤ x.badCount then .faulted else .suspect) else .healthy := by
  unfold Source.healthAfter
  rcases h with h | h <;> rw [h] <;> cases bad <;> rfl

theorem Source.healthAfter_faulted {x : Source} (bad : Bool) (h : x.health = .faulted) :
    x.healthAfter bad = if bad = false ∧ x.table.recoveryThreshold ≤ x.goodCount then .healthy else .faulted := by
  unfold Source.healthAfter
  rw [h]
  cases bad with
  | false => simp
  | true => rfl

/-! ### A change of health -/

/-- The notices of a change of health (R106, R107). -/
def State.healthTold (s : State) (i : SrcNo) (before : Health) : State :=
  if (s.src i).table.noticePermit then
    if (s.src i).health = .faulted then s.raiseAll .sourceFault
    else if before = .faulted then s.raiseAll .sourceRecovered else s
  else s

theorem State.healthMoved_eq (s : State) (i : SrcNo) (before : Health) :
    s.healthMoved i before = if (s.src i).health = before then s else (s.healthTold i before).healthChanged i := rfl

theorem State.healthTold_only (s : State) (i : SrcNo) (before : Health) : OnlyPorts s (s.healthTold i before) := by
  unfold State.healthTold
  split
  · split
    · exact raiseAll_frame _ _
    · split
      · exact raiseAll_frame _ _
      · exact .rfl' s
  · exact .rfl' s

theorem State.healthTold_port (s : State) (i : SrcNo) (before : Health) (q : PortNo) :
    (s.healthTold i before).port q = (s.port q).told (if (s.src i).table.noticePermit = false then 0
      else if (s.src i).health = .faulted then 0x004 else if before = .faulted then 0x008 else 0) := by
  unfold State.healthTold
  cases (s.src i).table.noticePermit with
  | false => exact (ControlPort.told_zero _).symm
  | true =>
    simp only [if_true, Bool.true_eq_false, if_false]
    split
    · exact State.raiseAll_port s _ q
    · split
      · exact State.raiseAll_port s _ q
      · exact (ControlPort.told_zero _).symm

/-- Notices raised before the records of the searches overtaken stand after them (R155). -/
theorem State.overtaken_told {s t : State} (judged : FeedNo → PosNo → Position) {n : NoticeSet} {q : PortNo}
    (port : t.port q = (s.port q).told n) (clock : t.clock = s.clock) (feeds : t.feeds = s.feeds) (positions : t.positions = s.positions) :
    (t.overtaken judged).port q = ((s.overtaken judged).port q).told n := by
  unfold State.overtaken State.feed State.pos
  rw [feeds, positions, State.foldl_ownerDone fun fp => (tget (tget s.positions fp.1) fp.2).slot.owner,
    State.foldl_ownerDone fun fp => (tget (tget s.positions fp.1) fp.2).slot.owner, port, clock, ControlPort.foldl_recorded_told]

theorem State.examine_disabled {s : State} (off : (s.src s.scan.pointer).table.enabled = false) :
    s.examine = { s.setSrc s.scan.pointer (s.src s.scan.pointer).resetInterval with scan := s.scan.next } := by
  unfold State.examine
  dsimp only
  rw [off]
  rfl

theorem State.examine_enabled {s : State} (on : (s.src s.scan.pointer).table.enabled = true) :
    s.examine = { (s.setSrc s.scan.pointer ((s.src s.scan.pointer).examined s.clock.tod)).healthMoved s.scan.pointer
      (s.src s.scan.pointer).health with scan := s.scan.next } := by
  have scan := (State.examine_scan s)
  unfold State.examine at scan ⊢
  dsimp only at scan ⊢
  rw [on, if_pos rfl] at scan ⊢
  exact congrArg (fun c => { (s.setSrc s.scan.pointer ((s.src s.scan.pointer).examined s.clock.tod)).healthMoved s.scan.pointer
      (s.src s.scan.pointer).health with scan := c }) scan

/-! ### What an examination moves -/

variable {s : State} {i : SrcNo} {x : Source} {before : Health}

/-- A change of health is told, and the marks and changes it brings are those of the state that it makes. -/
theorem State.healthChanged_moves (table : x.table = (s.src i).table) :
    let t := ((s.setSrc i x).healthTold i before).healthChanged i
    OnlyStacks (s.setSrc i x) t ∧ ∀ judged : FeedNo → PosNo → Position,
      (∀ f k, judged f k = { s.pos f k with
        baseMark := if (s.pos f k).base = some i ∨ (s.pos f k).fallback = some i then t.markFor (s.pos f k).base (s.pos f k).fallback
          else (s.pos f k).baseMark
        upper := (s.pos f k).upper.map fun e => if e.source = i ∨ (s.pos f k).fallback = some i then
          { e with mark := t.markFor (some e.source) (s.pos f k).fallback } else e }) →
      (∀ f k, t.pos f k = (s.handedOver f k (judged f k) ((judged f k).policyOfMarks (s.pos f k).policy) none).pos f k) ∧
      ∀ q, t.port q = ((s.overtaken judged).port q).told (if x.table.noticePermit = false then 0
        else if x.health = .faulted then 0x004 else if before = .faulted then 0x008 else 0) := by
  intro t
  have told := State.healthTold_only (s.setSrc i x) i before
  have port := State.healthTold_port (s.setSrc i x) i before
  obtain ⟨only, positions, ports⟩ := ((s.setSrc i x).healthTold i before).judgeAll_moves fun x a => decide (x.fallback = some i) || decide (a = some i)
  rw [← State.healthChanged_eq] at only positions ports
  have here : (s.setSrc i x).src i = x := by rw [State.src_setSrc, if_pos rfl]
  rw [here] at port
  have marks : t.markFor = ((s.setSrc i x).healthTold i before).markFor := only.judge.markFor
  refine ⟨told.moves.stacks.trans only, fun judged shape => ?_⟩
  have same : (fun f p => ((s.setSrc i x).healthTold i before).judged (((s.setSrc i x).healthTold i before).pos f p)
      fun a => decide ((((s.setSrc i x).healthTold i before).pos f p).fallback = some i) || decide (a = some i)) = judged := by
    funext f p
    rw [shape, marks, show ((s.setSrc i x).healthTold i before).pos f p = s.pos f p from told.pos f p]
    unfold State.judged
    simp only [Bool.or_eq_true, decide_eq_true_eq, Option.some.injEq, or_comm]
  rw [same] at positions ports
  refine ⟨fun f k => ?_, fun q => ?_⟩
  · have place : ((s.setSrc i x).healthTold i before).pos f k = s.pos f k := told.pos f k
    refine (positions f k).trans ?_
    rw [handedOver_pos, place]
    refine State.handedAt_congr (by rw [told.feed]; rfl) place (fun j => ?_) _ _ _
    rw [told.src, State.src_setSrc]
    split
    · rename_i e; rw [table, e]
    · rfl
  · have same : t.port q = (((s.setSrc i x).healthTold i before).overtaken judged).port q := by unfold State.port; rw [ports]
    rw [same]
    exact State.overtaken_told judged (port q) told.moves.stacks.clock told.moves.stacks.feeds told.positions

/-- What the examination of an enabled source leaves: the source examined, rings that may free packets, and where its health changed,
the marks, the changes handed over, the records and the notices (R102, R106, R107, R51). -/
theorem State.examine_moves {s : State} (on : (s.src s.scan.pointer).table.enabled = true) :
    ∃ v, s.examine = { v with scan := s.scan.next } ∧
      OnlyStacks (s.setSrc s.scan.pointer ((s.src s.scan.pointer).examined s.clock.tod)) v ∧
      (((s.src s.scan.pointer).examined s.clock.tod).health = (s.src s.scan.pointer).health →
        v = s.setSrc s.scan.pointer ((s.src s.scan.pointer).examined s.clock.tod)) ∧
      (((s.src s.scan.pointer).examined s.clock.tod).health ≠ (s.src s.scan.pointer).health →
        v = ((s.setSrc s.scan.pointer ((s.src s.scan.pointer).examined s.clock.tod)).healthTold s.scan.pointer
          (s.src s.scan.pointer).health).healthChanged s.scan.pointer) := by
  have here : (s.setSrc s.scan.pointer ((s.src s.scan.pointer).examined s.clock.tod)).src s.scan.pointer =
    (s.src s.scan.pointer).examined s.clock.tod := by rw [State.src_setSrc, if_pos rfl]
  refine ⟨_, State.examine_enabled on, healthMoved_frame _ _ _, fun same => ?_, fun moved => ?_⟩
  · rw [State.healthMoved_eq, here, if_pos same]
  · rw [State.healthMoved_eq, here, if_neg moved]

/-- The sources after a change of one of them that may free packets from every ring. -/
theorem OnlyStacks.src_trimmed {s v : State} {i : SrcNo} {x : Source} (h : OnlyStacks (s.setSrc i x) v) :
    (∃ ring, v.src i = { x with ring := ring } ∧ ring <:+ x.ring) ∧ ∀ j, j ≠ i → (s.src j).trimmedTo (v.src j) := by
  obtain ⟨_, w, _, rfl, freed, _⟩ := h
  constructor
  · obtain ⟨n, e⟩ := freed i
    refine ⟨x.ring.drop n, ?_, List.drop_suffix _ _⟩
    rw [show tget (s.setSrc i x).sources i = x from (State.src_setSrc s i i x).trans (if_pos rfl)] at e
    exact e
  · intro j ne
    have trimmed := Freed.trimmedTo (s := s.setSrc i x) freed j
    rw [State.src_setSrc, if_neg (Ne.symm ne)] at trimmed
    exact trimmed

/-- Settles O19: the verdict of the checks, and by `State.healthChanged_moves` what a change of health moves. -/
theorem sourceExamined : Obligations.SourceExamined := by
  unfold Obligations.SourceExamined
  intro s
  dsimp only
  cases on : (s.src s.scan.pointer).table.enabled with
  | false =>
    rw [State.examine_disabled on]
    have here : (s.setSrc s.scan.pointer (s.src s.scan.pointer).resetInterval).src s.scan.pointer = (s.src s.scan.pointer).resetInterval := by
      rw [State.src_setSrc, if_pos rfl]
    have others : ∀ j, j ≠ s.scan.pointer → (s.setSrc s.scan.pointer (s.src s.scan.pointer).resetInterval).src j = s.src j := fun j ne => by
      rw [State.src_setSrc, if_neg (Ne.symm ne)]
    generalize hu : s.setSrc s.scan.pointer (s.src s.scan.pointer).resetInterval = u at here others
    rw [show ({ u with scan := s.scan.next } : State).src = u.src from rfl, here]
    refine ⟨rfl, rfl, List.suffix_refl _, by rw [← hu]; rfl, ⟨rfl, rfl, rfl, rfl, rfl, rfl⟩, fun _ => ⟨rfl, rfl, rfl, rfl, rfl, ?_, ?_⟩,
      fun k => absurd k (by decide), fun j ne => ?_⟩
    · rw [← hu]; rfl
    · rw [← hu]; rfl
    · rw [others j ne]; exact ⟨rfl, List.suffix_refl _⟩
  | true =>
    obtain ⟨v, examined, only, same, moved⟩ := State.examine_moves on
    obtain ⟨⟨ring, here, suffix⟩, others⟩ := only.src_trimmed
    obtain ⟨y, hy, shape, badCount, goodCount, verdict, health, latched⟩ := (s.src s.scan.pointer).examined_eq s.clock.tod
    have changed := fun k => State.healthChanged_moves (s := s) (i := s.scan.pointer) (x := y) (before := (s.src s.scan.pointer).health)
      (by rw [shape]) |>.2 k
    rw [hy] at only same moved here suffix
    have mark : s.examine.markFor = v.markFor := by rw [examined]; rfl
    have ports : ∀ q, s.examine.port q = v.port q := fun q => by rw [examined]; rfl
    have places : ∀ f k, s.examine.pos f k = v.pos f k := fun f k => by rw [examined]; rfl
    have source : s.examine.src = v.src := by rw [examined]; rfl
    rw [mark, source, here]
    refine ⟨by rw [examined]; rfl, by rw [shape], ?_, ?_, ?_, fun k => absurd k (by decide), fun _ causes bad sync continuity rate clock hbad => ?_, others⟩
    · rw [shape] at suffix; exact suffix
    · obtain ⟨_, _, _, e, _⟩ := only
      rw [examined, e]
      rfl
    · rw [shape]; exact ⟨rfl, rfl, rfl, rfl, rfl, rfl⟩
    · have verdict' := Source.causes_eq sync continuity rate clock
      have any : (s.src s.scan.pointer).causes.any = bad := by rw [verdict', hbad]; rfl
      rw [any] at badCount goodCount verdict health
      rw [verdict'] at latched verdict
      refine ⟨badCount, goodCount, verdict, fun well => health.trans (Source.healthAfter_well bad well),
        fun faulted => health.trans (Source.healthAfter_faulted bad faulted), latched, fun kept => ?_, fun change => ?_⟩
      · rw [examined, same kept]
        exact ⟨rfl, rfl⟩
      · have place := moved change
        obtain ⟨positions, told⟩ := changed _ fun f k => by rw [← place]
        rw [← place] at positions told
        refine ⟨fun f k => (places f k).trans (positions f k), fun q => (ports q).trans ((told q).trans ?_)⟩
        rw [show y.table = (s.src s.scan.pointer).table by rw [shape]]
        rfl

end Sys2Proof.Machine
end

section
/-! SUPPORT. A frame event: what becomes of the entries of the list, and the work of a frame event as one sequence of pieces (02 2.6, 2.7,
R10). -/

namespace Sys2Proof.Machine

/-! ### The fate of an entry -/

/-- An entry fires or stays as R24 and R31 say, or is discarded. -/
theorem Entry.fate_eq (e : Entry) (loaded : Bool) (now : Nat) (r : FrameRate) : e.fate loaded now r.day =
    if e.firesAt loaded now r.day then .fires (e.late || (loaded && decide (r.day - 50 < distance e.due now r.day)))
    else if e.staysAt loaded now r.day then .stays else .discarded := by
  have bounds := r.day_bounds
  unfold Entry.fate Entry.firesAt Entry.staysAt
  rw [show (e.due + r.day - now % r.day) % r.day = distance e.due now r.day from rfl]
  generalize distance e.due now r.day = d
  cases e.late
  · cases loaded
    · by_cases due : e.due = now <;> simp [due]
    · simp only [Bool.false_eq_true, if_false, if_true, Bool.false_or, Bool.not_false, Bool.true_and, decide_eq_true_eq]
      by_cases zero : d = 0
      · simp [zero]
      · rw [if_neg zero]
        by_cases near : r.day - 50 < d
        · rw [show timing d r.day = .late from if_pos (.inr near)]
          simp [near]
        · have apart : ¬(d = 0 ∨ r.day - 50 < d) := fun h => h.elim zero near
          rw [if_neg apart]
          by_cases half : d ≤ r.day / 2
          · rw [show timing d r.day = .scheduled from (if_neg apart).trans (if_pos half), if_pos ⟨by omega, half⟩]
          · rw [show timing d r.day = .past from (if_neg apart).trans (if_neg half), if_neg fun h => half h.2]
  · simp

/-! ### The pass -/

/-- An entry as it fires at a frame event: its late mark set where a time load made it late (R31). -/
def State.firing (s : State) (loaded : Bool) (e : Entry) : Entry :=
  { e with late := e.late || (loaded && decide (s.day - 50 < (e.due + s.day - s.now % s.day) % s.day)) }

theorem State.entryWork_fires {loaded : Bool} {s : State} {e : Entry} (h : e.firesAt loaded s.now s.day = true) :
    s.entryWork loaded e = (s.applyCue (s.firing loaded e) true).1.fire (s.applyCue (s.firing loaded e) true).2 := if_pos h

theorem State.entryWork_stays {loaded : Bool} {s : State} {e : Entry} (h : ¬e.firesAt loaded s.now s.day = true)
    (h' : e.staysAt loaded s.now s.day = true) : s.entryWork loaded e = (s.applyCue e false).1 := (if_neg h).trans (if_pos h')

theorem State.entryWork_discards {loaded : Bool} {s : State} {e : Entry} (h : ¬e.firesAt loaded s.now s.day = true)
    (h' : ¬e.staysAt loaded s.now s.day = true) : s.entryWork loaded e = s.discard e := (if_neg h).trans (if_neg h')

theorem State.entryWork_clock (loaded : Bool) (s : State) (e : Entry) : (s.entryWork loaded e).clock = s.clock := by
  unfold State.entryWork
  dsimp only
  split
  · exact (fire_frame _ _).clock.trans (applyCue_frame _ _ _).clock
  · split
    · exact (applyCue_frame _ _ _).clock
    · exact (addOutcome_frame s _ _).clock

theorem State.foldl_entryWork_clock (loaded : Bool) (l : List Entry) (s : State) : (l.foldl (State.entryWork loaded) s).clock = s.clock :=
  foldl_keeps (fun t => t.clock = s.clock) _ (fun t e h => (State.entryWork_clock loaded t e).trans h) l s rfl

/-- An entry that stays, with its cue (R23). -/
def Entry.kept (now day : Nat) (e : Entry) : Entry :=
  { e with cued := e.cued || e.cue.any fun c => decide ((e.due + day - now % day) % day ≤ c.lead) }

theorem Entry.kept_same {now day : Nat} {e : Entry} (h : ∀ c, e.cue = some c → e.cued = true ∨ c.lead < distance e.due now day) :
    e.kept now day = e := by
  have same : (e.cued || e.cue.any fun c => decide ((e.due + day - now % day) % day ≤ c.lead)) = e.cued := by
    cases cued : e.cued
    · cases hc : e.cue with
      | none => rfl
      | some c =>
        have far := (h c hc).resolve_left (by simp [cued])
        change decide (distance e.due now day ≤ c.lead) = false
        simpa using far
    · rfl
  unfold Entry.kept
  rw [same]

theorem State.applyCue_kept (s : State) (e : Entry) : (s.applyCue e false).2 = e.kept s.now s.day := by
  by_cases comes : ∃ c, e.cue = some c ∧ e.cued = false ∧ distance e.due s.now s.day ≤ c.lead
  · obtain ⟨c, cue, fresh, near⟩ := comes
    rw [State.applyCue_taken cue fresh (.inr near)]
    have set : (e.cued || e.cue.any fun c => decide ((e.due + s.day - s.now % s.day) % s.day ≤ c.lead)) = true := by
      rw [fresh, cue]
      exact decide_eq_true near
    unfold Entry.kept
    rw [set]
  · have stays : ∀ c, e.cue = some c → e.cued = true ∨ c.lead < distance e.due s.now s.day := fun c cue => by
      by_contra h
      rw [not_or, not_lt] at h
      exact comes ⟨c, cue, by simpa using h.1, h.2⟩
    rw [State.applyCue_none fun c cue => (stays c cue).imp_right fun k => ⟨rfl, k⟩, Entry.kept_same stays]

/-- The pass takes each entry in list order and leaves those that stay (R24, R31). -/
theorem passEntries_eq (loaded : Bool) (l : List Entry) (s : State) : passEntries loaded l s =
    (l.foldl (State.entryWork loaded) s, (l.filter fun e => e.staysAt loaded s.now s.day).map (Entry.kept s.now s.day)) := by
  induction l generalizing s with
  | nil => rfl
  | cons e l ih =>
    have next : ∀ t : State, t.clock = s.clock → passEntries loaded l t =
        (l.foldl (State.entryWork loaded) t, (l.filter fun e => e.staysAt loaded s.now s.day).map (Entry.kept s.now s.day)) := fun t ht => by
      rw [ih]
      unfold State.now State.day
      rw [ht]
    have fate : e.fate loaded s.now s.day = if e.firesAt loaded s.now s.day then
        .fires (e.late || (loaded && decide (s.day - 50 < distance e.due s.now s.day)))
      else if e.staysAt loaded s.now s.day then .stays else .discarded := e.fate_eq loaded s.now s.clock.rate
    unfold passEntries
    rw [List.foldl_cons]
    by_cases fires : e.firesAt loaded s.now s.day = true
    · have stays : e.staysAt loaded s.now s.day = false := by
        unfold Entry.firesAt at fires
        unfold Entry.staysAt
        have bounds := s.clock.rate.day_bounds
        change 2160000 ≤ s.day ∧ _ at bounds
        generalize (e.due + s.day - s.now % s.day) % s.day = d at fires ⊢
        cases late : e.late
        · cases loaded
          · simpa [late] using fires
          · simp only [late, Bool.false_or, if_true, decide_eq_true_eq] at fires
            simp only [Bool.not_false, Bool.true_and, if_true, decide_eq_false_iff_not]
            omega
        · rfl
      rw [if_pos fires] at fate
      rw [fate, List.filter_cons_of_neg (by simp [stays])]
      rw [State.entryWork_fires fires]
      exact next _ ((fire_frame _ _).clock.trans (applyCue_frame _ _ _).clock)
    · rw [if_neg fires] at fate
      by_cases stays : e.staysAt loaded s.now s.day = true
      · rw [if_pos stays] at fate
        rw [fate, List.filter_cons_of_pos (p := fun x : Entry => x.staysAt loaded s.now s.day) stays]
        dsimp only
        rw [next _ (applyCue_frame _ _ _).clock, State.entryWork_stays fires stays, State.applyCue_kept]
        rfl
      · rw [if_neg stays] at fate
        rw [fate, List.filter_cons_of_neg (p := fun x : Entry => x.staysAt loaded s.now s.day) stays]
        rw [State.entryWork_discards fires stays]
        exact next _ (addOutcome_frame s _ _).clock

theorem State.pass_eq (s : State) (loaded : Bool) : s.pass loaded = { s.list.entries.foldl (State.entryWork loaded) s with
    list := { s.list with
      entries := (s.list.entries.filter fun e => e.staysAt loaded s.now s.day).map (Entry.kept s.now s.day) } } := by
  have list : (s.list.entries.foldl (State.entryWork loaded) s).list = s.list := by
    have e := (passEntries_frame loaded s.list.entries s).list
    rwa [passEntries_eq] at e
  unfold State.pass
  rw [passEntries_eq]
  dsimp only
  rw [list]

/-! ### The work of a frame event -/

/-- The work of a frame event after the clock's part and the counts, but for the reload of the shares. -/
@[irreducible] def State.frameWorks (s : State) (loaded : Bool) (order : FrameOrder) : State :=
  let s := s.frameTasks order.first
  let s := if order.examineFirst then s.examine else s.pass loaded
  let s := s.frameTasks order.between
  let s := if order.examineFirst then s.pass loaded else s.examine
  let s := s.frameTasks order.last
  s.frameTasks (allFeeds.map .swap ++ allFeeds.map .start)

theorem State.frameEvent_eq (s : State) (order : FrameOrder) : s.frameEvent order =
    { s.clockFrame.counts.frameWorks s.clock.load.isSome order with
      feeds := tmap Feed.reloadRunning (s.clockFrame.counts.frameWorks s.clock.load.isSome order).feeds } := by
  unfold State.frameWorks
  rfl

/-- An entry as it is when it fires: its cue and its late mark may have been set. -/
def Entry.Fired (e e' : Entry) : Prop := ∃ late cued, e' = { e with late := late, cued := cued }

theorem applyCue_fired (s : State) (e : Entry) (b late : Bool) : e.Fired (s.applyCue { e with late := late } b).2 := by
  unfold State.applyCue
  split
  · split
    · exact ⟨_, _, rfl⟩
    · exact ⟨_, _, rfl⟩
  · exact ⟨_, _, rfl⟩

theorem applyCue_lines (s : State) (e : Entry) (b : Bool) : ∃ v, (s.applyCue e b).1 = { s with lines := v } := by
  unfold State.applyCue
  split
  · split
    · exact ⟨_, rfl⟩
    · exact ⟨_, rfl⟩
  · exact ⟨_, rfl⟩

/-- What holds through a frame event: what every piece of its work keeps, whichever order they come in. The flag tells whether the source
at the scan pointer has been examined. -/
structure ThroughFrame (b : State) (loaded : Bool) (P : Bool → State → Prop) : Prop where
  task : ∀ x u k, u.clock = b.clock → P x u → P x (u.frameTask k)
  cue : ∀ x u v, P x u → P x { u with lines := v }
  record : ∀ x u p r, P x u → P x (State.addOutcome u p r)
  fire : ∀ x u e e', e ∈ b.list.entries → e.firesAt loaded b.now b.day = true → e.Fired e' → u.clock = b.clock → P x u → P x (u.fire e')
  list : ∀ x u v, P x u → P x { u with list := v }
  examine : ∀ u, u.clock = b.clock → u.scan = b.scan → P false u → P true u.examine

section
variable {b : State} {loaded : Bool} {P : Bool → State → Prop}

theorem ThroughFrame.tasks (h : ThroughFrame b loaded P) (l : List FrameTask) {x : Bool} {u : State} (clock : u.clock = b.clock) (hu : P x u) :
    P x (u.frameTasks l) := by
  have kept : (u.frameTasks l).clock = b.clock ∧ P x (u.frameTasks l) :=
    foldl_keeps (fun t => t.clock = b.clock ∧ P x t) State.frameTask
      (fun t k h' => ⟨(frameTask_frame t k).clock.trans h'.1, h.task x t k h'.1 h'.2⟩) l u ⟨clock, hu⟩
  exact kept.2

theorem ThroughFrame.entries (h : ThroughFrame b loaded P) (l : List Entry) (mem : ∀ e ∈ l, e ∈ b.list.entries) {x : Bool} {u : State}
    (clock : u.clock = b.clock) (hu : P x u) : P x (l.foldl (State.entryWork loaded) u) := by
  induction l generalizing u with
  | nil => exact hu
  | cons e l ih =>
    refine ih (fun e he => mem e (List.mem_cons_of_mem _ he)) ((State.entryWork_clock _ _ _).trans clock) ?_
    have now : u.now = b.now := by unfold State.now; rw [clock]
    have day : u.day = b.day := by unfold State.day; rw [clock]
    unfold State.entryWork
    dsimp only
    split
    · rename_i fires
      rw [now, day] at fires
      obtain ⟨v, cue⟩ := applyCue_lines u { e with late := e.late || (loaded && decide (u.day - 50 < (e.due + u.day - u.now % u.day) % u.day)) } true
      refine h.fire x _ e _ (mem e List.mem_cons_self) fires (applyCue_fired _ _ _ _) ((applyCue_frame _ _ _).clock.trans clock) ?_
      rw [cue]
      exact h.cue x u v hu
    · split
      · obtain ⟨v, cue⟩ := applyCue_lines u e false
        rw [cue]
        exact h.cue x u v hu
      · exact h.record x u _ _ hu

theorem ThroughFrame.pass (h : ThroughFrame b loaded P) {x : Bool} {u : State} (clock : u.clock = b.clock) (list : u.list = b.list) (hu : P x u) :
    P x (u.pass loaded) := by
  rw [State.pass_eq]
  exact h.list x _ _ (h.entries _ (fun e he => by rwa [list] at he) clock hu)

theorem frameTasks_scan (s : State) (l : List FrameTask) : SameScan s (s.frameTasks l) :=
  foldl_rel SameScan SameScan.rfl' SameScan.trans _ frameTask_scan l s

theorem State.entryWork_scan (loaded : Bool) (s : State) (e : Entry) : SameScan s (s.entryWork loaded e) := by
  have cue : ∀ e b, SameScan s (s.applyCue e b).1 := fun e b => by
    obtain ⟨v, h⟩ := applyCue_lines s e b
    rw [h]; rfl
  unfold State.entryWork
  dsimp only
  split
  · exact (cue _ _).trans (fire_scan _ _)
  · split
    · exact cue _ _
    · exact (addOutcome_frame s _ _).scan

/-- A pass leaves the clock and the scan alone. -/
theorem State.pass_same (s : State) (loaded : Bool) : (s.pass loaded).clock = s.clock ∧ (s.pass loaded).scan = s.scan := by
  rw [State.pass_eq]
  exact ⟨State.foldl_entryWork_clock _ _ _, foldl_rel SameScan SameScan.rfl' SameScan.trans _ (State.entryWork_scan loaded) _ _⟩

/-- Through a whole frame event. -/
theorem ThroughFrame.works (h : ThroughFrame b loaded P) (order : FrameOrder) (hb : P false b) : P true (b.frameWorks loaded order) := by
  have task : ∀ (l : List FrameTask) (u : State), (u.frameTasks l).clock = u.clock ∧ (u.frameTasks l).scan = u.scan ∧
      (u.frameTasks l).list = u.list := fun l u =>
    ⟨(frameTasks_frame u l).clock, frameTasks_scan u l, (frameTasks_frame u l).list⟩
  obtain ⟨clock₁, scan₁, list₁⟩ := task order.first b
  have first := h.tasks order.first rfl hb
  unfold State.frameWorks
  dsimp only
  generalize b.frameTasks order.first = u at clock₁ scan₁ list₁ first
  cases order.examineFirst
  · have passed := h.pass clock₁ list₁ first
    obtain ⟨clock₂, scan₂⟩ := u.pass_same loaded
    obtain ⟨clock₃, scan₃, -⟩ := task order.between (u.pass loaded)
    have clock : ((u.pass loaded).frameTasks order.between).clock = b.clock := clock₃.trans (clock₂.trans clock₁)
    have between := h.tasks order.between (clock₂.trans clock₁) passed
    have examined := h.examine _ clock (scan₃.trans (scan₂.trans scan₁)) between
    have clock' := (examine_frame ((u.pass loaded).frameTasks order.between)).clock.trans clock
    exact h.tasks _ ((task order.last _).1.trans clock') (h.tasks order.last clock' examined)
  · have examined := h.examine u clock₁ scan₁ first
    have clock₂ := (examine_frame u).clock.trans clock₁
    obtain ⟨clock₃, -, list₃⟩ := task order.between u.examine
    have between := h.tasks order.between clock₂ examined
    have passed := h.pass (clock₃.trans clock₂) (list₃.trans ((examine_frame u).list.trans list₁)) between
    have clock' := (State.pass_same (u.examine.frameTasks order.between) loaded).1.trans (clock₃.trans clock₂)
    exact h.tasks _ ((task order.last _).1.trans clock') (h.tasks order.last clock' passed)

end

end Sys2Proof.Machine
end

section
/-! SUPPORT. A frame event: the records that its pieces make, and what becomes of the sources and of the scan (R101, R102, R159). -/

namespace Sys2Proof.Machine

/-! ### Records made -/

/-- The ports of the second state are those of the first with records added to their logs. -/
def Recorded (s t : State) : Prop := ∀ q, ∃ l : List Outcome, t.port q = l.foldl ControlPort.recorded (s.port q)

theorem Recorded.of_ports {s t : State} (h : t.ports = s.ports) : Recorded s t := fun q => ⟨[], by unfold State.port; rw [h]; rfl⟩

theorem Recorded.rfl' (s : State) : Recorded s s := .of_ports rfl

theorem Recorded.trans {s t u : State} (a : Recorded s t) (b : Recorded t u) : Recorded s u := fun q => by
  obtain ⟨l, hl⟩ := a q
  obtain ⟨m, hm⟩ := b q
  exact ⟨l ++ m, by rw [hm, hl, List.foldl_append]⟩

theorem OnlySources.recorded {s t : State} (h : OnlySources s t) : Recorded s t := .of_ports h.ports

theorem addOutcome_recorded (s : State) (p : PortNo) (r : Outcome) : Recorded s (s.addOutcome p r) := fun q => by
  rw [State.addOutcome_port]
  split
  · exact ⟨[r], rfl⟩
  · exact ⟨[], rfl⟩

theorem ownerDone_recorded (s : State) (f : FeedNo) (p : PosNo) (o : Option Owner) (fl : OutcomeFlags) :
    Recorded s (s.ownerDone f p o fl) := by
  cases o with
  | none => exact .rfl' s
  | some o => exact addOutcome_recorded s _ _

theorem setPos_recorded (s : State) (f : FeedNo) (p : PosNo) (x : Position) : Recorded s (s.setPos f p x) := .of_ports rfl

theorem takeChange_recorded (s : State) (f : FeedNo) (p : PosNo) (t : Option SrcNo) (policy : Splice) (o : Option Owner) :
    Recorded s (s.takeChange f p t policy o) := by
  have now : ∀ u : State, Recorded u ((u.switchNow f p t).ownerDone f p o .none) := fun u =>
    (Recorded.of_ports (State.switchNow_ports u f p t)).trans (ownerDone_recorded _ _ _ _ _)
  cases hslot : (s.pos f p).slot with
  | steady =>
    by_cases hair : t = (s.pos f p).onAirSource
    · rw [State.takeChange_steady_onAir o hslot hair]
      exact ownerDone_recorded _ _ _ _ _
    · cases hwait : s.searchWait f p t policy with
      | none => rw [State.takeChange_steady_now o hslot hair hwait]; exact now s
      | some w =>
        cases t with
        | none => rw [State.searchWait_none] at hwait; cases hwait
        | some i => rw [State.takeChange_steady_search o hslot hair hwait]; exact .of_ports (State.seek_ports s f p i w o)
  | seeking j v old =>
    have overtaken := ownerDone_recorded s f p old ⟨false, false, false, false, true⟩
    by_cases hair : t = (s.pos f p).onAirSource
    · rw [State.takeChange_seeking_onAir o hslot hair]
      exact overtaken.trans ((setPos_recorded _ f p _).trans ((trim_frame _ j).recorded.trans (ownerDone_recorded _ _ _ _ _)))
    · cases hwait : s.searchWait f p t policy with
      | none => rw [State.takeChange_seeking_now o hslot hair hwait]; exact overtaken.trans (now _)
      | some w =>
        cases t with
        | none => rw [State.searchWait_none] at hwait; cases hwait
        | some i =>
          rw [State.takeChange_seeking_search o hslot hair hwait]
          exact overtaken.trans (.of_ports (State.seek_ports _ f p i v o))

theorem handOver_recorded (s : State) (f : FeedNo) (p : PosNo) (b : Option SrcNo) (policy : Splice) (o : Option Owner) :
    Recorded s (s.handOver f p b policy o) := by
  unfold State.handOver
  split
  · exact takeChange_recorded _ _ _ _ _ _
  · exact .rfl' s

theorem endWindows_recorded (s : State) (f : FeedNo) (p : PosNo) : Recorded s (s.endWindows f p) := by
  unfold State.endWindows
  exact ((setPos_recorded s f p _).trans (handOver_recorded _ _ _ _ _ _)).trans
    (foldl_rel Recorded Recorded.rfl' Recorded.trans _ (fun s _ => addOutcome_recorded s _ _) _ _)

theorem forceSwitch_recorded (s : State) (f : FeedNo) (p : PosNo) : Recorded s (s.forceSwitch f p) := by
  unfold State.forceSwitch
  split
  · exact (Recorded.of_ports (State.switchNow_ports s f p (some _))).trans (ownerDone_recorded _ _ _ _ _)
  · exact .rfl' s

theorem attachPosition_ports (s : State) (f : FeedNo) (p : PosNo) : (s.attachPosition f p).ports = s.ports := by
  obtain ⟨_, _, e, _⟩ := attachPosition_frame s f p
  rw [e]

theorem healthChanged_recorded (s : State) (i : SrcNo) : Recorded s (s.healthChanged i) :=
  foldl_rel Recorded Recorded.rfl' Recorded.trans _
    (fun s _ => (setPos_recorded s _ _ _).trans (handOver_recorded _ _ _ _ _ _)) _ s

theorem entryStacked_recorded (s : State) (e : Entry) (b : Option SrcNo) (hidden : Bool) : Recorded s (s.entryStacked e b hidden) := by
  unfold State.entryStacked
  split
  · exact takeChange_recorded _ _ _ _ _ _
  · exact addOutcome_recorded _ _ _

/-- An entry that changes no plan makes records alone. -/
theorem fire_recorded (s : State) (e : Entry) (h : e.action ≠ .plan) : Recorded s (s.fire e) := by
  unfold State.fire
  cases action : e.action with
  | take =>
    simp only [State.fireTake]
    split
    · exact addOutcome_recorded _ _ _
    · exact (setPos_recorded _ _ _ _).trans (entryStacked_recorded _ _ _ _)
  | giveBack =>
    simp only [State.fireReturn]
    split
    · exact (setPos_recorded _ _ _ _).trans (entryStacked_recorded _ _ _ _)
    · exact addOutcome_recorded _ _ _
  | base => exact (setPos_recorded _ _ _ _).trans (entryStacked_recorded _ _ _ _)
  | plan => exact absurd action h
  | cue => exact addOutcome_recorded _ _ _

/-! ### The source examined -/

/-- The source at the scan pointer as its examination leaves it (R99, R102, R104). -/
def Source.visited (x : Source) (tod : TimeOfDay) : Source := if x.table.enabled then x.examined tod else x.resetInterval

/-- It is visited as it would be with another ring. -/
theorem Source.visited_ring (x : Source) (l : List Packet) (tod : TimeOfDay) :
    ({ x with ring := l } : Source).visited tod = { x.visited tod with ring := l } := by
  unfold Source.visited
  cases x.table.enabled <;> simp <;> rfl

theorem SourcesFreed.setSrc {s t : State} (h : SourcesFreed s t) (i : SrcNo) {x y : Source} {n : Nat}
    (hy : y = { x with ring := x.ring.drop n }) : SourcesFreed (s.setSrc i x) (t.setSrc i y) := fun j => by
  by_cases e : i = j
  · subst e
    refine ⟨n, ?_⟩
    simpa only [State.setSrc, tget_tset, if_pos] using hy
  · obtain ⟨m, hm⟩ := h j
    refine ⟨m, ?_⟩
    simpa only [State.setSrc, tget_tset, if_neg e] using hm

theorem examine_freed (s : State) :
    SourcesFreed (s.setSrc s.scan.pointer ((s.src s.scan.pointer).visited s.clock.tod)) s.examine := by
  unfold Source.visited
  cases on : (s.src s.scan.pointer).table.enabled with
  | false =>
    rw [State.examine_disabled on]
    exact .rfl' _
  | true =>
    rw [State.examine_enabled on]
    exact (healthMoved_frame (s.setSrc s.scan.pointer ((s.src s.scan.pointer).examined s.clock.tod)) s.scan.pointer
      (s.src s.scan.pointer).health).freed

/-- The sources of a frame event's state: those before it, packets freed, and the one at the scan pointer examined. -/
structure State.SourcesAt (b : State) (x : Bool) (u : State) : Prop where
  scan : u.scan = if x then b.scan.next else b.scan
  freed : SourcesFreed (if x then b.setSrc b.scan.pointer ((b.src b.scan.pointer).visited b.clock.tod) else b) u

theorem State.SourcesAt.next {b u t : State} {x : Bool} (h : b.SourcesAt x u) (scan : SameScan u t) (freed : SourcesFreed u t) : b.SourcesAt x t :=
  ⟨Eq.trans scan h.scan, h.freed.trans freed⟩

theorem State.SourcesAt.examine {b u : State} (h : b.SourcesAt false u) (clock : u.clock = b.clock) : b.SourcesAt true u.examine := by
  have scan : u.scan = b.scan := h.scan
  refine ⟨by rw [State.examine_scan, scan]; rfl, SourcesFreed.trans ?_ (examine_freed u)⟩
  obtain ⟨n, hn⟩ := h.freed b.scan.pointer
  change u.src b.scan.pointer = { b.src b.scan.pointer with ring := (b.src b.scan.pointer).ring.drop n } at hn
  have freed : SourcesFreed b u := h.freed
  rw [if_pos rfl, scan, clock]
  refine freed.setSrc b.scan.pointer (n := n) ?_
  rw [hn, Source.visited_ring]
  unfold Source.visited
  split <;> rfl

theorem State.sourcesThrough (b : State) (loaded : Bool) : ThroughFrame b loaded b.SourcesAt where
  task _ u k _ h := h.next (frameTask_scan u k) (frameTask_freed u k)
  cue _ _ _ h := ⟨h.scan, h.freed⟩
  record _ u p r h := h.next (addOutcome_frame u p r).scan (addOutcome_frame u p r).moves.freed
  fire _ u _ e' _ _ _ _ h := h.next (fire_scan u e') (fire_freed u e')
  list _ _ _ h := ⟨h.scan, h.freed⟩
  examine _ clock _ h := h.examine clock

end Sys2Proof.Machine
end

section
/-! SUPPORT. A frame event: what becomes of a feed, as a sequence of swaps, due-makings and a start (R119, R120, R123, R131). -/

namespace Sys2Proof.Machine

/-- One piece of a frame event's work at a feed, at the clock `c`; `plan` says whether a PLAN entry for the feed fires. -/
inductive Feed.Piece (c : Clock) (plan : Prop) : Feed → Feed → Prop
  | swap (x : Feed) (shares : Vector Nat 8) (carouselShare : Nat) : x.lastSwap.map Prod.fst ≠ some c.frameStart →
      (x.swapPending = true ∨ plan) → (x.running = false → shares = x.shares ∧ carouselShare = x.carouselShare) →
      Feed.Piece c plan x { x with
        activeB := !x.activeB, swapPending := false, lastSwap := some (c.frameStart, c.tod), shares := shares,
        carouselShare := carouselShare }
  | due (x : Feed) (k : TableNo) : x.dueMakingDue k = true → Feed.Piece c plan x (x.makeDue k)
  | start (x : Feed) : x.startPending = true → Feed.Piece c plan x (x.started c.frameStart)

/-- The work of a frame event at a feed. -/
def Feed.Worked (c : Clock) (plan : Prop) : Feed → Feed → Prop := Relation.ReflTransGen (Feed.Piece c plan)

section
variable {c : Clock} {plan : Prop} {x y z : Feed}

/-! ### Due-makings -/

theorem Feed.makeDue_eq {k : TableNo} (h : x.dueMakingDue k = true) : x.running = true ∧ ∃ t late, tget x.carousel k = some t ∧
    t.countdown = 0 ∧ x.makeDue k = { x with
      carousel := tset x.carousel k (some { t with countdown := t.interval, due := true }), counts := { x.counts with late := late } } := by
  unfold Feed.dueMakingDue at h
  rw [Bool.and_eq_true] at h
  obtain ⟨running, due⟩ := h
  refine ⟨running, ?_⟩
  unfold Feed.makeDue
  cases table : tget x.carousel k with
  | none => rw [table] at due; cases due
  | some t =>
    rw [table] at due
    dsimp only
    split
    · exact ⟨t, _, rfl, of_decide_eq_true due, rfl⟩
    · exact ⟨t, x.counts.late, rfl, of_decide_eq_true due, rfl⟩

/-! ### Swaps -/

/-- A feed has swapped at most once: not at all, or now, where it had not swapped at this frame event (R119, R120). -/
def Feed.SwappedOnce (c : Clock) (plan : Prop) (x y : Feed) : Prop :=
  y.swapPending = x.swapPending ∧ y.activeB = x.activeB ∧ y.lastSwap = x.lastSwap ∨
  x.lastSwap.map Prod.fst ≠ some c.frameStart ∧ (x.swapPending = true ∨ plan) ∧
    y.swapPending = false ∧ y.activeB = (!x.activeB) ∧ y.lastSwap = some (c.frameStart, c.tod)

theorem Feed.SwappedOnce.same (h : x.SwappedOnce c plan y) (pending : z.swapPending = y.swapPending) (active : z.activeB = y.activeB)
    (last : z.lastSwap = y.lastSwap) : x.SwappedOnce c plan z := by
  unfold Feed.SwappedOnce at h ⊢
  rwa [pending, active, last]

theorem Feed.Worked.swappedOnce (h : x.Worked c plan y) : x.SwappedOnce c plan y := by
  induction h with
  | refl => exact .inl ⟨rfl, rfl, rfl⟩
  | tail _ piece ih =>
    cases piece with
    | swap shares share fresh reason _ =>
      obtain ⟨pending, active, last⟩ | ⟨-, -, -, -, last⟩ := ih
      · rw [last] at fresh
        rw [pending] at reason
        exact .inr ⟨fresh, reason, rfl, by rw [active], rfl⟩
      · rw [last] at fresh
        exact absurd rfl fresh
    | due k due =>
      obtain ⟨-, t, late, -, -, e⟩ := Feed.makeDue_eq due
      rw [e]
      exact ih.same rfl rfl rfl
    | start _ => exact ih.same rfl rfl rfl

/-! ### Before the start -/

/-- A slot of a carousel as it was, or made due (R131). -/
def Feed.slotWorked (x y : Feed) (k : TableNo) : Prop :=
  tget y.carousel k = tget x.carousel k ∨ x.running = true ∧ ∃ t, tget x.carousel k = some t ∧ t.countdown = 0 ∧
    tget y.carousel k = some { t with countdown := t.interval, due := true }

/-- A feed whose swaps and due-makings have been taken, and no start. -/
structure Feed.Unstarted (x y : Feed) : Prop where
  rest : y = { x with
    activeB := y.activeB, swapPending := y.swapPending, lastSwap := y.lastSwap, shares := y.shares,
    carouselShare := y.carouselShare, carousel := y.carousel, counts := { x.counts with late := y.counts.late } }
  stopped : x.running = false → y.carousel = x.carousel ∧ y.counts = x.counts ∧ y.shares = x.shares ∧ y.carouselShare = x.carouselShare
  carousel : ∀ k, x.slotWorked y k

theorem Feed.Unstarted.rfl' (x : Feed) : x.Unstarted x := ⟨rfl, fun _ => ⟨rfl, rfl, rfl, rfl⟩, fun _ => .inl rfl⟩

theorem Feed.Unstarted.running (h : x.Unstarted y) : y.running = x.running := by rw [h.rest]
theorem Feed.Unstarted.startPending (h : x.Unstarted y) : y.startPending = x.startPending := by rw [h.rest]

theorem Feed.Unstarted.piece (h : x.Unstarted y) (p : Feed.Piece c plan y z) : x.Unstarted z ∨ y.startPending = true ∧ z = y.started c.frameStart := by
  obtain ⟨rest, stopped, carousel⟩ := h
  have running : y.running = x.running := by rw [rest]
  cases p with
  | swap shares share _ _ still =>
    refine .inl ⟨?_, fun off => ?_, carousel⟩
    · conv_lhs => rw [rest]
    · obtain ⟨e, e'⟩ := still (running.trans off)
      obtain ⟨tables, counts, hs, hs'⟩ := stopped off
      exact ⟨tables, counts, e.trans hs, e'.trans hs'⟩
  | due k due =>
    obtain ⟨on, t, late, table, zero, e⟩ := Feed.makeDue_eq due
    rw [e]
    refine .inl ⟨?_, fun off => ?_, fun j => ?_⟩
    · conv_lhs => rw [rest]
    · rw [running, off] at on; cases on
    · unfold Feed.slotWorked
      simp only [tget_tset]
      by_cases hk : k = j
      · subst hk
        rw [if_pos rfl]
        refine .inr ⟨running.symm.trans on, ?_⟩
        obtain same | ⟨_, t', table', zero', made⟩ := carousel k
        · exact ⟨t, same.symm.trans table, zero, rfl⟩
        · rw [table] at made
          obtain rfl := Option.some.inj made
          exact ⟨t', table', zero', rfl⟩
      · rw [if_neg hk]
        exact carousel j
  | start pending => exact .inr ⟨pending, rfl⟩

/-- A feed with no start pending is not started. -/
theorem Feed.Worked.unstarted (h : x.Worked c plan y) (idle : x.startPending = false) : x.Unstarted y := by
  induction h with
  | refl => exact .rfl' x
  | tail _ piece ih =>
    refine (ih.piece piece).resolve_right fun k => ?_
    rw [ih.startPending, idle] at k
    cases k.1

/-! ### The start -/

/-- A feed whose start has been taken (R123). -/
structure Feed.Begun (c : Clock) (x y : Feed) : Prop where
  rest : y = { x with
    running := true, startPending := false, departure := c.frameStart, remainder := 0, sharePtr := 7, sparePtr := 7,
    counters := [], counts := ⟨0, 0, 0, 0, 0, 0⟩, activeB := y.activeB, swapPending := y.swapPending,
    lastSwap := y.lastSwap, shares := y.shares, carouselShare := y.carouselShare, carousel := y.carousel }
  carousel : ∀ k, tget y.carousel k = (tget x.carousel k).map fun t => { t with countdown := t.interval, due := true }

theorem Feed.Unstarted.begun (h : x.Unstarted y) : x.Begun c (y.started c.frameStart) := by
  refine ⟨?_, fun k => ?_⟩
  · unfold Feed.started Feed.reload
    rw [h.rest]
    rfl
  · unfold Feed.started Feed.reload
    simp only [tget_tmap]
    obtain same | ⟨-, t, table, -, made⟩ := h.carousel k
    · rw [same]
    · rw [made, table]; rfl

theorem Feed.Begun.piece (h : x.Begun c y) (intervals : ∀ k t, tget x.carousel k = some t → 1 ≤ t.interval) (p : Feed.Piece c plan y z) :
    x.Begun c z := by
  obtain ⟨rest, carousel⟩ := h
  cases p with
  | swap shares share _ _ _ => exact ⟨by conv_lhs => rw [rest], carousel⟩
  | due k due =>
    obtain ⟨-, t, -, table, zero, -⟩ := Feed.makeDue_eq due
    rw [carousel k] at table
    obtain ⟨t', table', e⟩ := Option.map_eq_some_iff.1 table
    have long := intervals k t' table'
    subst e
    exact absurd (show t'.interval = 0 from zero) (by omega)
  | start pending => rw [rest] at pending; cases pending

/-- A feed with a start pending waits for it or has started. -/
theorem Feed.Worked.begun (h : x.Worked c plan y) (intervals : ∀ k t, tget x.carousel k = some t → 1 ≤ t.interval) :
    x.Unstarted y ∨ x.Begun c y := by
  induction h with
  | refl => exact .inl (.rfl' x)
  | tail _ piece ih =>
    obtain before | after := ih
    · obtain still | ⟨-, rfl⟩ := before.piece piece
      · exact .inl still
      · exact .inr before.begun
    · exact .inr (after.piece intervals piece)

/-- No start becomes pending. -/
theorem Feed.Worked.startPending (h : x.Worked c plan y) (pending : y.startPending = true) : x.startPending = true := by
  induction h with
  | refl => exact pending
  | tail _ piece ih =>
    cases piece with
    | swap _ _ _ _ _ => exact ih pending
    | due k due =>
      obtain ⟨-, t, late, -, -, e⟩ := Feed.makeDue_eq due
      rw [e] at pending
      exact ih pending
    | start _ => cases pending

end

/-! ### The pieces of a frame event -/

/-- A PLAN entry for the feed fires at the frame event (R28). -/
def State.firesPlan (b : State) (loaded : Bool) (f : FeedNo) : Prop :=
  ∃ e ∈ b.list.entries, e.firesAt loaded b.now b.day = true ∧ e.action = .plan ∧ e.feed = f

/-- The feeds of a frame event's state. -/
def State.FeedsAt (b : State) (loaded : Bool) (u : State) : Prop := ∀ f, (b.feed f).Worked b.clock (b.firesPlan loaded f) (u.feed f)

section
variable {b u t : State} {loaded : Bool}

theorem State.FeedsAt.same (h : b.FeedsAt loaded u) (feeds : t.feeds = u.feeds) : b.FeedsAt loaded t := fun f => by
  unfold State.feed
  rw [feeds]
  exact h f

theorem State.FeedsAt.set (h : b.FeedsAt loaded u) {f : FeedNo} {x : Feed} (p : Feed.Piece b.clock (b.firesPlan loaded f) (u.feed f) x) :
    b.FeedsAt loaded (u.setFeed f x) := fun g => by
  rw [State.feed_setFeed]
  split
  · rename_i e
    subst e
    exact (h f).tail p
  · exact h g

theorem State.FeedsAt.swap (h : b.FeedsAt loaded u) {f : FeedNo} (clock : u.clock = b.clock) (fresh : u.hasSwapped f = false)
    (reason : (u.feed f).swapPending = true ∨ b.firesPlan loaded f) : b.FeedsAt loaded (u.swapNow f) := by
  obtain ⟨ports, -, e⟩ := u.swapNow_eq f
  rw [e, clock]
  refine State.FeedsAt.same (u := u.setFeed f _) (h.set (.swap (u.feed f) _ _ ?_ reason fun off => ?_)) rfl
  · rw [← clock]
    exact of_decide_eq_false fresh
  · rw [off]
    exact ⟨rfl, rfl⟩

theorem State.FeedsAt.fire (h : b.FeedsAt loaded u) (clock : u.clock = b.clock) {e e' : Entry} (mem : e ∈ b.list.entries)
    (fires : e.firesAt loaded b.now b.day = true) (he : e.Fired e') : b.FeedsAt loaded (u.fire e') := by
  obtain ⟨late, cued, rfl⟩ := he
  have told : ∀ {v w : State}, OnlyPorts v w → b.FeedsAt loaded v → b.FeedsAt loaded w := fun o hv => hv.same o.feeds_eq
  unfold State.fire
  cases action : e.action with
  | take => exact h.same (fireTake_frame u _).feeds
  | giveBack => exact h.same (fireReturn_frame u _).feeds
  | base => exact h.same (fireBase_frame u _).feeds
  | cue => exact told (addOutcome_frame u _ _) h
  | plan =>
    simp only [State.firePlan]
    split
    · exact told (addOutcome_frame u _ _) h
    · rename_i fresh
      rw [Bool.or_eq_true, not_or] at fresh
      split
      · exact told (addOutcome_frame _ _ _) (h.swap clock (by simpa using fresh.1) (.inr ⟨e, mem, fires, action, rfl⟩))
      · exact told (addOutcome_frame u _ _) h

/-- A start, and the attaching of its positions, which writes no feed. -/
theorem State.takeStart_feeds (s : State) (f : FeedNo) : (s.takeStart f).feeds =
    if (s.feed f).startPending then (s.setFeed f ((s.feed f).started s.clock.frameStart)).feeds else s.feeds := by
  unfold State.takeStart
  split
  · exact foldl_keeps (fun t : State => t.feeds = (s.setFeed f ((s.feed f).started s.clock.frameStart)).feeds) _
      (fun t p h => (attachPosition_frame t f p).moves.stacks.feeds.trans h) _ _ rfl
  · rfl

theorem State.FeedsAt.task (h : b.FeedsAt loaded u) (clock : u.clock = b.clock) (k : FrameTask) : b.FeedsAt loaded (u.frameTask k) := by
  cases k with
  | windowEnd f p => exact h.same (endWindows_frame u f p).feeds
  | forcedSwitch f p => exact h.same (forceSwitch_frame u f p).stacks.feeds
  | dueMaking f c =>
    change b.FeedsAt loaded (u.makeDue f c)
    unfold State.makeDue
    split
    · rename_i due
      exact h.set (.due _ c due)
    · exact h
  | swap f =>
    change b.FeedsAt loaded (u.takeSwap f)
    unfold State.takeSwap
    split
    · rename_i due
      rw [Bool.and_eq_true, Bool.not_eq_true'] at due
      exact h.swap clock due.2 (.inl due.1)
    · exact h
  | start f =>
    refine State.FeedsAt.same (u := if (u.feed f).startPending then u.setFeed f ((u.feed f).started u.clock.frameStart) else u) ?_ ?_
    · split
      · rename_i pending
        rw [clock]
        exact h.set (.start _ pending)
      · exact h
    · refine (u.takeStart_feeds f).trans ?_
      split <;> rfl

end

theorem State.feedsThrough (b : State) (loaded : Bool) : ThroughFrame b loaded fun _ => b.FeedsAt loaded where
  task _ _ k clock h := h.task clock k
  cue _ _ _ h := h.same rfl
  record _ u p r h := h.same (addOutcome_frame u p r).feeds_eq
  fire _ _ _ _ mem fires he clock h := h.fire clock mem fires he
  list _ _ _ h := h.same rfl
  examine u _ _ h := h.same (by
    cases on : (u.src u.scan.pointer).table.enabled with
    | false => rw [State.examine_disabled on]; rfl
    | true =>
      rw [State.examine_enabled on]
      exact (healthMoved_frame _ _ _).feeds)

end Sys2Proof.Machine
end

section
/-! SUPPORT. A frame event: what its pieces tell the ports (R106, R107, R119, R155, R159). -/

namespace Sys2Proof.Machine

/-- A port with records in its log and kinds in its pending set. -/
def ControlPort.heard (x : ControlPort) (l : List Outcome) (n : NoticeSet) : ControlPort := (l.foldl ControlPort.recorded x).told n

theorem ControlPort.heard_heard (x : ControlPort) (l m : List Outcome) (n k : NoticeSet) :
    (x.heard l n).heard m k = x.heard (l ++ m) (n ||| k) := by
  unfold ControlPort.heard
  rw [ControlPort.foldl_recorded_told, ControlPort.told_told, List.foldl_append]

theorem ControlPort.heard_nil (x : ControlPort) : x.heard [] 0 = x := x.told_zero

theorem ControlPort.heard_recorded (x : ControlPort) (l : List Outcome) : x.heard l 0 = l.foldl ControlPort.recorded x :=
  ControlPort.told_zero _

theorem ControlPort.heard_rest (x : ControlPort) (l : List Outcome) (n : NoticeSet) :
    x.heard l n = { x with log := (x.heard l n).log, notices := (x.heard l n).notices } := by
  unfold ControlPort.heard ControlPort.told
  rw [ControlPort.foldl_recorded_eq]

theorem ControlPort.heard_authority (x : ControlPort) (l : List Outcome) (n : NoticeSet) : (x.heard l n).authority = x.authority := by
  rw [ControlPort.heard_rest]

/-- Records tell of themselves alone (R155, R159). -/
structure ControlPort.ToldOfRecords (x y : ControlPort) : Prop where
  others : ∀ k, 2 ≤ k → y.notices.getLsbD k = x.notices.getLsbD k
  outcome : y.notices.getLsbD 0 = true → x.notices.getLsbD 0 = true ∨ y.log ≠ []
  lost : y.notices.getLsbD 1 = true → x.notices.getLsbD 1 = true ∨ y.log.length = 16

theorem ControlPort.recorded_told (x : ControlPort) (r : Outcome) : x.ToldOfRecords (x.recorded r) := by
  have places : Config.logPlaces = 16 := rfl
  have bits : ∀ k, (x.recorded r).notices.getLsbD k =
      (x.notices.getLsbD k || (if Config.logPlaces ≤ x.log.length then (3 : NoticeSet) else 1).getLsbD k) := fun k => BitVec.getLsbD_or
  refine ⟨fun k hk => ?_, fun _ => .inr (by simp [ControlPort.recorded]), fun h => ?_⟩
  · rw [bits]
    have none' : ∀ k, 2 ≤ k → (3 : NoticeSet).getLsbD k = false ∧ (1 : NoticeSet).getLsbD k = false := fun k hk => by
      by_cases small : k < 10
      · interval_cases k <;> exact ⟨rfl, rfl⟩
      · exact ⟨BitVec.getLsbD_of_ge _ _ (by omega), BitVec.getLsbD_of_ge _ _ (by omega)⟩
    obtain ⟨three, one⟩ := none' k hk
    split
    · rw [three, Bool.or_false]
    · rw [one, Bool.or_false]
  · rw [bits] at h
    by_cases full : Config.logPlaces ≤ x.log.length
    · refine .inr ?_
      simp only [ControlPort.recorded, List.length_append, List.length_drop, List.length_singleton]
      omega
    · rw [if_neg full] at h
      exact .inl (by simpa using h)

theorem ControlPort.foldl_recorded_toldOfRecords (l : List Outcome) (x : ControlPort) : x.ToldOfRecords (l.foldl ControlPort.recorded x) := by
  have full : ∀ (l : List Outcome) (x : ControlPort), x.log.length = 16 → (l.foldl ControlPort.recorded x).log.length = 16 := fun l => by
    induction l with
    | nil => exact fun x h => h
    | cons r l ih => exact fun x h => ih _ (by simp [ControlPort.recorded, Config.logPlaces, h])
  have some' : ∀ (l : List Outcome) (x : ControlPort), x.log ≠ [] → (l.foldl ControlPort.recorded x).log ≠ [] := fun l => by
    induction l with
    | nil => exact fun x h => h
    | cons r l ih => exact fun x h => ih _ (by simp [ControlPort.recorded])
  induction l generalizing x with
  | nil => exact ⟨fun _ _ => rfl, .inl, .inl⟩
  | cons r l ih =>
    obtain ⟨others, outcome, lost⟩ := ih (x.recorded r)
    obtain ⟨others', -, lost'⟩ := x.recorded_told r
    refine ⟨fun k hk => (others k hk).trans (others' k hk), fun h => .inr ?_, fun h => ?_⟩
    · exact some' l _ (by simp [ControlPort.recorded])
    · obtain before | after := lost h
      · exact (lost' before).imp_right (full l _)
      · exact .inr after

/-! ### The examination -/

/-- The notice that an examination raises (R106, R107), where it is permitted. -/
def Source.healthNotice (x y : Source) : NoticeSet :=
  if x.table.noticePermit = true ∧ y.health ≠ x.health then
    if y.health = .faulted then 0x004 else if x.health = .faulted then 0x008 else 0
  else 0

theorem examine_heard (s : State) (q : PortNo) : ∃ l, s.examine.port q = (s.port q).heard l
    ((s.src s.scan.pointer).healthNotice ((s.src s.scan.pointer).visited s.clock.tod)) := by
  unfold Source.visited
  cases on : (s.src s.scan.pointer).table.enabled with
  | false =>
    rw [State.examine_disabled on, if_neg Bool.false_ne_true]
    refine ⟨[], ?_⟩
    rw [show (s.src s.scan.pointer).healthNotice (s.src s.scan.pointer).resetInterval = 0 from if_neg fun h => h.2 rfl,
      ControlPort.heard_nil]
    rfl
  | true =>
    rw [State.examine_enabled on, if_pos rfl]
    generalize hy : (s.src s.scan.pointer).examined s.clock.tod = y
    have table : y.table = (s.src s.scan.pointer).table := by rw [← hy]; rfl
    generalize s.scan.pointer = i at hy table ⊢
    have read : (s.setSrc i y).src i = y := by rw [State.src_setSrc, if_pos rfl]
    change ∃ l, ((s.setSrc i y).healthMoved i (s.src i).health).port q = _
    rw [State.healthMoved_eq, read]
    by_cases same : y.health = (s.src i).health
    · rw [if_pos same]
      exact ⟨[], by
        rw [show (s.src i).healthNotice y = 0 from if_neg fun h => h.2 same, ControlPort.heard_nil]
        rfl⟩
    · rw [if_neg same]
      obtain ⟨l, hl⟩ := healthChanged_recorded ((s.setSrc i y).healthTold i (s.src i).health) i q
      refine ⟨l, hl.trans ?_⟩
      rw [State.healthTold_port, read, ControlPort.foldl_recorded_told, table]
      unfold ControlPort.heard Source.healthNotice
      cases (s.src i).table.noticePermit <;> simp [same]

theorem Source.healthNotice_ring (x : Source) (l : List Packet) (tod : TimeOfDay) :
    ({ x with ring := l } : Source).healthNotice (({ x with ring := l } : Source).visited tod) = x.healthNotice (x.visited tod) := by
  rw [Source.visited_ring]
  rfl

/-! ### The pieces of a frame event -/

/-- The feed has swapped at this frame event (R119). -/
def State.swapped (b u : State) (f : FeedNo) : Prop :=
  (b.feed f).lastSwap.map Prod.fst ≠ some b.clock.frameStart ∧ (u.feed f).lastSwap.map Prod.fst = some b.clock.frameStart

/-- What a port has heard of the swaps, and of the source examined. -/
structure State.HeardAt (b : State) (x : Bool) (u : State) (q : PortNo) : Prop where
  heard : ∃ l swap, u.port q = (b.port q).heard l ((if swap then 0x100 else 0) |||
      if x then (b.src b.scan.pointer).healthNotice ((b.src b.scan.pointer).visited b.clock.tod) else 0) ∧
    (swap = true ↔ ∃ f : FeedNo, (b.port q).authority.feedMap.getLsbD f = true ∧ b.swapped u f)

/-- The ports of a frame event's state, with its feeds and its sources. -/
structure State.PortsAt (b : State) (loaded x : Bool) (u : State) : Prop where
  feeds : b.FeedsAt loaded u
  sources : b.SourcesAt x u
  ports : ∀ q, b.HeardAt x u q

section
variable {b u t : State} {loaded x : Bool}

theorem State.HeardAt.recorded {q : PortNo} (h : b.HeardAt x u q) (r : Recorded u t)
    (swaps : ∀ f, (t.feed f).lastSwap = (u.feed f).lastSwap) : b.HeardAt x t q := by
  obtain ⟨l, swap, port, iff⟩ := h.heard
  obtain ⟨m, hm⟩ := r q
  refine ⟨l ++ m, swap, ?_, iff.trans (exists_congr fun f => ?_)⟩
  · rw [hm, port, ← ControlPort.heard_recorded, ControlPort.heard_heard]
    simp
  · unfold State.swapped
    rw [swaps]

theorem State.HeardAt.swap {q : PortNo} (h : b.HeardAt x u q) (clock : u.clock = b.clock) {f : FeedNo} (fresh : u.hasSwapped f = false)
    (feeds : b.FeedsAt loaded u) : b.HeardAt x (u.swapNow f) q := by
  obtain ⟨l, swap, port, iff⟩ := h.heard
  obtain ⟨ports, told, e⟩ := u.swapNow_eq f
  have here : (u.swapNow f).port q = (u.port q).told (if (u.port q).authority.feedMap.getLsbD f then 0x100 else 0) := by rw [e]; exact told q
  have other : ∀ g, ((u.swapNow f).feed g).lastSwap = if f = g then some (b.clock.frameStart, b.clock.tod) else (u.feed g).lastSwap := fun g => by
    rw [e, State.feed_with_ports, State.feed_setFeed, clock]
    split <;> rfl
  have late : (u.feed f).lastSwap.map Prod.fst ≠ some b.clock.frameStart := by
    rw [← clock]
    exact of_decide_eq_false fresh
  have before : (b.feed f).lastSwap.map Prod.fst ≠ some b.clock.frameStart := by
    obtain ⟨-, -, last⟩ | ⟨fresh', -⟩ := (feeds f).swappedOnce
    · rwa [last] at late
    · exact fresh'
  refine ⟨l, swap || (b.port q).authority.feedMap.getLsbD f, ?_, ?_⟩
  · rw [here, port, ControlPort.heard_authority]
    unfold ControlPort.heard
    rw [ControlPort.told_told]
    congr 1
    rw [BitVec.or_comm, ← BitVec.or_assoc]
    congr 1
    cases swap <;> cases (b.port q).authority.feedMap.getLsbD f <;> rfl
  · rw [Bool.or_eq_true, iff]
    constructor
    · rintro (⟨g, map, fresh', now⟩ | map)
      · refine ⟨g, map, fresh', ?_⟩
        rw [other]
        split
        · rfl
        · exact now
      · exact ⟨f, map, before, by rw [other, if_pos rfl]; rfl⟩
    · rintro ⟨g, map, fresh', now⟩
      rw [other] at now
      by_cases e : f = g
      · subst e
        exact .inr map
      · rw [if_neg e] at now
        exact .inl ⟨g, map, fresh', now⟩

theorem State.HeardAt.examine {q : PortNo} (h : b.HeardAt false u q) (clock : u.clock = b.clock) (sources : b.SourcesAt false u) :
    b.HeardAt true u.examine q := by
  obtain ⟨l, swap, port, iff⟩ := h.heard
  obtain ⟨m, hm⟩ := examine_heard u q
  have scan : u.scan = b.scan := sources.scan
  have feeds : u.examine.feeds = u.feeds := by
    cases on : (u.src u.scan.pointer).table.enabled with
    | false => rw [State.examine_disabled on]; rfl
    | true => rw [State.examine_enabled on]; exact (healthMoved_frame _ _ _).feeds
  obtain ⟨n, hn⟩ := sources.freed b.scan.pointer
  change u.src b.scan.pointer = { b.src b.scan.pointer with ring := (b.src b.scan.pointer).ring.drop n } at hn
  refine ⟨l ++ m, swap, ?_, iff.trans (exists_congr fun f => ?_)⟩
  · have notice := (b.src b.scan.pointer).healthNotice_ring ((b.src b.scan.pointer).ring.drop n) b.clock.tod
    rw [← hn] at notice
    rw [hm, port, scan, clock, notice, ControlPort.heard_heard, if_neg Bool.false_ne_true, if_pos rfl,
      show ∀ n : NoticeSet, n ||| 0 = n from fun n => BitVec.or_zero]
  · unfold State.swapped State.feed
    rw [feeds]

theorem State.PortsAt.recorded (h : b.PortsAt loaded x u) (feeds : t.feeds = u.feeds) (scan : SameScan u t) (freed : SourcesFreed u t)
    (r : Recorded u t) : b.PortsAt loaded x t :=
  ⟨h.feeds.same feeds, h.sources.next scan freed, fun q => (h.ports q).recorded r fun f => by unfold State.feed; rw [feeds]⟩

theorem State.PortsAt.swap (h : b.PortsAt loaded x u) (clock : u.clock = b.clock) {f : FeedNo} (fresh : u.hasSwapped f = false)
    (reason : (u.feed f).swapPending = true ∨ b.firesPlan loaded f) : b.PortsAt loaded x (u.swapNow f) :=
  ⟨h.feeds.swap clock fresh reason, h.sources.next (swapNow_frame u f).scan (swapNow_frame u f).freed,
    fun q => (h.ports q).swap clock fresh h.feeds⟩

theorem State.PortsAt.addOutcome (h : b.PortsAt loaded x u) (p : PortNo) (r : Outcome) : b.PortsAt loaded x (u.addOutcome p r) :=
  h.recorded (addOutcome_frame u p r).feeds_eq (addOutcome_frame u p r).scan (addOutcome_frame u p r).moves.freed (addOutcome_recorded u p r)

theorem State.PortsAt.fire (h : b.PortsAt loaded x u) (clock : u.clock = b.clock) {e e' : Entry} (mem : e ∈ b.list.entries)
    (fires : e.firesAt loaded b.now b.day = true) (he : e.Fired e') : b.PortsAt loaded x (u.fire e') := by
  by_cases action : e'.action = .plan
  · obtain ⟨late, cued, rfl⟩ := he
    have plan : u.fire { e with late := late, cued := cued } = u.firePlan { e with late := late, cued := cued } := by
      unfold State.fire
      rw [action]
    rw [plan]
    simp only [State.firePlan]
    split
    · exact h.addOutcome _ _
    · rename_i fresh
      rw [Bool.or_eq_true, not_or] at fresh
      split
      · exact (h.swap clock (by simpa using fresh.1) (.inr ⟨e, mem, fires, action, rfl⟩)).addOutcome _ _
      · exact h.addOutcome _ _
  · have feeds : (u.fire e').feeds = u.feeds := by
      unfold State.fire
      cases k : e'.action with
      | take => exact (fireTake_frame u _).feeds
      | giveBack => exact (fireReturn_frame u _).feeds
      | base => exact (fireBase_frame u _).feeds
      | plan => exact absurd k action
      | cue => exact (addOutcome_frame u _ _).feeds_eq
    exact h.recorded feeds (fire_scan u e') (fire_freed u e') (fire_recorded u e' action)

theorem State.PortsAt.task (h : b.PortsAt loaded x u) (clock : u.clock = b.clock) (k : FrameTask) : b.PortsAt loaded x (u.frameTask k) := by
  have rest : Recorded u (u.frameTask k) → (∀ f, ((u.frameTask k).feed f).lastSwap = (u.feed f).lastSwap) →
      b.PortsAt loaded x (u.frameTask k) := fun r swaps =>
    ⟨h.feeds.task clock k, h.sources.next (frameTask_scan u k) (frameTask_freed u k), fun q => (h.ports q).recorded r swaps⟩
  have same : ∀ {t : State}, t.feeds = u.feeds → ∀ g, (t.feed g).lastSwap = (u.feed g).lastSwap := fun e g => by
    unfold State.feed
    rw [e]
  have set : ∀ f y, y.lastSwap = (u.feed f).lastSwap → ∀ g, ((u.setFeed f y).feed g).lastSwap = (u.feed g).lastSwap := fun f y e g => by
    rw [State.feed_setFeed]
    split
    · rename_i k; subst k; exact e
    · rfl
  cases k with
  | windowEnd f p => exact rest (endWindows_recorded u f p) (same (endWindows_frame u f p).feeds)
  | forcedSwitch f p => exact rest (forceSwitch_recorded u f p) (same (forceSwitch_frame u f p).stacks.feeds)
  | dueMaking f c =>
    have made : u.frameTask (.dueMaking f c) = u.makeDue f c := rfl
    unfold State.makeDue at made
    split at made
    · rename_i due
      obtain ⟨-, t, late, -, -, e⟩ := Feed.makeDue_eq due
      refine rest (by rw [made]; exact .of_ports rfl) ?_
      rw [made]
      exact set f _ (by rw [e])
    · rw [made]; exact h
  | swap f =>
    change b.PortsAt loaded x (u.takeSwap f)
    unfold State.takeSwap
    split
    · rename_i due
      rw [Bool.and_eq_true, Bool.not_eq_true'] at due
      exact h.swap clock due.2 (.inl due.1)
    · exact h
  | start f =>
    have ports : (u.takeStart f).ports = u.ports := by
      unfold State.takeStart
      split
      · exact foldl_keeps (fun t : State => t.ports = u.ports) _ (fun t p h => (attachPosition_ports t f p).trans h) _ _ rfl
      · rfl
    refine rest (.of_ports ports) fun g => ?_
    change ((u.takeStart f).feed g).lastSwap = _
    unfold State.feed
    rw [State.takeStart_feeds]
    split
    · exact set f _ (by rfl) g
    · rfl

end

theorem State.portsThrough (b : State) (loaded : Bool) : ThroughFrame b loaded (b.PortsAt loaded) where
  task _ _ k clock h := h.task clock k
  cue _ _ _ h := ⟨h.feeds.same rfl, ⟨h.sources.scan, h.sources.freed⟩, fun q => ⟨(h.ports q).heard⟩⟩
  record _ _ p r h := h.addOutcome p r
  fire _ _ _ _ mem fires he clock h := h.fire clock mem fires he
  list _ _ _ h := ⟨h.feeds.same rfl, ⟨h.sources.scan, h.sources.freed⟩, fun q => ⟨(h.ports q).heard⟩⟩
  examine u clock scan h := ⟨(b.feedsThrough loaded).examine u clock scan h.feeds, h.sources.examine clock,
    fun q => (h.ports q).examine clock h.sources⟩

/-- At the beginning of the work. -/
theorem State.PortsAt.start (b : State) (loaded : Bool) : b.PortsAt loaded false b :=
  ⟨fun _ => .refl, ⟨rfl, .rfl' b⟩, fun q =>
    ⟨[], false, (show (b.port q).heard [] (0 ||| 0) = _ from ControlPort.heard_nil _).symm, by simp [State.swapped]⟩⟩

end Sys2Proof.Machine
end

section
/-! SUPPORT. A frame event: what becomes of the stacks, and of a position at which nothing is due (R25, R45, R65, R71). -/

namespace Sys2Proof.Machine

/-! ### The stacks -/

/-- Every stack entry of the second state is one of the same position in the first, but for its mark. -/
def NoNewStacked (s t : State) : Prop :=
  ∀ f p z, z ∈ (t.pos f p).upper → ∃ y, y ∈ (s.pos f p).upper ∧ z = { y with mark := z.mark }

theorem NoNewStacked.of_upper {s t : State} (h : ∀ f p, (t.pos f p).upper = (s.pos f p).upper) : NoNewStacked s t :=
  fun f p z hz => ⟨z, by rwa [h] at hz, rfl⟩

theorem NoNewStacked.rfl' (s : State) : NoNewStacked s s := .of_upper fun _ _ => rfl

theorem NoNewStacked.trans {s t u : State} (a : NoNewStacked s t) (b : NoNewStacked t u) : NoNewStacked s u := fun f p z hz => by
  obtain ⟨y, hy, e⟩ := b f p z hz
  obtain ⟨x, hx, e'⟩ := a f p y hy
  refine ⟨x, hx, ?_⟩
  rw [e, e']

theorem OnlyMoves.noNew {s t : State} (o : OnlyMoves s t) : NoNewStacked s t := .of_upper fun f p => (o.selects f p).2.2.2.2.2

theorem NoNewStacked.setPos (s : State) (f : FeedNo) (p : PosNo) {x : Position}
    (h : ∀ z ∈ x.upper, ∃ y, y ∈ (s.pos f p).upper ∧ z = { y with mark := z.mark }) : NoNewStacked s (s.setPos f p x) := fun g q z hz => by
  rw [State.pos_setPos] at hz
  split at hz
  · rename_i e
    obtain ⟨rfl, rfl⟩ := e
    exact h z hz
  · exact ⟨z, hz, rfl⟩

theorem healthChanged_noNew (s : State) (i : SrcNo) : NoNewStacked s (s.healthChanged i) :=
  foldl_rel NoNewStacked NoNewStacked.rfl' NoNewStacked.trans _ (fun s fp => by
    refine NoNewStacked.trans (t := s.setPos fp.1 fp.2 _) (.setPos s fp.1 fp.2 fun z hz => ?_) (handOver_frame _ _ _ _ _ _).noNew
    obtain ⟨y, hy, rfl⟩ := List.mem_map.1 hz
    refine ⟨y, hy, ?_⟩
    split <;> rfl) _ s

theorem examine_noNew (s : State) : NoNewStacked s s.examine := by
  cases on : (s.src s.scan.pointer).table.enabled with
  | false => rw [State.examine_disabled on]; exact .of_upper fun _ _ => rfl
  | true =>
    rw [State.examine_enabled on]
    generalize (s.src s.scan.pointer).examined s.clock.tod = y
    have told := State.healthTold_only (s.setSrc s.scan.pointer y) s.scan.pointer (s.src s.scan.pointer).health
    have moved : NoNewStacked s ((s.setSrc s.scan.pointer y).healthMoved s.scan.pointer (s.src s.scan.pointer).health) := by
      rw [State.healthMoved_eq]
      split
      · exact .of_upper fun _ _ => rfl
      · exact NoNewStacked.trans (.of_upper fun f p => by rw [told.pos]; rfl) (healthChanged_noNew _ _)
    exact fun f p z hz => moved f p z hz

/-- The stack entry that a TAKE puts on a stack (R25), but for its mark. -/
def Entry.puts (e : Entry) (z : StackEntry) : Prop :=
  z = ⟨e.cls, e.source, e.owner, e.tag, if e.window = 0 then none else some e.window, z.mark⟩

/-- An entry that fires puts its own stack entry at most. -/
theorem fire_puts (s : State) (e : Entry) (f : FeedNo) (p : PosNo) (z : StackEntry) (hz : z ∈ ((s.fire e).pos f p).upper) :
    (∃ y, y ∈ (s.pos f p).upper ∧ z = { y with mark := z.mark }) ∨ e.action = .take ∧ e.feed = f ∧ e.position = p ∧ e.puts z := by
  unfold State.fire at hz
  cases action : e.action with
  | take =>
    rw [action] at hz
    simp only [State.fireTake] at hz
    split at hz
    · exact .inl ((addOutcome_frame s _ _).moves.noNew f p z hz)
    · rw [((entryStacked_frame _ e _ _).selects f p).2.2.2.2.2, State.pos_setPos] at hz
      split at hz
      · rename_i here
        obtain ⟨rfl, rfl⟩ := here
        obtain rfl | old := List.mem_cons.1 ((insertEntry_perm _ _).mem_iff.1 hz)
        · exact .inr ⟨rfl, rfl, rfl, rfl⟩
        · exact .inl ⟨z, old, rfl⟩
      · exact .inl ⟨z, hz, rfl⟩
  | giveBack =>
    rw [action] at hz
    simp only [State.fireReturn] at hz
    split at hz
    · rename_i r hr
      exact .inl ((NoNewStacked.setPos s e.feed e.position fun y hy => ⟨y, (removeTopmost_sublist hr).subset hy, rfl⟩).trans
        (entryStacked_frame _ e _ _).noNew f p z hz)
    · exact .inl ((addOutcome_frame s _ _).moves.noNew f p z hz)
  | base =>
    rw [action] at hz
    simp only [State.fireBase] at hz
    rw [((entryStacked_frame _ e _ _).selects f p).2.2.2.2.2, State.pos_setPos] at hz
    split at hz
    · rename_i here
      obtain ⟨rfl, rfl⟩ := here
      exact .inl ⟨z, hz, rfl⟩
    · exact .inl ⟨z, hz, rfl⟩
  | plan =>
    rw [action] at hz
    rw [(firePlan_frame s e).pos] at hz
    exact .inl ⟨z, hz, rfl⟩
  | cue =>
    rw [action] at hz
    exact .inl ((addOutcome_frame s _ _).moves.noNew f p z hz)

/-! ### A start -/

/-- A position that attaches stands as a start leaves it (R71), and rings free packets. -/
theorem attachPosition_attaches (s : State) (f : FeedNo) (p : PosNo) :
    OnlySources (s.setPos f p (s.pos f p).attached) (s.attachPosition f p) := by
  unfold State.attachPosition Position.attached
  cases source : (s.pos f p).effective with
  | none => exact s.moveOnAir_writes f p none 0
  | some i => exact s.moveOnAir_writes f p (some ⟨i, 0⟩) 0xF

theorem State.takeStart_pos (s : State) (f g : FeedNo) (p : PosNo) : (s.takeStart f).pos g p =
    if f = g ∧ (s.feed f).startPending = true then (s.pos g p).attached else s.pos g p := by
  unfold State.takeStart
  by_cases pending : (s.feed f).startPending = true
  · rw [if_pos pending]
    have attach : ∀ (t : State) (k : PosNo) (j : PosNo), (t.attachPosition f k).pos g j =
        if f = g ∧ k = j then (t.pos g j).attached else t.pos g j := fun t k j => by
      rw [(attachPosition_attaches t f k).pos, State.pos_setPos]
      split
      · rename_i e
        obtain ⟨rfl, rfl⟩ := e
        rfl
      · rfl
    have each := (foldl_each (fun t j => t.pos g j) (fun _ => ()) (fun _ _ x => if f = g then x.attached else x)
      (fun t k => t.attachPosition f k) (fun t k j => by
        rw [attach]
        by_cases hf : f = g
        · by_cases hk : k = j
          · subst hk; simp [hf]
          · simp [hf, hk]
        · by_cases hk : k = j
          · subst hk; simp [hf]
          · simp [hf, hk]) (fun _ _ => rfl) allPlaces (by decide) (s.setFeed f ((s.feed f).started s.clock.frameStart))).2 p
    rw [if_pos (mem_allPlaces p)] at each
    rw [each, State.setFeed_pos]
    simp [pending]
  · rw [if_neg pending, if_neg fun h => pending h.2]

/-! ### A position at which nothing is due -/

theorem State.endWindows_none {s : State} {f : FeedNo} {p : PosNo} (h : ∀ e ∈ (s.pos f p).upper, e.window ≠ some 0) : s.endWindows f p = s := by
  have all : (s.pos f p).upper.filter (fun e => e.window ≠ some 0) = (s.pos f p).upper :=
    List.filter_eq_self.2 fun e he => by simpa using h e he
  rw [State.endWindows_eq, endings_none h, all, State.handedOver_same _ _ _ _ _ _ (.inr rfl)]
  exact s.setPos_pos f p

theorem State.endWindows_other (s : State) {f g : FeedNo} {p q : PosNo} (h : ¬(f = g ∧ p = q)) : (s.endWindows f p).pos g q = s.pos g q := by
  rw [State.endWindows_eq]
  have told := foldl_rel OnlyPorts OnlyPorts.rfl' OnlyPorts.trans
    (fun (u : State) (e : StackEntry × Bool) => u.addOutcome e.1.owner (e.1.endRecord e.2 f p s.clock.tod)) (fun u _ => addOutcome_frame u _ _)
    (endings (s.pos f p).upper) (s.handedOver f p { s.pos f p with upper := (s.pos f p).upper.filter fun e => e.window ≠ some 0 } (s.pos f p).policy none)
  rw [told.pos, (handedOver_movedTo s f p _ _ _).pos, if_neg h]

/-- A forced switch moves where a wait has run out, and nothing anywhere else. -/
theorem State.forceSwitch_anew (s : State) (f g : FeedNo) (p q : PosNo) :
    (s.forceSwitch f p).pos g q = s.pos g q ∨
      (∃ i o, (s.pos g q).slot = .seeking i 0 o) ∧ (s.pos g q).ReadsAnew ((s.forceSwitch f p).pos g q) := by
  unfold State.forceSwitch
  split
  · rename_i i o hslot
    rw [(ownerDone_frame _ _ _ _ _).pos, State.switchTo, (s.moveOnAir_writes f p (some ⟨i, 0⟩) 0xF).pos, State.pos_setPos]
    by_cases e : f = g ∧ p = q
    · obtain ⟨rfl, rfl⟩ := e
      rw [if_pos ⟨rfl, rfl⟩]
      exact .inr ⟨⟨i, o, hslot⟩, rfl⟩
    · rw [if_neg e]
      exact .inl rfl
  · exact .inl rfl

/-- What a task does to a position with no window at 0. -/
theorem State.frameTask_pos (s : State) (k : FrameTask) (f : FeedNo) (p : PosNo) (stays : ∀ e ∈ (s.pos f p).upper, e.window ≠ some 0) :
    (k = .start f ∧ (s.feed f).startPending = true ∧ (s.frameTask k).pos f p = (s.pos f p).attached) ∨
    ¬(k = .start f ∧ (s.feed f).startPending = true) ∧ ((s.frameTask k).pos f p = s.pos f p ∨
      (∃ i o, (s.pos f p).slot = .seeking i 0 o) ∧ (s.pos f p).ReadsAnew ((s.frameTask k).pos f p)) := by
  cases k with
  | windowEnd g q =>
    refine .inr ⟨fun h => (nomatch h.1), .inl ?_⟩
    change (s.endWindows g q).pos f p = _
    by_cases e : g = f ∧ q = p
    · obtain ⟨rfl, rfl⟩ := e
      rw [State.endWindows_none stays]
    · exact s.endWindows_other e
  | forcedSwitch g q => exact .inr ⟨fun h => (nomatch h.1), s.forceSwitch_anew g f q p⟩
  | dueMaking g c => exact .inr ⟨fun h => (nomatch h.1), .inl ((makeDue_frame s g c).pos f p)⟩
  | swap g => exact .inr ⟨fun h => (nomatch h.1), .inl ((takeSwap_frame s g).pos f p)⟩
  | start g =>
    have pos : (s.frameTask (.start g)).pos f p = _ := s.takeStart_pos g f p
    by_cases e : g = f ∧ (s.feed g).startPending = true
    · obtain ⟨rfl, pending⟩ := e
      rw [if_pos ⟨rfl, pending⟩] at pos
      exact .inl ⟨rfl, pending, pos⟩
    · rw [if_neg e] at pos
      refine .inr ⟨fun h => e ?_, .inl pos⟩
      obtain ⟨h, pending⟩ := h
      cases h
      exact ⟨rfl, pending⟩

/-- What a task does to a pending start. -/
theorem State.frameTask_startPending (s : State) (k : FrameTask) (f : FeedNo) :
    ((s.frameTask k).feed f).startPending = if k = .start f then false else (s.feed f).startPending := by
  have same : (s.frameTask k).feeds = s.feeds → ((s.frameTask k).feed f).startPending = (s.feed f).startPending := fun h => by
    unfold State.feed; rw [h]
  have set : ∀ g y, y.startPending = (s.feed g).startPending → ((s.setFeed g y).feed f).startPending = (s.feed f).startPending := fun g y h => by
    rw [State.feed_setFeed]
    split
    · rename_i e; subst e; exact h
    · rfl
  cases k with
  | windowEnd g q => exact same (endWindows_frame s g q).feeds
  | forcedSwitch g q => exact same (forceSwitch_frame s g q).stacks.feeds
  | dueMaking g c =>
    change ((s.makeDue g c).feed f).startPending = _
    unfold State.makeDue
    split
    · rename_i due
      obtain ⟨-, t, late, -, -, e⟩ := Feed.makeDue_eq due
      exact set g _ (by rw [e])
    · rfl
  | swap g =>
    change ((s.takeSwap g).feed f).startPending = _
    unfold State.takeSwap
    split
    · obtain ⟨ports, -, e⟩ := s.swapNow_eq g
      rw [e]
      exact set g _ rfl
    · rfl
  | start g =>
    change (tget (s.takeStart g).feeds f).startPending = _
    rw [State.takeStart_feeds]
    by_cases e : g = f
    · subst e
      rw [if_pos rfl]
      split
      · change ((s.setFeed g _).feed g).startPending = false
        rw [State.feed_setFeed, if_pos rfl]
        rfl
      · rename_i idle
        exact Bool.not_eq_true _ ▸ idle
    · rw [if_neg fun h => e (FrameTask.start.inj h)]
      split
      · change ((s.setFeed g _).feed f).startPending = _
        rw [State.feed_setFeed, if_neg e]
      · rfl

/-! ### Through a frame event -/

/-- The stacks of a frame event's state. -/
def State.StacksAt (b : State) (loaded : Bool) (u : State) : Prop :=
  ∀ f p z, z ∈ (u.pos f p).upper → (∃ y, y ∈ (b.pos f p).upper ∧ z = { y with mark := z.mark }) ∨
    ∃ e, e ∈ b.list.entries ∧ e.firesAt loaded b.now b.day = true ∧ e.action = .take ∧ e.feed = f ∧ e.position = p ∧ e.puts z

theorem State.StacksAt.noNew {b u t : State} {loaded : Bool} (h : b.StacksAt loaded u) (o : NoNewStacked u t) : b.StacksAt loaded t := by
  intro f p z hz
  obtain ⟨y, hy, e⟩ := o f p z hz
  obtain ⟨x, hx, e'⟩ | ⟨x, mem, fires, action, feed, position, puts⟩ := h f p y hy
  · exact .inl ⟨x, hx, by rw [e, e']⟩
  · refine .inr ⟨x, mem, fires, action, feed, position, ?_⟩
    unfold Entry.puts at puts ⊢
    rw [e, puts]

theorem takeStart_noNew (s : State) (f : FeedNo) : NoNewStacked s (s.takeStart f) := .of_upper fun g p => by
  rw [State.takeStart_pos]
  split <;> rfl

theorem frameTask_noNew (s : State) (k : FrameTask) : NoNewStacked s (s.frameTask k) := by
  cases k with
  | windowEnd f p =>
    intro g q z hz
    change z ∈ ((s.endWindows f p).pos g q).upper at hz
    rw [State.endWindows_upper] at hz
    split at hz
    · rename_i e
      obtain ⟨rfl, rfl⟩ := e
      exact ⟨z, (List.mem_filter.1 hz).1, rfl⟩
    · exact ⟨z, hz, rfl⟩
  | forcedSwitch f p => exact (forceSwitch_frame s f p).noNew
  | dueMaking f c => exact .of_upper fun g q => by rw [show (s.frameTask (.dueMaking f c)).pos g q = _ from (makeDue_frame s f c).pos g q]
  | swap f => exact .of_upper fun g q => by rw [show (s.frameTask (.swap f)).pos g q = _ from (takeSwap_frame s f).pos g q]
  | start f => exact takeStart_noNew s f

theorem State.stacksThrough (b : State) (loaded : Bool) : ThroughFrame b loaded fun _ => b.StacksAt loaded where
  task _ u k _ h := h.noNew (frameTask_noNew u k)
  cue _ _ _ h := h
  record _ u p r h := h.noNew (addOutcome_frame u p r).moves.noNew
  fire _ u e e' mem fires he _ h := by
    intro f p z hz
    obtain ⟨y, hy, same⟩ | ⟨action, feed, position, puts⟩ := fire_puts u e' f p z hz
    · obtain ⟨x, hx, same'⟩ | ⟨x, mem', fires', action, feed, position, puts⟩ := h f p y hy
      · exact .inl ⟨x, hx, by rw [same, same']⟩
      · refine .inr ⟨x, mem', fires', action, feed, position, ?_⟩
        unfold Entry.puts at puts ⊢
        rw [same, puts]
    · obtain ⟨late, cued, rfl⟩ := he
      exact .inr ⟨e, mem, fires, action, feed, position, puts⟩
  list _ _ _ h := h
  examine u _ _ h := h.noNew (examine_noNew u)

/-- A position at which no window ends, in a frame event at which no entry fires and a disabled source is visited. -/
structure State.Undisturbed (b : State) (loaded : Bool) (f : FeedNo) (p : PosNo) : Prop where
  fires : ∀ e, e ∈ b.list.entries → e.firesAt loaded b.now b.day = false
  source : (b.src b.scan.pointer).table.enabled = false
  windows : ∀ e ∈ (b.pos f p).upper, e.window ≠ some 0

/-- Such a position during the frame event: as it was, where its start is not pending but for a forced switch that is due; attached,
where its start has been taken. -/
structure State.RestsAt (b : State) (f : FeedNo) (p : PosNo) (x : Bool) (u : State) : Prop where
  sources : b.SourcesAt x u
  held : (u.feed f).startPending = (b.feed f).startPending → u.pos f p = b.pos f p ∨
    (∃ i o, (b.pos f p).slot = .seeking i 0 o) ∧ (b.pos f p).ReadsAnew (u.pos f p)
  begun : (b.feed f).startPending = true → (u.feed f).startPending = false → u.pos f p = (b.pos f p).attached
  once : (b.feed f).startPending = false → (u.feed f).startPending = false

theorem Position.ReadsAnew.attached {x y : Position} (h : x.ReadsAnew y) : y.attached = x.attached := by
  unfold Position.ReadsAnew at h
  rw [h]
  rfl

theorem State.RestsAt.task {b u : State} {f : FeedNo} {p : PosNo} {loaded x : Bool} (quiet : b.Undisturbed loaded f p) (h : b.RestsAt f p x u)
    (k : FrameTask) : b.RestsAt f p x (u.frameTask k) := by
  have pending := u.frameTask_startPending k f
  have sources := h.sources.next (frameTask_scan u k) (frameTask_freed u k)
  have upper : (u.pos f p).upper = (b.pos f p).upper := by
    by_cases same : (u.feed f).startPending = (b.feed f).startPending
    · obtain e | ⟨-, e⟩ := h.held same <;> rw [e]
    · cases hb : (b.feed f).startPending with
      | false => rw [hb, h.once hb] at same; exact absurd rfl same
      | true => rw [h.begun hb (by simpa [hb] using same)]; rfl
  obtain ⟨rfl, on, pos⟩ | ⟨idle, moved⟩ := u.frameTask_pos k f p (by rw [upper]; exact quiet.windows)
  · rw [if_pos rfl] at pending
    have before : (b.feed f).startPending = true := by
      by_contra off
      rw [h.once (Bool.not_eq_true _ ▸ off)] at on
      cases on
    refine ⟨sources, fun same => ?_, fun _ _ => ?_, fun off => ?_⟩
    · rw [pending, before] at same; cases same
    · rw [pos]
      obtain e | ⟨-, e⟩ := h.held (on.trans before.symm)
      · rw [e]
      · exact e.attached
    · exact pending
  · have still : ((u.frameTask k).feed f).startPending = (u.feed f).startPending := by
      rw [pending]
      split
      · rename_i e
        exact (by simpa [e] using idle : (u.feed f).startPending = false).symm
      · rfl
    refine ⟨sources, fun same => ?_, fun before off => ?_, fun off => still.trans (h.once off)⟩
    · rw [still] at same
      obtain e | ⟨slot, e⟩ := h.held same
      · rw [e] at moved
        exact moved
      · obtain e' | ⟨-, e'⟩ := moved
        · rw [e']
          exact .inr ⟨slot, e⟩
        · refine .inr ⟨slot, ?_⟩
          unfold Position.ReadsAnew at e e' ⊢
          rw [e', e]
    · rw [still] at off
      have pos := h.begun before off
      obtain e | ⟨⟨i, o, slot⟩, -⟩ := moved
      · rw [e, pos]
      · rw [pos] at slot
        cases slot

theorem State.RestsAt.of_same {b u t : State} {f : FeedNo} {p : PosNo} {x y : Bool} (h : b.RestsAt f p x u) (sources : b.SourcesAt y t)
    (feed : (t.feed f).startPending = (u.feed f).startPending) (pos : t.pos f p = u.pos f p) : b.RestsAt f p y t :=
  ⟨sources, by rw [feed, pos]; exact h.held, by rw [feed, pos]; exact h.begun, by rw [feed]; exact h.once⟩

theorem State.restsThrough {b : State} {loaded : Bool} {f : FeedNo} {p : PosNo} (quiet : b.Undisturbed loaded f p) :
    ThroughFrame b loaded (b.RestsAt f p) where
  task _ _ k _ h := h.task quiet k
  cue _ _ _ h := h.of_same ⟨h.sources.scan, h.sources.freed⟩ rfl rfl
  record _ u q r h := h.of_same (h.sources.next (addOutcome_frame u q r).scan (addOutcome_frame u q r).moves.freed)
    (by rw [(addOutcome_frame u q r).feed]) ((addOutcome_frame u q r).pos f p)
  fire _ _ e _ mem fires _ _ _ := absurd fires (by rw [quiet.fires e mem]; exact Bool.false_ne_true)
  list _ _ _ h := h.of_same ⟨h.sources.scan, h.sources.freed⟩ rfl rfl
  examine u clock scan h := by
    have off : (u.src u.scan.pointer).table.enabled = false := by
      obtain ⟨n, hn⟩ := h.sources.freed b.scan.pointer
      change u.src b.scan.pointer = { b.src b.scan.pointer with ring := (b.src b.scan.pointer).ring.drop n } at hn
      rw [scan, hn]
      exact quiet.source
    have visited := State.examine_disabled off
    exact h.of_same (h.sources.examine clock) (by rw [visited]; rfl) (by rw [visited]; rfl)

end Sys2Proof.Machine
end

section
/-! SUPPORT. A frame event: what becomes of the switch list and the cue lines (R16, R23, R24, R31, R74, R75). -/

namespace Sys2Proof.Machine

/-! ### What leaves the cue lines alone -/

/-- The cue lines of the second state are those of the first. -/
def SameLines (s t : State) : Prop := t.lines = s.lines

theorem SameLines.rfl' (s : State) : SameLines s s := rfl
theorem SameLines.trans {s t u : State} (a : SameLines s t) (b : SameLines t u) : SameLines s u := Eq.trans b a

theorem OnlyStacks.lines {s t : State} (h : OnlyStacks s t) : SameLines s t := by obtain ⟨_, _, _, rfl, _⟩ := h; rfl
theorem OnlyFeeds.lines {s t : State} (h : OnlyFeeds s t) : SameLines s t := by obtain ⟨_, _, rfl, _⟩ := h; rfl
theorem OnlyPorts.lines {s t : State} (h : OnlyPorts s t) : SameLines s t := h.feeds.lines

theorem fire_lines (s : State) (e : Entry) : SameLines s (s.fire e) := by
  unfold State.fire
  cases e.action with
  | take => exact (fireTake_frame s e).lines
  | giveBack => exact (fireReturn_frame s e).lines
  | base => exact (fireBase_frame s e).lines
  | plan => exact (firePlan_frame s e).lines
  | cue => exact (addOutcome_frame s _ _).lines

theorem takeStart_lines (s : State) (f : FeedNo) : SameLines s (s.takeStart f) := by
  unfold State.takeStart
  split
  · exact (setFeed_frame s f _).lines.trans
      (foldl_rel SameLines SameLines.rfl' SameLines.trans _ (fun s p => (attachPosition_frame s f p).moves.stacks.lines) _ _)
  · rfl

theorem frameTask_lines (s : State) (k : FrameTask) : SameLines s (s.frameTask k) := by
  cases k with
  | windowEnd f p => exact (endWindows_frame s f p).lines
  | forcedSwitch f p => exact (forceSwitch_frame s f p).stacks.lines
  | dueMaking f c => exact (makeDue_frame s f c).lines
  | swap f => exact (takeSwap_frame s f).lines
  | start f => exact takeStart_lines s f

theorem frameTasks_lines (s : State) (l : List FrameTask) : SameLines s (s.frameTasks l) :=
  foldl_rel SameLines SameLines.rfl' SameLines.trans _ frameTask_lines l s

theorem examine_lines (s : State) : SameLines s s.examine := by
  cases on : (s.src s.scan.pointer).table.enabled with
  | false => rw [State.examine_disabled on]; rfl
  | true => rw [State.examine_enabled on]; exact (healthMoved_frame _ _ _).lines

/-! ### The pass among the work of a frame event -/

/-- The list and the lines after the work of a frame event are those that the pass leaves, and no notice of the pass is taken back. -/
theorem State.frameWorks_pass (b : State) (loaded : Bool) (order : FrameOrder) : ∃ u : State, u.clock = b.clock ∧ u.list = b.list ∧
    u.lines = b.lines ∧ (b.frameWorks loaded order).list = (u.pass loaded).list ∧
    (b.frameWorks loaded order).lines = (u.pass loaded).lines ∧ Grows (u.pass loaded) (b.frameWorks loaded order) := by
  have task : ∀ (l : List FrameTask) (u : State), (u.frameTasks l).clock = u.clock ∧ (u.frameTasks l).list = u.list ∧
      (u.frameTasks l).lines = u.lines ∧ Grows u (u.frameTasks l) := fun l u =>
    ⟨(frameTasks_frame u l).clock, (frameTasks_frame u l).list, frameTasks_lines u l, frameTasks_grows u l⟩
  have examine : ∀ u : State, u.examine.clock = u.clock ∧ u.examine.list = u.list ∧ u.examine.lines = u.lines ∧ Grows u u.examine := fun u =>
    ⟨(examine_frame u).clock, (examine_frame u).list, examine_lines u, examine_grows u⟩
  unfold State.frameWorks
  dsimp only
  obtain ⟨c₁, l₁, v₁, -⟩ := task order.first b
  generalize b.frameTasks order.first = u at c₁ l₁ v₁
  cases order.examineFirst
  · obtain ⟨-, l₂, v₂, g₂⟩ := task order.between (u.pass loaded)
    obtain ⟨-, l₃, v₃, g₃⟩ := examine ((u.pass loaded).frameTasks order.between)
    obtain ⟨-, l₄, v₄, g₄⟩ := task order.last ((u.pass loaded).frameTasks order.between).examine
    obtain ⟨-, l₅, v₅, g₅⟩ := task (allFeeds.map .swap ++ allFeeds.map .start)
      (((u.pass loaded).frameTasks order.between).examine.frameTasks order.last)
    exact ⟨u, c₁, l₁, v₁, l₅.trans (l₄.trans (l₃.trans l₂)), v₅.trans (v₄.trans (v₃.trans v₂)), g₂.trans (g₃.trans (g₄.trans g₅))⟩
  · obtain ⟨c₂, l₂, v₂, -⟩ := examine u
    obtain ⟨c₃, l₃, v₃, -⟩ := task order.between u.examine
    obtain ⟨-, l₄, v₄, g₄⟩ := task order.last ((u.examine.frameTasks order.between).pass loaded)
    obtain ⟨-, l₅, v₅, g₅⟩ := task (allFeeds.map .swap ++ allFeeds.map .start)
      (((u.examine.frameTasks order.between).pass loaded).frameTasks order.last)
    exact ⟨_, c₃.trans (c₂.trans c₁), l₃.trans (l₂.trans l₁), v₃.trans (v₂.trans v₁), l₅.trans l₄, v₅.trans v₄, g₄.trans g₅⟩

/-! ### The cues of the pass -/

/-- What an entry does to a line: its cue, if it comes about there, or nothing (R23). -/
theorem State.entryWork_line (s : State) (loaded : Bool) (e : Entry) (k : LineNo) :
    (∃ kind, e.cuesAt k kind loaded s.now s.day ∧ (s.entryWork loaded e).line k = (s.line k).takeCue kind e.owner s.clock.tod) ∨
    (∀ kind, ¬e.cuesAt k kind loaded s.now s.day) ∧ (s.entryWork loaded e).line k = s.line k := by
  have cue : ∀ (x : Entry) (fires : Bool), x.cue = e.cue → x.cued = e.cued → x.due = e.due → x.owner = e.owner →
      (∀ c : EntryCue, (fires = true ∨ distance e.due s.now s.day ≤ c.lead) ↔
        (e.firesAt loaded s.now s.day = true ∨
          e.staysAt loaded s.now s.day = true ∧ (e.due + s.day - s.now % s.day) % s.day ≤ c.lead)) →
      (∃ kind, e.cuesAt k kind loaded s.now s.day ∧ (s.applyCue x fires).1.line k = (s.line k).takeCue kind e.owner s.clock.tod) ∨
      (∀ kind, ¬e.cuesAt k kind loaded s.now s.day) ∧ (s.applyCue x fires).1.line k = s.line k := fun x fires hcue hcued hdue howner comes => by
    by_cases h : ∃ c, e.cue = some c ∧ e.cued = false ∧ (fires = true ∨ distance e.due s.now s.day ≤ c.lead)
    · obtain ⟨c, has, fresh, now⟩ := h
      rw [State.applyCue_taken (hcue.trans has) (hcued.trans fresh) (by rwa [hdue]), State.line_setLine, howner]
      by_cases here : c.line = k
      · rw [if_pos here]
        refine .inl ⟨c.kind, ⟨fresh, c, has, here, rfl, (comes c).1 now⟩, ?_⟩
        rw [here]
      · rw [if_neg here]
        refine .inr ⟨fun kind cues => ?_, rfl⟩
        obtain ⟨-, c', has', here', -⟩ := cues
        rw [has] at has'
        obtain rfl := Option.some.inj has'
        exact here here'
    · rw [State.applyCue_none fun c has => ?_]
      · refine .inr ⟨fun kind cues => h ?_, rfl⟩
        obtain ⟨fresh, c, has, -, -, now⟩ := cues
        exact ⟨c, has, fresh, (comes c).2 now⟩
      · by_contra out
        rw [not_or, not_and_or, Bool.not_eq_true, Bool.not_eq_false, not_lt, hcued, hdue] at out
        exact h ⟨c, hcue ▸ has, out.1, out.2⟩
  by_cases fires : e.firesAt loaded s.now s.day = true
  · rw [State.entryWork_fires fires]
    have line : ∀ u x, (State.fire u x).line k = u.line k := fun u x => by
      unfold State.line
      rw [show (u.fire x).lines = u.lines from fire_lines u x]
    rw [line]
    exact cue _ true rfl rfl rfl rfl fun c => by simp [fires]
  · by_cases stays : e.staysAt loaded s.now s.day = true
    · rw [State.entryWork_stays fires stays]
      refine cue e false rfl rfl rfl rfl fun c => ?_
      rw [Bool.not_eq_true] at fires
      simp only [fires, stays, Bool.false_eq_true, false_or, true_and]
      exact Iff.rfl
    · rw [State.entryWork_discards fires stays]
      refine .inr ⟨fun kind cues => ?_, ?_⟩
      · obtain ⟨-, c, -, -, -, now⟩ := cues
        exact now.elim fires fun h => stays h.1
      · unfold State.line
        rw [show (s.discard e).lines = s.lines from (addOutcome_frame s _ _).lines]

/-- What a pass over entries does to a line (R23, R74, R75). -/
structure CueLine.Passed (l : List Entry) (k : LineNo) (loaded : Bool) (now day : Nat) (x y : CueLine) : Prop where
  rest : y = { x with level := y.level, pulse := y.pulse, last := y.last }
  pulse : y.pulse = true ↔ x.pulse = true ∨ x.mode = .cue ∧ ∃ e, e ∈ l ∧ e.cuesAt k .pulse loaded now day
  still : (∀ e kind, e ∈ l → ¬e.cuesAt k kind loaded now day) → y = x

theorem CueLine.takeCue_passed (x : CueLine) (kind : CueKind) (p : PortNo) (tod : TimeOfDay) :
    x.takeCue kind p tod = { x with
      level := (x.takeCue kind p tod).level, pulse := (x.takeCue kind p tod).pulse, last := (x.takeCue kind p tod).last } ∧
    ((x.takeCue kind p tod).pulse = true ↔ x.pulse = true ∨ x.mode = .cue ∧ kind = .pulse) := by
  rw [CueLine.takeCue_eq]
  obtain ⟨mode, level, pulse, feed, position, source, last⟩ := x
  cases mode <;> cases kind <;> simp

theorem State.foldl_entryWork_line (loaded : Bool) (l : List Entry) (k : LineNo) (s : State) :
    (s.line k).Passed l k loaded s.now s.day ((l.foldl (State.entryWork loaded) s).line k) := by
  induction l generalizing s with
  | nil => exact ⟨rfl, by simp, fun _ => rfl⟩
  | cons e l ih =>
    have next := ih (s.entryWork loaded e)
    have now : (s.entryWork loaded e).now = s.now := by unfold State.now; rw [State.entryWork_clock]
    have day : (s.entryWork loaded e).day = s.day := by unfold State.day; rw [State.entryWork_clock]
    rw [now, day] at next
    obtain ⟨rest, pulse, still⟩ := next
    rw [List.foldl_cons]
    obtain ⟨kind, cues, line⟩ | ⟨none', line⟩ := s.entryWork_line loaded e k
    · obtain ⟨shape, first⟩ := (s.line k).takeCue_passed kind e.owner s.clock.tod
      rw [← line] at shape first
      have mode : ((s.entryWork loaded e).line k).mode = (s.line k).mode := by rw [shape]
      refine ⟨?_, ?_, fun none' => absurd cues (none' e kind List.mem_cons_self)⟩
      · rw [rest, shape]
      · rw [pulse, first, mode]
        simp only [List.mem_cons, exists_eq_or_imp]
        constructor
        · rintro ((old | ⟨mode, rfl⟩) | ⟨mode, x, hx, later⟩)
          · exact .inl old
          · exact .inr ⟨mode, .inl cues⟩
          · exact .inr ⟨mode, .inr ⟨x, hx, later⟩⟩
        · rintro (old | ⟨mode, now | ⟨x, hx, later⟩⟩)
          · exact .inl (.inl old)
          · obtain ⟨-, c, has, -, rfl, -⟩ := cues
            obtain ⟨-, c', has', -, pulse', -⟩ := now
            rw [has] at has'
            obtain rfl := Option.some.inj has'
            exact .inl (.inr ⟨mode, pulse'⟩)
          · exact .inr ⟨mode, x, hx, later⟩
    · rw [line] at rest pulse still
      refine ⟨rest, ?_, fun none'' => still fun x kind hx => none'' x kind (List.mem_cons_of_mem _ hx)⟩
      rw [pulse]
      simp only [List.mem_cons, exists_eq_or_imp, none' .pulse, false_or]

/-! ### The records of discarded entries -/

theorem State.entryWork_grows (loaded : Bool) (s : State) (e : Entry) : Grows s (s.entryWork loaded e) := by
  by_cases fires : e.firesAt loaded s.now s.day = true
  · rw [State.entryWork_fires fires]
    exact (applyCue_grows _ _ _).trans (fire_grows _ _)
  · by_cases stays : e.staysAt loaded s.now s.day = true
    · rw [State.entryWork_stays fires stays]
      exact applyCue_grows _ _ _
    · rw [State.entryWork_discards fires stays]
      exact addOutcome_grows _ _ _

/-- A discarded entry has its port told of an outcome (R31). -/
theorem State.foldl_entryWork_discards (loaded : Bool) (l : List Entry) (s : State) {e : Entry} (mem : e ∈ l)
    (fires : ¬e.firesAt loaded s.now s.day = true) (stays : ¬e.staysAt loaded s.now s.day = true) :
    ((l.foldl (State.entryWork loaded) s).port e.owner).notices.getLsbD 0 = true := by
  induction l generalizing s with
  | nil => cases mem
  | cons x l ih =>
    rw [List.foldl_cons]
    obtain rfl | mem := List.mem_cons.1 mem
    · refine foldl_rel Grows Grows.rfl' Grows.trans _ (State.entryWork_grows loaded) l _ e.owner 0 ?_
      rw [State.entryWork_discards fires stays]
      unfold State.discard
      rw [State.addOutcome_port, if_pos rfl]
      exact ControlPort.recorded_pending _ _
    · refine ih _ mem ?_ ?_
      · unfold State.now State.day
        rwa [State.entryWork_clock]
      · unfold State.now State.day
        rwa [State.entryWork_clock]

end Sys2Proof.Machine
end

section
/-! SUPPORT. A frame event: the pending swaps and starts that its order does not name, and the reload of the shares (R119, R123, R130). -/

namespace Sys2Proof.Machine

/-! ### The swaps -/

/-- A swap is pending and still to be taken at this frame event (R119). -/
def Feed.swapDue (x : Feed) (c : Clock) : Bool := x.swapPending && !decide (x.lastSwap.map Prod.fst = some c.frameStart)

/-- A feed whose pending swap has been taken (R119). -/
def Feed.afterSwap (x : Feed) (c : Clock) : Feed :=
  if x.swapDue c then
    let y := { x with activeB := !x.activeB, swapPending := false, lastSwap := some (c.frameStart, c.tod) }
    if x.running then y.reload else y
  else x

/-- A feed whose pending start has been taken (R123). -/
def Feed.afterStart (x : Feed) (c : Clock) : Feed := if x.startPending then x.started c.frameStart else x

theorem State.takeSwap_eq (s : State) (f : FeedNo) :
    s.takeSwap f = if (s.feed f).swapDue s.clock then s.swapNow f else s := rfl

theorem State.takeSwap_feed (s : State) (f g : FeedNo) :
    (s.takeSwap f).feed g = if f = g then (s.feed f).afterSwap s.clock else s.feed g := by
  rw [State.takeSwap_eq]
  unfold Feed.afterSwap
  by_cases due : (s.feed f).swapDue s.clock = true
  · rw [if_pos due, if_pos due]
    unfold State.swapNow
    dsimp only
    rw [(raiseForFeed_frame _ _ _).feed, State.feed_setFeed]
  · rw [if_neg due, if_neg due]
    split
    · rename_i e; subst e; rfl
    · rfl

theorem State.takeSwap_port (s : State) (f : FeedNo) (q : PortNo) : (s.takeSwap f).port q =
    (s.port q).told (if ((s.feed f).swapDue s.clock && (s.port q).authority.feedMap.getLsbD f) = true then 0x100 else 0) := by
  rw [State.takeSwap_eq]
  by_cases due : (s.feed f).swapDue s.clock = true
  · rw [if_pos due, due, Bool.true_and]
    exact State.raiseForFeed_port (s.setFeed f _) f .planSwapped q
  · rw [if_neg due]
    rw [Bool.not_eq_true] at due
    rw [due]
    exact (ControlPort.told_zero _).symm

theorem State.takeStart_feed (s : State) (f g : FeedNo) :
    (s.takeStart f).feed g = if f = g then (s.feed f).afterStart s.clock else s.feed g := by
  unfold State.feed
  rw [State.takeStart_feeds]
  unfold Feed.afterStart
  by_cases pending : (s.feed f).startPending = true
  · rw [if_pos pending]
    change (s.setFeed f _).feed g = _
    rw [State.feed_setFeed, if_pos (show (tget s.feeds f).startPending = true from pending)]
    rfl
  · rw [if_neg pending, if_neg (show ¬(tget s.feeds f).startPending = true from pending)]
    split
    · rename_i e; subst e; rfl
    · rfl

/-- Every pending swap taken. -/
@[irreducible] def State.takeSwaps (s : State) : State := allFeeds.foldl State.takeSwap s

/-- Every pending start taken. -/
@[irreducible] def State.takeStarts (s : State) : State := allFeeds.foldl State.takeStart s

theorem State.frameTasks_rest (s : State) : s.frameTasks (allFeeds.map .swap ++ allFeeds.map .start) = s.takeSwaps.takeStarts := by
  unfold State.frameTasks State.takeSwaps State.takeStarts
  rw [List.foldl_append, List.foldl_map, List.foldl_map]
  rfl

theorem State.takeSwaps_only (s : State) : OnlyFeeds s s.takeSwaps := by
  unfold State.takeSwaps
  exact foldl_rel OnlyFeeds OnlyFeeds.rfl' OnlyFeeds.trans _ takeSwap_frame _ s

theorem State.takeSwaps_feed (s : State) (f : FeedNo) : s.takeSwaps.feed f = (s.feed f).afterSwap s.clock := by
  unfold State.takeSwaps
  have each := (foldl_each (fun t g => t.feed g) State.clock (fun c _ x => x.afterSwap c) State.takeSwap
    (fun t g j => State.takeSwap_feed t g j) (fun t g => (takeSwap_frame t g).work.clock) allFeeds (by decide) s).2 f
  rw [if_pos (mem_allFeeds f)] at each
  exact each

/-- PLAN SWAPPED is raised for the ports whose feed map holds a feed that swaps (R119, R155). -/
theorem State.takeSwaps_port (s : State) (q : PortNo) : s.takeSwaps.port q = (s.port q).told
    (if (allFeeds.any fun f => (s.feed f).swapDue s.clock && (s.port q).authority.feedMap.getLsbD f) = true then 0x100 else 0) := by
  suffices ∀ (l : List FeedNo) (u : State), l.Nodup → u.clock = s.clock → (∀ f ∈ l, u.feed f = s.feed f) →
      (u.port q).authority = (s.port q).authority → (l.foldl State.takeSwap u).port q = (u.port q).told
        (if (l.any fun f => (s.feed f).swapDue s.clock && (s.port q).authority.feedMap.getLsbD f) = true then 0x100 else 0) by
    unfold State.takeSwaps
    exact this allFeeds s (by decide) rfl (fun _ _ => rfl) rfl
  intro l
  induction l with
  | nil => exact fun u _ _ _ _ => (ControlPort.told_zero _).symm
  | cons f l ih =>
    intro u nodup clock feeds authority
    obtain ⟨new, nodup⟩ := List.nodup_cons.1 nodup
    rw [List.foldl_cons, ih (u.takeSwap f) nodup ((takeSwap_frame u f).work.clock.trans clock) (fun g hg => ?_) ?_,
      State.takeSwap_port, ControlPort.told_told, feeds f List.mem_cons_self, clock, authority, List.any_cons]
    · congr 1
      cases (s.feed f).swapDue s.clock && (s.port q).authority.feedMap.getLsbD f <;>
        cases l.any fun f => (s.feed f).swapDue s.clock && (s.port q).authority.feedMap.getLsbD f <;> rfl
    · rw [State.takeSwap_port]
      exact authority
    · rw [State.takeSwap_feed, if_neg fun e : f = g => new (e ▸ hg)]
      exact feeds g (List.mem_cons_of_mem _ hg)

/-! ### The starts -/

theorem State.takeStarts_feed (s : State) (f : FeedNo) : s.takeStarts.feed f = (s.feed f).afterStart s.clock := by
  unfold State.takeStarts
  have each := (foldl_each (fun t g => t.feed g) State.clock (fun c _ x => x.afterStart c) State.takeStart
    (fun t g j => State.takeStart_feed t g j) (fun t g => (takeStart_frame t g).clock) allFeeds (by decide) s).2 f
  rw [if_pos (mem_allFeeds f)] at each
  exact each

theorem State.takeStarts_pos (s : State) (f : FeedNo) (p : PosNo) :
    s.takeStarts.pos f p = if (s.feed f).startPending then (s.pos f p).attached else s.pos f p := by
  unfold State.takeStarts
  have one : ∀ (t : State) (g j : FeedNo), ((t.takeStart g).feed j, (t.takeStart g).pos j p) =
      if g = j then ((t.feed g).afterStart t.clock, if (t.feed g).startPending then (t.pos g p).attached else t.pos g p)
      else (t.feed j, t.pos j p) := fun t g j => by
    rw [State.takeStart_feed, State.takeStart_pos]
    by_cases e : g = j
    · subst e; simp
    · simp [e]
  have each := (foldl_each (V := Feed × Position) (fun t g => (t.feed g, t.pos g p)) State.clock
    (fun c _ x => (x.1.afterStart c, if x.1.startPending then x.2.attached else x.2)) State.takeStart
    one (fun t g => (takeStart_frame t g).clock) allFeeds (by decide) s).2 f
  rw [if_pos (mem_allFeeds f)] at each
  exact (Prod.ext_iff.1 each).2

theorem State.takeStarts_work (s : State) : OnlyWork s s.takeStarts := by
  unfold State.takeStarts
  exact foldl_rel OnlyWork OnlyWork.rfl' OnlyWork.trans _ takeStart_frame _ s

/-- Starts write no port, line or scan, and free packets at most. -/
structure StartsOnly (s t : State) : Prop where
  ports : t.ports = s.ports
  lines : t.lines = s.lines
  scan : t.scan = s.scan
  sources : SourcesFreed s t

theorem State.takeStarts_only (s : State) : StartsOnly s s.takeStarts := by
  unfold State.takeStarts
  refine foldl_rel StartsOnly (fun s => ⟨rfl, rfl, rfl, .rfl' s⟩) (fun a b => ⟨b.ports.trans a.ports, b.lines.trans a.lines,
    b.scan.trans a.scan, a.sources.trans b.sources⟩) _ (fun t f => ⟨?_, takeStart_lines t f, takeStart_scan t f, takeStart_freed t f⟩) _ s
  unfold State.takeStart
  split
  · exact foldl_keeps (fun u : State => u.ports = t.ports) _ (fun u p h => (attachPosition_ports u f p).trans h) _ _ rfl
  · rfl

theorem State.takeStarts_none {s : State} (h : ∀ f, (s.feed f).startPending = false) : s.takeStarts = s := by
  have one : ∀ f, s.takeStart f = s := fun f => by
    unfold State.takeStart
    rw [h]
    rfl
  unfold State.takeStarts
  generalize allFeeds = l
  induction l with
  | nil => rfl
  | cons f l ih => rw [List.foldl_cons, one, ih]

/-! ### The shares -/

theorem Feed.reload_eq (x : Feed) : x.reload = { x with shares := x.active.shares, carouselShare := x.active.carousel } := rfl

theorem Feed.reloadRunning_eq (x : Feed) : x.reloadRunning = { x with
    shares := if x.running then x.active.shares else x.shares
    carouselShare := if x.running then x.active.carousel else x.carouselShare } := by
  unfold Feed.reloadRunning
  rw [Feed.reload_eq]
  obtain ⟨running⟩ := x
  cases running <;> rfl

end Sys2Proof.Machine
end

section
/-! SUPPORT. A whole frame event, whatever order its pieces come in: the list, the lines, the stacks and the sources (R10). -/

namespace Sys2Proof.Machine

/-- A state as the clock's part of a frame event leaves it: the kinds that it raises are `n`. -/
structure FrameBegun (n : NoticeSet) (s b : State) : Prop where
  same : b = { s with clock := b.clock, ports := b.ports }
  rate : b.clock.rate = s.clock.rate
  port : ∀ q, b.port q = (s.port q).told n
  kinds : n.getLsbD 0 = false ∧ n.getLsbD 1 = false ∧ n.getLsbD 2 = false ∧ n.getLsbD 3 = false ∧ n.getLsbD 8 = false

/-- The state after a frame event, from the state that the clock's part leaves. -/
def State.frameDone (b : State) (loaded : Bool) (order : FrameOrder) : State :=
  { b.counts.frameWorks loaded order with feeds := tmap Feed.reloadRunning (b.counts.frameWorks loaded order).feeds }

theorem State.frameEvent_whole (s : State) (order : FrameOrder) :
    s.frameEvent order = s.clockFrame.frameDone s.clock.load.isSome order := s.frameEvent_eq order

theorem State.frameWorks_clock (b : State) (loaded : Bool) (order : FrameOrder) : (b.frameWorks loaded order).clock = b.clock := by
  have through : ThroughFrame b loaded fun _ u => u.clock = b.clock :=
    ⟨fun _ u k h _ => (frameTask_frame u k).clock.trans h, fun _ _ _ h => h,
      fun _ u p r h => (addOutcome_frame u p r).moves.stacks.work.clock.trans h,
      fun _ u _ e' _ _ _ h _ => (fire_frame u e').clock.trans h, fun _ _ _ h => h, fun u h _ _ => (examine_frame u).clock.trans h⟩
  exact through.works order rfl

section
variable {n : NoticeSet} {s b : State}

theorem FrameBegun.pos (h : FrameBegun n s b) (f : FeedNo) (p : PosNo) : b.counts.pos f p = (s.pos f p).countFrame := by
  rw [State.counts_pos, h.same]; rfl

theorem FrameBegun.src (h : FrameBegun n s b) (i : SrcNo) : b.counts.src i = (s.src i).countFrame := by
  rw [State.counts_src, h.same]; rfl

theorem FrameBegun.feed (h : FrameBegun n s b) (f : FeedNo) : b.counts.feed f = (s.feed f).countCarousel := by
  rw [State.counts_feed, h.same]; rfl

theorem FrameBegun.line (h : FrameBegun n s b) (l : LineNo) : b.counts.line l = (s.line l).endPulse := by
  rw [State.counts_line, h.same]; rfl

theorem FrameBegun.list (h : FrameBegun n s b) : b.counts.list = s.list := by
  change b.list = s.list
  rw [h.same]

theorem FrameBegun.scan (h : FrameBegun n s b) : b.counts.scan = s.scan := by
  change b.scan = s.scan
  rw [h.same]

theorem FrameBegun.day (h : FrameBegun n s b) : b.counts.day = s.day := by
  unfold State.day
  change b.clock.rate.day = _
  rw [h.rate]

theorem State.frameDone_clock (b : State) (loaded : Bool) (order : FrameOrder) : (b.frameDone loaded order).clock = b.clock := by
  change (b.counts.frameWorks loaded order).clock = b.counts.clock
  exact State.frameWorks_clock _ _ _

/-- What a frame event leaves alone. -/
theorem State.frameDone_rest (b : State) (loaded : Bool) (order : FrameOrder) : OnlyUnits b (b.frameDone loaded order) := by
  have through : ThroughFrame b.counts loaded fun _ u => OnlyUnits b u :=
    ⟨fun _ u k _ h => h.trans (frameTask_frame u k).blocks.units, fun _ _ _ h => h,
      fun _ u p r h => h.trans (addOutcome_frame u p r).moves.stacks.work.blocks.units,
      fun _ u _ e' _ _ _ _ h => h.trans (fire_frame u e').blocks.units, fun _ _ _ h => h, fun u _ _ h => h.trans (examine_frame u).blocks.units⟩
  exact through.works order ⟨rfl, rfl, rfl⟩

theorem State.frameWorks_grows (b : State) (loaded : Bool) (order : FrameOrder) : Grows b (b.frameWorks loaded order) := by
  have through : ThroughFrame b loaded fun _ u => Grows b u :=
    ⟨fun _ u k _ h => h.trans (frameTask_grows u k), fun _ _ _ h => h, fun _ u p r h => h.trans (addOutcome_grows u p r),
      fun _ u _ e' _ _ _ _ h => h.trans (fire_grows u e'), fun _ _ _ h => h, fun u _ _ h => h.trans (examine_grows u)⟩
  exact through.works order (.rfl' b)

/-- The ports of a frame event. -/
theorem State.frameDone_heard (b : State) (loaded : Bool) (order : FrameOrder) (q : PortNo) :
    b.counts.HeardAt true (b.counts.frameWorks loaded order) q :=
  ((b.counts.portsThrough loaded).works order (.start b.counts loaded)).ports q

/-- What one frame event makes of the switch list, the cue lines and the ports. -/
theorem FrameBegun.listFrame (h : FrameBegun n s b) (order : FrameOrder) : ListFrame s (b.frameDone s.clock.load.isSome order) := by
  obtain ⟨u, clock, list, lines, wlist, wlines, grows⟩ := b.counts.frameWorks_pass s.clock.load.isSome order
  have now : u.now = b.clock.tod.frameOfDay b.clock.rate := by unfold State.now; rw [clock]; rfl
  have day : u.day = s.day := by rw [← h.day]; unfold State.day; rw [clock]
  unfold ListFrame
  rw [State.frameDone_clock]
  dsimp only
  refine ⟨?_, fun e mem fires stays => ?_, fun l => ?_, fun q => ?_⟩
  · change (b.counts.frameWorks s.clock.load.isSome order).list = _
    rw [wlist, State.pass_eq, list, h.list, now, day]
    rfl
  · refine grows e.owner 0 ?_
    rw [State.pass_eq]
    refine State.foldl_entryWork_discards _ _ u (e := e) (by rwa [list, h.list]) ?_ ?_
    · rw [now, day, fires]; exact Bool.false_ne_true
    · rw [now, day, stays]; exact Bool.false_ne_true
  · have line : (b.frameDone s.clock.load.isSome order).line l =
        (u.list.entries.foldl (State.entryWork s.clock.load.isSome) u).line l := by
      unfold State.line
      change tget (b.counts.frameWorks s.clock.load.isSome order).lines l = _
      rw [wlines, State.pass_eq]
    have before : u.line l = (s.line l).endPulse := by
      rw [← h.line]; unfold State.line; rw [lines]
    obtain ⟨rest, pulse, still⟩ := State.foldl_entryWork_line s.clock.load.isSome u.list.entries l u
    rw [← line, before, now, day, list, h.list] at pulse still
    rw [← line, before] at rest
    refine ⟨rest, ?_, fun none' => still fun e k mem => none' e k mem⟩
    rw [pulse]
    simp [CueLine.endPulse]
  · obtain ⟨l, swap, port, -⟩ := (b.frameDone_heard s.clock.load.isSome order q).heard
    change (b.frameDone s.clock.load.isSome order).port q = (b.port q).heard l _ at port
    refine ⟨?_, fun k set => ?_⟩
    · rw [port, ControlPort.heard_rest, h.port]
      rfl
    · refine State.frameWorks_grows b.counts _ order q k ?_
      change (b.port q).notices.getLsbD k = true
      rw [h.port]
      exact BitVec.getLsbD_or.trans (by rw [set, Bool.true_or])

/-- The counts of a frame event. -/
theorem Position.countFrame_eq (x : Position) : x.countFrame = { x with
    upper := x.upper.map fun y => { y with window := y.window.map (· - 1) }
    slot := match x.slot with
      | .seeking i w o => .seeking i (w - 1) o
      | .steady => .steady } := by
  unfold Position.countFrame Position.countWindows Slot.countWait
  cases x.slot <;> rfl

/-- The first windows of a position at which none ends. -/
theorem FrameBegun.undisturbed (h : FrameBegun n s b) {loaded : Bool} {f : FeedNo} {p : PosNo}
    (fires : ∀ e, e ∈ s.list.entries → e.firesAt loaded (b.clock.tod.frameOfDay b.clock.rate) s.day = false)
    (source : (s.src s.scan.pointer).table.enabled = false)
    (windows : ∀ y, y ∈ (s.pos f p).upper → y.window ≠ some 0 ∧ y.window ≠ some 1) : b.counts.Undisturbed loaded f p := by
  refine ⟨fun e mem => ?_, ?_, fun e mem => ?_⟩
  · rw [h.list] at mem
    rw [h.day]
    exact fires e mem
  · rw [h.scan, h.src]
    exact source
  · rw [h.pos, Position.countFrame_eq] at mem
    obtain ⟨y, hy, rfl⟩ := List.mem_map.1 mem
    obtain ⟨zero, one⟩ := windows y hy
    cases w : y.window with
    | none => rw [Option.map_none]; exact nofun
    | some k =>
      rw [w, ne_eq, Option.some_inj] at zero one
      rw [Option.map_some, ne_eq, Option.some_inj]
      omega

/-- The work of a frame event ends with the swaps and starts that are still pending. -/
theorem State.frameWorks_ends (b : State) (loaded : Bool) (order : FrameOrder) : ∃ u : State, u.clock = b.clock ∧
    b.frameWorks loaded order = u.takeSwaps.takeStarts := by
  have clock := b.frameWorks_clock loaded order
  unfold State.frameWorks at clock ⊢
  dsimp only at clock ⊢
  rw [State.frameTasks_rest] at clock ⊢
  refine ⟨_, ?_, rfl⟩
  rw [← clock]
  exact ((State.takeStarts_work _).clock.trans (State.takeSwaps_only _).work.clock).symm

/-- No start is left pending. -/
theorem State.frameWorks_startPending (b : State) (loaded : Bool) (order : FrameOrder) (f : FeedNo) :
    ((b.frameWorks loaded order).feed f).startPending = false := by
  obtain ⟨u, -, e⟩ := b.frameWorks_ends loaded order
  rw [e, State.takeStarts_feed]
  unfold Feed.afterStart
  split
  · rfl
  · rename_i off; exact Bool.not_eq_true _ ▸ off

/-- What one frame event makes of the positions and the sources. -/
theorem FrameBegun.stackFrame (h : FrameBegun n s b) (order : FrameOrder) : StackFrame s (b.frameDone s.clock.load.isSome order) := by
  have now : b.counts.now = b.clock.tod.frameOfDay b.clock.rate := rfl
  have entries := (b.counts.stacksThrough s.clock.load.isSome).works order fun f p z hz => .inl ⟨z, hz, rfl⟩
  have sources := (b.counts.sourcesThrough s.clock.load.isSome).works order ⟨rfl, .rfl' _⟩
  have pending : ∀ f, (b.counts.feed f).startPending = (s.feed f).startPending := fun f => by
    rw [h.feed]; unfold Feed.countCarousel; split <;> rfl
  have rests : ∀ f p, b.counts.Undisturbed s.clock.load.isSome f p →
      b.counts.RestsAt f p true (b.counts.frameWorks s.clock.load.isSome order) := fun f p quiet =>
    (State.restsThrough quiet).works order ⟨⟨rfl, .rfl' _⟩, fun _ => .inl rfl, fun on off => (Bool.false_ne_true (off.symm.trans on)).elim, id⟩
  unfold StackFrame
  rw [State.frameDone_clock]
  dsimp only
  refine ⟨fun f p x hx => ?_, fun f p fires source idle windows waits => ?_, fun f p fires source starts windows => ?_, fun i hi => ?_, ?_⟩
  · obtain ⟨y, hy, same⟩ | ⟨e, mem, fires, action, feed, position, puts⟩ := entries f p x hx
    · rw [h.pos, Position.countFrame_eq] at hy
      obtain ⟨z, hz, rfl⟩ := List.mem_map.1 hy
      exact .inl ⟨z, hz, same⟩
    · rw [h.list] at mem
      rw [h.day, now] at fires
      exact .inr ⟨e, mem, fires, action, feed, position, puts⟩
  · obtain ⟨-, held, -, -⟩ := rests f p (h.undisturbed fires source windows)
    have off := State.frameWorks_startPending b.counts s.clock.load.isSome order f
    obtain pos | ⟨⟨i, o, slot⟩, -⟩ := held (by rw [off, pending, idle])
    · exact pos.trans ((h.pos f p).trans (Position.countFrame_eq _))
    · rw [h.pos, Position.countFrame_eq] at slot
      cases seek : (s.pos f p).slot with
      | steady => simp only [seek] at slot; cases slot
      | seeking j w o' =>
        simp only [seek, Slot.seeking.injEq] at slot
        have wait := waits j w o' seek
        omega
  · obtain ⟨-, -, begun, -⟩ := rests f p (h.undisturbed fires source windows)
    have pos := begun (by rw [pending, starts]) (State.frameWorks_startPending b.counts s.clock.load.isSome order f)
    refine pos.trans ?_
    rw [h.pos, Position.countFrame_eq]
    rfl
  · obtain ⟨k, hk⟩ := sources.freed i
    rw [if_pos rfl] at hk
    have src : (b.frameDone s.clock.load.isSome order).src i = { (s.src i).countFrame with ring := (s.src i).ring.drop k } := by
      refine hk.trans ?_
      change ({ (b.counts.setSrc _ _).src i with ring := ((b.counts.setSrc _ _).src i).ring.drop k } : Source) = _
      rw [State.src_setSrc, if_neg fun e => hi (by rw [← e, h.scan]), h.src]
      rfl
    rw [src]
    exact ⟨List.drop_suffix _ _, rfl⟩
  · have scan := sources.scan
    rw [if_pos rfl, h.scan] at scan
    exact scan

end

end Sys2Proof.Machine
end

section
/-! SUPPORT. A whole frame event, whatever order its pieces come in: the feeds and the notices (R119, R123, R130, R131, R155). -/

namespace Sys2Proof.Machine

/-! ### The feeds -/

theorem Feed.countCarousel_eq (x : Feed) : x.countCarousel = { x with carousel := x.countCarousel.carousel } := by
  unfold Feed.countCarousel
  split <;> rfl

theorem Feed.countCarousel_slot (x : Feed) (c : TableNo) : tget x.countCarousel.carousel c =
    if x.running then (tget x.carousel c).map fun t => { t with countdown := t.countdown - 1 } else tget x.carousel c := by
  unfold Feed.countCarousel
  split
  · simp only [tget_tmap]
  · rfl

theorem Feed.afterSwap_done (x : Feed) (c : Clock) : (x.afterSwap c).swapDue c = false := by
  unfold Feed.afterSwap
  by_cases due : x.swapDue c = true
  · rw [if_pos due]
    dsimp only
    split <;> rfl
  · rw [if_neg due]
    exact Bool.not_eq_true _ ▸ due

theorem Feed.afterStart_swapDue (x : Feed) (c : Clock) : (x.afterStart c).swapDue c = x.swapDue c := by
  unfold Feed.afterStart
  split <;> rfl

section
variable {n : NoticeSet} {s b : State}

/-- What one frame event makes of the feeds. -/
theorem FrameBegun.feedFrame (h : FrameBegun n s b) (order : FrameOrder) : FeedFrame s (b.frameDone s.clock.load.isSome order) := by
  unfold FeedFrame
  rw [State.frameDone_clock]
  dsimp only
  intro f
  have worked := (b.counts.feedsThrough s.clock.load.isSome).works order (fun _ => .refl) f
  have idle := State.frameWorks_startPending b.counts s.clock.load.isSome order f
  have settled : ((b.counts.frameWorks s.clock.load.isSome order).feed f).swapDue b.clock = false := by
    obtain ⟨u, clock, e⟩ := b.counts.frameWorks_ends s.clock.load.isSome order
    change u.clock = b.clock at clock
    rw [e, State.takeStarts_feed, (State.takeSwaps_only u).work.clock, clock, Feed.afterStart_swapDue, State.takeSwaps_feed, clock]
    exact Feed.afterSwap_done _ _
  have plans : b.counts.firesPlan s.clock.load.isSome f → ∃ e, e ∈ s.list.entries ∧
      e.firesAt s.clock.load.isSome (b.clock.tod.frameOfDay b.clock.rate) s.day = true ∧ e.action = .plan ∧ e.feed = f := fun ⟨e, mem, fires, rest⟩ => by
    rw [h.list] at mem
    rw [h.day] at fires
    exact ⟨e, mem, fires, rest⟩
  have feed : (b.frameDone s.clock.load.isSome order).feed f = ((b.counts.frameWorks s.clock.load.isSome order).feed f).reloadRunning :=
    tget_tmap _ _ _
  rw [h.feed] at worked
  change Feed.Worked b.clock _ _ _ at worked
  rw [feed, Feed.reloadRunning_eq]
  generalize (b.counts.frameWorks s.clock.load.isSome order).feed f = w at worked idle settled
  generalize hx : s.feed f = x at worked
  have count := x.countCarousel_eq
  have slot := x.countCarousel_slot
  generalize x.countCarousel = c at worked count slot
  have lastSwap : c.lastSwap = x.lastSwap := by rw [count]
  have swapPending : c.swapPending = x.swapPending := by rw [count]
  have activeB : c.activeB = x.activeB := by rw [count]
  have running : c.running = x.running := by rw [count]
  have startPending : c.startPending = x.startPending := by rw [count]
  have once := worked.swappedOnce
  unfold Feed.SwappedOnce at once
  rw [lastSwap, swapPending, activeB] at once
  refine ⟨idle, fun on => ?_, fun fresh pending => ?_, fun quiet none' => ?_, fun done => ?_, fun off => ?_, fun on intervals => ?_⟩
  · change w.running = true at on
    simp only [on, if_true]
    exact ⟨rfl, rfl⟩
  · obtain ⟨still, -, last⟩ | ⟨-, -, taken, active, last⟩ := once
    · unfold Feed.swapDue at settled
      rw [still, last, pending, decide_eq_false fresh] at settled
      cases settled
    · exact ⟨taken, active, last⟩
  · obtain ⟨-, active, last⟩ | ⟨-, reason, -⟩ := once
    · exact ⟨active, last⟩
    · obtain pending | plan := reason
      · rw [quiet] at pending; cases pending
      · obtain ⟨e, mem, fires, action, he⟩ := plans plan
        exact (none' e mem fires).elim (fun k => absurd action k) fun k => absurd he k
  · exact once.resolve_right fun k => k.1 done
  · obtain ⟨rest, stopped, carousel⟩ := worked.unstarted (startPending.trans off)
    have on' : w.running = x.running := by rw [rest, running]
    refine ⟨?_, fun stop => ?_, fun go k => ?_⟩
    · have shape := rest.trans (by rw [count])
      generalize (if w.running = true then w.active.shares else w.shares) = shares
      generalize (if w.running = true then w.active.carousel else w.carouselShare) = share
      conv_lhs => rw [shape]
    · obtain ⟨tables, counts, shares, share⟩ := stopped (running.trans stop)
      rw [on', stop]
      simp only [Bool.false_eq_true, if_false]
      refine ⟨?_, ?_, ?_, ?_⟩
      · refine tables.trans (tget_ext _ _ fun j => ?_)
        rw [slot, stop]
        rfl
      · rw [counts, count]
      · rw [shares, count]
      · rw [share, count]
    · have here := slot k
      rw [go, if_pos rfl] at here
      obtain same | ⟨-, t, table, zero, made⟩ := carousel k
      · refine ⟨fun none' => ?_, fun t table => ?_⟩
        · exact same.trans (here.trans (by rw [none']; rfl))
        · rw [table] at here
          refine ⟨fun _ => same.trans here, fun short => .inl (same.trans (here.trans ?_))⟩
          rw [Option.map_some, show t.countdown - 1 = 0 by omega]
      · rw [here] at table
        obtain ⟨t', table', rfl⟩ := Option.map_eq_some_iff.1 table
        refine ⟨fun none' => (by rw [none'] at table'; cases table'), fun t'' table'' => ?_⟩
        rw [table'] at table''
        obtain rfl := Option.some.inj table''
        change t'.countdown - 1 = 0 at zero
        exact ⟨fun long => by omega, fun _ => .inr made⟩
  · have long : ∀ k t, tget c.carousel k = some t → 1 ≤ t.interval := fun k t table => by
      rw [slot] at table
      split at table
      · obtain ⟨t', table', rfl⟩ := Option.map_eq_some_iff.1 table
        exact intervals k t' table'
      · exact intervals k t table
    obtain before | ⟨rest, carousel⟩ := worked.begun long
    · rw [before.startPending, startPending, on] at idle; cases idle
    · refine ⟨?_, fun k => ?_⟩
      · have shape := rest.trans (by rw [count])
        generalize (if w.running = true then w.active.shares else w.shares) = shares
        generalize (if w.running = true then w.active.carousel else w.carouselShare) = share
        conv_lhs => rw [shape]
      · refine (carousel k).trans ?_
        rw [slot]
        split
        · cases tget x.carousel k <;> rfl
        · rfl

/-! ### The notices -/

theorem Source.healthNotice_bits (x y : Source) :
    (x.healthNotice y).getLsbD 2 = (x.table.noticePermit && decide (y.health = .faulted ∧ x.health ≠ .faulted)) ∧
    (x.healthNotice y).getLsbD 3 = (x.table.noticePermit && decide (x.health = .faulted ∧ y.health ≠ .faulted)) ∧
    x.healthNotice y &&& 0x3F3 = 0 := by
  unfold Source.healthNotice
  cases x.table.noticePermit <;> cases x.health <;> cases y.health <;> exact ⟨rfl, rfl, rfl⟩

theorem ControlPort.told_heard (x : ControlPort) (l : List Outcome) (n m : NoticeSet) : (x.told n).heard l m = x.heard l (n ||| m) := by
  unfold ControlPort.heard
  rw [ControlPort.foldl_recorded_told, ControlPort.told_told]

/-- What a port hears beside its records (R155). -/
theorem ControlPort.heard_bits (x : ControlPort) (l : List Outcome) (n : NoticeSet) :
    (∀ k, 2 ≤ k → (x.heard l n).notices.getLsbD k = (x.notices.getLsbD k || n.getLsbD k)) ∧
    ((x.heard l n).notices.getLsbD 0 = true → x.notices.getLsbD 0 = true ∨ n.getLsbD 0 = true ∨ (x.heard l n).log ≠ []) ∧
    ((x.heard l n).notices.getLsbD 1 = true → x.notices.getLsbD 1 = true ∨ n.getLsbD 1 = true ∨ (x.heard l n).log.length = 16) := by
  obtain ⟨others, outcome, lost⟩ := ControlPort.foldl_recorded_toldOfRecords l x
  have bits : ∀ k, (x.heard l n).notices.getLsbD k = ((l.foldl ControlPort.recorded x).notices.getLsbD k || n.getLsbD k) :=
    fun k => BitVec.getLsbD_or
  refine ⟨fun k hk => by rw [bits, others k hk], fun h => ?_, fun h => ?_⟩
  · rw [bits, Bool.or_eq_true] at h
    exact h.elim (fun k => (outcome k).imp_right .inr) fun k => .inr (.inl k)
  · rw [bits, Bool.or_eq_true] at h
    exact h.elim (fun k => (lost k).imp_right .inr) fun k => .inr (.inl k)

/-- The kinds that a frame event raises beside those of the clock and those of records. -/
theorem FrameBegun.noticeFrame (h : FrameBegun n s b) (order : FrameOrder) : NoticeFrame n s (b.frameDone s.clock.load.isSome order) := by
  obtain ⟨n0, n1, n2, n3, n8⟩ := h.kinds
  have sources := (b.counts.sourcesThrough s.clock.load.isSome).works order ⟨rfl, .rfl' _⟩
  obtain ⟨k, hk⟩ := sources.freed s.scan.pointer
  rw [if_pos rfl, h.scan] at hk
  have source : (b.frameDone s.clock.load.isSome order).src s.scan.pointer =
      { (s.src s.scan.pointer).countFrame.visited b.clock.tod with ring := (b.frameDone s.clock.load.isSome order).src s.scan.pointer |>.ring } := by
    have e : (b.frameDone s.clock.load.isSome order).src s.scan.pointer =
        { (b.counts.setSrc s.scan.pointer ((b.counts.src s.scan.pointer).visited b.counts.clock.tod)).src s.scan.pointer with
          ring := ((b.counts.setSrc s.scan.pointer ((b.counts.src s.scan.pointer).visited b.counts.clock.tod)).src s.scan.pointer).ring.drop k } := hk
    rw [State.src_setSrc, if_pos rfl, h.src] at e
    rw [e]
    rfl
  have notice : (s.src s.scan.pointer).countFrame.healthNotice ((s.src s.scan.pointer).countFrame.visited b.clock.tod) =
      (s.src s.scan.pointer).healthNotice ((b.frameDone s.clock.load.isSome order).src s.scan.pointer) := by
    rw [source]
    rfl
  unfold NoticeFrame
  rw [State.frameDone_clock]
  dsimp only
  intro q
  obtain ⟨l, swap, port, swaps⟩ := (b.frameDone_heard s.clock.load.isSome order q).heard
  change (b.frameDone s.clock.load.isSome order).port q = (b.port q).heard l _ at port
  rw [h.scan, h.src, if_pos rfl] at port
  change _ = (b.port q).heard l (_ ||| (s.src s.scan.pointer).countFrame.healthNotice
    ((s.src s.scan.pointer).countFrame.visited b.clock.tod)) at port
  rw [notice, h.port] at port
  have swapped : swap = true ↔ ∃ f : FeedNo, (s.port q).authority.feedMap.getLsbD f = true ∧
      (s.feed f).lastSwap.map Prod.fst ≠ some b.clock.frameStart ∧
      ((b.frameDone s.clock.load.isSome order).feed f).lastSwap.map Prod.fst = some b.clock.frameStart := by
    rw [swaps]
    refine exists_congr fun f => ?_
    unfold State.swapped
    have authority : (b.counts.port q).authority = (s.port q).authority := by
      change (b.port q).authority = _
      rw [h.port]; rfl
    have feed : (b.frameDone s.clock.load.isSome order).feed f = ((b.counts.frameWorks s.clock.load.isSome order).feed f).reloadRunning :=
      tget_tmap _ _ _
    rw [authority, h.feed, Feed.countCarousel_eq, feed, Feed.reloadRunning_eq]
    rfl
  rw [ControlPort.told_heard] at port
  generalize s.src s.scan.pointer = x at port ⊢
  generalize (b.frameDone s.clock.load.isSome order).src s.scan.pointer = y at port ⊢
  rw [port]
  obtain ⟨fault, recovered, rest⟩ := x.healthNotice_bits y
  generalize x.healthNotice y = m at fault recovered rest ⊢
  obtain ⟨others, outcome, lost⟩ := (s.port q).heard_bits l (n ||| ((if swap = true then 256 else 0) ||| m))
  have none' : ∀ k, (0x3F3 : NoticeSet).getLsbD k = true → m.getLsbD k = false := fun k hk => by
    have bit : (m &&& 0x3F3).getLsbD k = (0 : NoticeSet).getLsbD k := by rw [rest]
    rw [BitVec.getLsbD_and, hk, Bool.and_true] at bit
    exact bit.trans BitVec.getLsbD_zero
  have bit : ∀ k, (n ||| ((if swap = true then 256 else 0) ||| m)).getLsbD k =
      (n.getLsbD k || ((if swap = true then (256 : NoticeSet) else 0).getLsbD k || m.getLsbD k)) := fun k =>
    BitVec.getLsbD_or.trans (congrArg _ BitVec.getLsbD_or)
  have tell : ∀ k, k ≠ 8 → (if swap = true then (256 : NoticeSet) else 0).getLsbD k = false := fun k hk => by
    have one : ∀ i : Fin 10, i.val ≠ 8 → (256 : NoticeSet).getLsbD i = false := by decide
    by_cases small : k < 10
    · cases swap
      · exact BitVec.getLsbD_zero
      · exact one ⟨k, small⟩ hk
    · exact BitVec.getLsbD_of_ge _ _ (by omega)
  refine ⟨?_, ?_, ?_, ?_, fun k => ?_, fun k => ?_⟩
  · refine BitVec.eq_of_getLsbD_eq fun i hi => ?_
    rw [BitVec.getLsbD_and, BitVec.getLsbD_and, BitVec.getLsbD_or]
    by_cases shown : (0x2F0 : NoticeSet).getLsbD i = true
    · have kinds : ∀ i : Fin 10, (0x2F0 : NoticeSet).getLsbD i = true → 2 ≤ i.val ∧ i.val ≠ 8 ∧ (0x3F3 : NoticeSet).getLsbD i = true := by
        decide
      obtain ⟨two, eight, other⟩ := kinds ⟨i, hi⟩ shown
      rw [others i two, bit, tell i eight, none' i other, Bool.or_false, Bool.or_false]
    · rw [Bool.not_eq_true] at shown
      rw [shown, Bool.and_false, Bool.and_false]
  · rw [others 2 (le_refl _), bit, n2, tell 2 (by decide), Bool.false_or, Bool.false_or, fault]
  · rw [others 3 (by decide), bit, n3, tell 3 (by decide), Bool.false_or, Bool.false_or, recovered]
  · rw [others 8 (by decide), bit, n8, none' 8 rfl, Bool.false_or, Bool.or_false, Bool.or_eq_true, ← swapped]
    cases swap
    · exact Iff.rfl
    · simp
  · obtain old | new | log := outcome k
    · exact .inl old
    · rw [bit, n0, tell 0 (by decide), none' 0 rfl] at new; cases new
    · exact .inr log
  · obtain old | new | log := lost k
    · exact .inl old
    · rw [bit, n1, tell 1 (by decide), none' 1 rfl] at new; cases new
    · exact .inr log

end

end Sys2Proof.Machine
end

section
/-! SUPPORT. A frame event without tasks of its own order: its firings and its examination (R24, R31, R99). An examination does not look at
the switch list, so that one after a pass does not see what the pass leaves of it. -/

namespace Sys2Proof.Machine

/-! ### An examination beside the switch list -/

/-- A state with another switch list. -/
def State.withList (s : State) (l : SwitchList) : State := { s with list := l }

section
variable (s : State) (l : SwitchList)

theorem foldl_withList {α : Type} (g : State → α → State) (h : ∀ s x, g (s.withList l) x = (g s x).withList l) (xs : List α) :
    xs.foldl g (s.withList l) = (xs.foldl g s).withList l := by
  induction xs generalizing s with
  | nil => rfl
  | cons x xs ih => rw [List.foldl_cons, List.foldl_cons, h, ih]

theorem State.raiseAll_withList (k : Notice) : (s.withList l).raiseAll k = (s.raiseAll k).withList l :=
  foldl_withList s l _ (fun _ _ => rfl) _

theorem State.ownerDone_withList (f : FeedNo) (p : PosNo) (o : Option Owner) (flags : OutcomeFlags) :
    (s.withList l).ownerDone f p o flags = (s.ownerDone f p o flags).withList l := by cases o <;> rfl

theorem State.trim_withList (i : SrcNo) : (s.withList l).trim i = (s.trim i).withList l := by
  have lags : (s.withList l).lags i = s.lags i := rfl
  unfold State.trim
  rw [lags]
  split <;> rfl

theorem State.trimOpt_withList (i : Option SrcNo) : (s.withList l).trimOpt i = (s.trimOpt i).withList l := by
  cases i with
  | none => rfl
  | some i => exact s.trim_withList l i

theorem State.switchNow_withList (f : FeedNo) (p : PosNo) (t : Option SrcNo) :
    (s.withList l).switchNow f p t = (s.switchNow f p t).withList l := by
  have move : ∀ c m, (s.withList l).moveOnAir f p c m = (s.moveOnAir f p c m).withList l := fun c m => by
    unfold State.moveOnAir
    rw [← State.trimOpt_withList, ← State.trimOpt_withList, ← State.trimOpt_withList]
    rfl
  cases t with
  | none => exact move none _
  | some i => exact move _ _

theorem State.seek_withList (f : FeedNo) (p : PosNo) (t : SrcNo) (w : Nat) (o : Option Owner) :
    (s.withList l).seek f p t w o = (s.seek f p t w o).withList l := by
  unfold State.seek
  rw [← State.trimOpt_withList, ← State.trim_withList]
  rfl

/-- A change taken, with the record of the search that it overtakes: what follows does not look at the list. -/
theorem State.takeChange_withList (f : FeedNo) (p : PosNo) (t : Option SrcNo) (policy : Splice) (o : Option Owner) :
    (s.withList l).takeChange f p t policy o = (s.takeChange f p t policy o).withList l := by
  have wait : ∀ u : State, (u.withList l).searchWait f p t policy = u.searchWait f p t policy := fun _ => rfl
  have pos : (s.withList l).pos f p = s.pos f p := rfl
  by_cases air : t = (s.pos f p).onAirSource
  · cases e : (s.pos f p).slot with
    | steady => rw [State.takeChange_steady_onAir o e air, State.takeChange_steady_onAir o (pos ▸ e) (pos ▸ air), State.ownerDone_withList]
    | seeking target w old =>
      rw [State.takeChange_seeking_onAir o e air, State.takeChange_seeking_onAir o (pos ▸ e) (pos ▸ air), pos,
        ← State.ownerDone_withList, ← State.trim_withList, State.ownerDone_withList]
      rfl
  · cases e : (s.pos f p).slot with
    | steady =>
      cases now : s.searchWait f p t policy with
      | none =>
        rw [State.takeChange_steady_now o e air now, State.takeChange_steady_now o (pos ▸ e) (pos ▸ air) ((wait s).trans now),
          State.switchNow_withList, State.ownerDone_withList]
      | some v =>
        cases t with
        | none => rw [State.searchWait_none] at now; cases now
        | some i =>
          rw [State.takeChange_steady_search o e air now, State.takeChange_steady_search o (pos ▸ e) (pos ▸ air) ((wait s).trans now),
            State.seek_withList]
    | seeking target w old =>
      cases now : s.searchWait f p t policy with
      | none =>
        rw [State.takeChange_seeking_now o e air now, State.takeChange_seeking_now o (pos ▸ e) (pos ▸ air) ((wait s).trans now),
          State.ownerDone_withList, State.switchNow_withList, State.ownerDone_withList]
      | some v =>
        cases t with
        | none => rw [State.searchWait_none] at now; cases now
        | some i =>
          rw [State.takeChange_seeking_search o e air now, State.takeChange_seeking_search o (pos ▸ e) (pos ▸ air) ((wait s).trans now),
            State.ownerDone_withList, State.seek_withList]

theorem State.handOver_withList (f : FeedNo) (p : PosNo) (before : Option SrcNo) (policy : Splice) (o : Option Owner) :
    (s.withList l).handOver f p before policy o = (s.handOver f p before policy o).withList l := by
  have differs : (s.withList l).differs f p before = s.differs f p before := rfl
  unfold State.handOver
  rw [differs]
  split
  · exact s.takeChange_withList l ..
  · rfl

theorem State.healthChanged_withList (i : SrcNo) : (s.withList l).healthChanged i = (s.healthChanged i).withList l :=
  foldl_withList s l _ (fun s fp => by
    unfold State.judgePosition
    rw [← State.handOver_withList]
    rfl) _

theorem State.healthTold_withList (i : SrcNo) (before : Health) : (s.withList l).healthTold i before = (s.healthTold i before).withList l := by
  have src : (s.withList l).src i = s.src i := rfl
  unfold State.healthTold
  rw [src]
  split
  · split
    · exact s.raiseAll_withList l _
    · split
      · exact s.raiseAll_withList l _
      · rfl
  · rfl

theorem State.examine_withList : (s.withList l).examine = s.examine.withList l := by
  have src : ∀ i, (s.withList l).src i = s.src i := fun _ => rfl
  cases on : (s.src s.scan.pointer).table.enabled with
  | false =>
    rw [State.examine_disabled on, State.examine_disabled (show ((s.withList l).src (s.withList l).scan.pointer).table.enabled = false from on)]
    rfl
  | true =>
    have moved : ∀ (u : State) i before, (u.withList l).healthMoved i before = (u.healthMoved i before).withList l := fun u i before => by
      have src : (u.withList l).src i = u.src i := rfl
      rw [State.healthMoved_eq, State.healthMoved_eq, src]
      split
      · rfl
      · rw [State.healthTold_withList, State.healthChanged_withList]
    rw [State.examine_enabled on, State.examine_enabled (show ((s.withList l).src (s.withList l).scan.pointer).table.enabled = true from on)]
    change ({ ((s.setSrc _ _).withList l).healthMoved _ _ with scan := _ } : State) = _
    rw [moved]
    rfl

end

/-! ### A frame event without tasks -/

/-- The firings and the examination, in the order given. -/
def State.firings (u : State) (examineFirst loaded : Bool) (l : List Entry) : State :=
  if examineFirst then l.foldl (State.entryWork loaded) u.examine else (l.foldl (State.entryWork loaded) u).examine

/-- The work of a frame event without tasks is its firings and its examination, but for what becomes of the list, and then the swaps and
the starts. -/
theorem State.frameWorks_firings (u : State) (loaded examineFirst : Bool) : ∃ l, u.frameWorks loaded ⟨[], examineFirst, [], []⟩ =
    ((u.firings examineFirst loaded u.list.entries).withList l).takeSwaps.takeStarts := by
  unfold State.frameWorks State.firings
  dsimp only
  rw [State.frameTasks_rest]
  cases examineFirst
  · refine ⟨(u.pass loaded).list, ?_⟩
    have passed : u.pass loaded = (u.list.entries.foldl (State.entryWork loaded) u).withList (u.pass loaded).list := by
      rw [State.pass_eq]
      rfl
    change ((u.pass loaded).examine).takeSwaps.takeStarts = _
    rw [passed, State.examine_withList]
    rfl
  · refine ⟨(u.examine.pass loaded).list, ?_⟩
    have passed : u.examine.pass loaded = (u.examine.list.entries.foldl (State.entryWork loaded) u.examine).withList (u.examine.pass loaded).list := by
      rw [State.pass_eq]
      rfl
    change ((u.examine.pass loaded)).takeSwaps.takeStarts = _
    rw [passed, (examine_frame u).list]
    rfl

theorem State.firings_clock (u : State) (examineFirst loaded : Bool) (l : List Entry) : (u.firings examineFirst loaded l).clock = u.clock := by
  unfold State.firings
  cases examineFirst
  · exact (examine_frame _).clock.trans (State.foldl_entryWork_clock loaded l u)
  · exact (State.foldl_entryWork_clock loaded l _).trans (examine_frame u).clock

/-- No entry or examination changes what starts are pending. -/
theorem State.firings_startPending (u : State) (examineFirst loaded : Bool) (l : List Entry) (f : FeedNo) :
    ((u.firings examineFirst loaded l).feed f).startPending = (u.feed f).startPending := by
  have fire : ∀ (s : State) e, ((s.fire e).feed f).startPending = (s.feed f).startPending := fun s e => by
    have same : ∀ t : State, t.feeds = s.feeds → (t.feed f).startPending = (s.feed f).startPending := fun t h => by
      unfold State.feed; rw [h]
    unfold State.fire
    cases e.action with
    | take => exact same _ (fireTake_frame s e).feeds
    | giveBack => exact same _ (fireReturn_frame s e).feeds
    | base => exact same _ (fireBase_frame s e).feeds
    | cue => exact same _ (addOutcome_frame s _ _).feeds_eq
    | plan =>
      simp only [State.firePlan]
      split
      · exact same _ (addOutcome_frame s _ _).feeds_eq
      · split
        · obtain ⟨ports, -, e'⟩ := s.swapNow_eq e.feed
          unfold State.entryDone
          rw [(addOutcome_frame (s.swapNow e.feed) _ _).feed, e', State.feed_with_ports, State.feed_setFeed]
          split
          · rename_i k; subst k; rfl
          · rfl
        · exact same _ (addOutcome_frame s _ _).feeds_eq
  have work : ∀ (s : State) e, ((s.entryWork loaded e).feed f).startPending = (s.feed f).startPending := fun s e => by
    have cue : ∀ e b, (s.applyCue e b).1.feeds = s.feeds := fun e b => by
      obtain ⟨v, h⟩ := applyCue_lines s e b
      rw [h]
    by_cases fires : e.firesAt loaded s.now s.day = true
    · rw [State.entryWork_fires fires, fire]
      unfold State.feed
      rw [cue]
    · by_cases stays : e.staysAt loaded s.now s.day = true
      · rw [State.entryWork_stays fires stays]
        unfold State.feed
        rw [cue]
      · rw [State.entryWork_discards fires stays]
        unfold State.discard
        rw [(addOutcome_frame s _ _).feed]
  have fold : ∀ s : State, ((l.foldl (State.entryWork loaded) s).feed f).startPending = (s.feed f).startPending := fun s =>
    foldl_keeps (fun t => (t.feed f).startPending = (s.feed f).startPending) _ (fun t e h => (work t e).trans h) l s rfl
  have examine : ∀ s : State, (s.examine.feed f) = s.feed f := fun s => by
    unfold State.feed
    cases on : (s.src s.scan.pointer).table.enabled with
    | false => rw [State.examine_disabled on]; rfl
    | true => rw [State.examine_enabled on]; exact congrArg (tget · f) (healthMoved_frame _ _ _).feeds
  unfold State.firings
  cases examineFirst
  · exact (congrArg Feed.startPending (examine _)).trans (fold u)
  · exact (fold _).trans (congrArg Feed.startPending (examine u))

end Sys2Proof.Machine
end

section
/-! SUPPORT. A frame event without tasks of its own order, whole (R24, R31, R71, R99, R119, R123, R130). -/

namespace Sys2Proof.Machine

theorem Feed.swapDue_eq (x : Feed) (c : Clock) :
    x.swapDue c = (x.swapPending && decide (x.lastSwap.map Prod.fst ≠ some c.frameStart)) := by
  unfold Feed.swapDue
  rw [decide_not]

theorem Feed.afterSwap_startPending (x : Feed) (c : Clock) : (x.afterSwap c).startPending = x.startPending := by
  unfold Feed.afterSwap
  dsimp only
  split
  · split <;> rfl
  · rfl

/-- A feed at the end of a frame event: its swap and its start taken, and its shares those of its active plan where it runs. -/
theorem Feed.reloadRunning_afterStart (x : Feed) (c : Clock) (due : Bool) (h : x.swapDue c = due) :
    ((x.afterSwap c).afterStart c).reloadRunning =
      let y := if due then { x with activeB := !x.activeB, swapPending := false, lastSwap := some (c.frameStart, c.tod) } else x
      let z := if y.startPending then
          { y with
            running := true, startPending := false, departure := c.frameStart, remainder := 0, sharePtr := 7, sparePtr := 7,
            counters := [], counts := ⟨0, 0, 0, 0, 0, 0⟩,
            carousel := tmap (Option.map fun k => { k with countdown := k.interval, due := true }) y.carousel }
        else y
      if z.running then { z with shares := z.active.shares, carouselShare := z.active.carousel } else z := by
  unfold Feed.afterSwap
  rw [h]
  obtain ⟨running, startPending⟩ := x
  cases due <;> cases running <;> cases startPending <;> rfl

/-- What the second state differs in from the first by packets freed is trimmed at most. -/
theorem SourcesFreed.trimmedTo {s t : State} (h : SourcesFreed s t) (i : SrcNo) : (s.src i).trimmedTo (t.src i) := by
  obtain ⟨n, e⟩ := h i
  change t.src i = { s.src i with ring := (s.src i).ring.drop n } at e
  rw [e]
  exact ⟨rfl, List.drop_suffix _ _⟩

section
variable {n : NoticeSet} {s b : State}

theorem FrameBegun.counts_eq (h : FrameBegun n s b) : ({ s with
    clock := b.clock, ports := tmap (fun x : ControlPort => { x with notices := x.notices ||| n }) s.ports } : State).counts = b.counts := by
  have ports : tmap (fun x : ControlPort => { x with notices := x.notices ||| n }) s.ports = b.ports :=
    tget_ext _ _ fun q => by rw [tget_tmap]; exact (h.port q).symm
  rw [ports, ← h.same]

/-- What a frame event without tasks does of the firings and the examination, and then of the swaps, starts and shares. -/
theorem FrameBegun.firingFrame (h : FrameBegun n s b) (examineFirst : Bool) :
    FiringFrame examineFirst n s (b.frameDone s.clock.load.isSome ⟨[], examineFirst, [], []⟩) := by
  unfold FiringFrame
  rw [State.frameDone_clock]
  dsimp only
  rw [h.counts_eq]
  have firings : (if examineFirst = true then s.list.entries.foldl (State.entryWork s.clock.load.isSome) b.counts.examine
      else (s.list.entries.foldl (State.entryWork s.clock.load.isSome) b.counts).examine) =
    b.counts.firings examineFirst s.clock.load.isSome s.list.entries := rfl
  rw [firings]
  have clock := b.counts.firings_clock examineFirst s.clock.load.isSome s.list.entries
  have pending : ∀ f, ((b.counts.firings examineFirst s.clock.load.isSome s.list.entries).feed f).startPending = (s.feed f).startPending :=
    fun f => by rw [State.firings_startPending, h.feed, Feed.countCarousel_eq]
  obtain ⟨l, done⟩ := b.counts.frameWorks_firings s.clock.load.isSome examineFirst
  rw [h.list] at done
  generalize b.counts.firings examineFirst s.clock.load.isSome s.list.entries = w at clock pending done ⊢
  have whole : b.frameDone s.clock.load.isSome ⟨[], examineFirst, [], []⟩ =
      { (w.withList l).takeSwaps.takeStarts with feeds := tmap Feed.reloadRunning (w.withList l).takeSwaps.takeStarts.feeds } := by
    unfold State.frameDone
    rw [done]
  obtain ⟨startPorts, startLines, startScan, startSources⟩ := (w.withList l).takeSwaps.takeStarts_only
  have swaps := (w.withList l).takeSwaps_only
  have swapClock : (w.withList l).takeSwaps.clock = b.clock := swaps.work.clock.trans clock
  have start : ∀ f, ((w.withList l).takeSwaps.feed f).startPending = (s.feed f).startPending := fun f => by
    rw [State.takeSwaps_feed, Feed.afterSwap_startPending]
    exact pending f
  rw [whole]
  refine ⟨startLines.trans swaps.lines, startScan.trans swaps.scan, fun f p => ?_, fun i => ?_, fun none' => ?_, fun q => ?_, fun f => ?_⟩
  · refine (State.takeStarts_pos _ f p).trans ?_
    rw [start, swaps.pos]
    rfl
  · exact (swaps.freed.trans startSources).trimmedTo i
  · change (w.withList l).takeSwaps.takeStarts.sources = _
    rw [State.takeStarts_none fun f => (start f).trans (none' f)]
    obtain ⟨_, _, e, _⟩ := swaps
    rw [e]
    rfl
  · change tget (w.withList l).takeSwaps.takeStarts.ports q = _
    rw [startPorts]
    refine (State.takeSwaps_port _ q).trans ?_
    change (w.port q).told (if (allFeeds.any fun f => (w.feed f).swapDue w.clock && (w.port q).authority.feedMap.getLsbD f) = true
      then 0x100 else 0) = _
    simp only [Feed.swapDue_eq]
    rw [clock]
    rfl
  · refine (tget_tmap _ _ _).trans ?_
    change ((w.withList l).takeSwaps.takeStarts.feed f).reloadRunning = _
    rw [State.takeStarts_feed, State.takeSwaps_feed, swapClock]
    change (((w.feed f).afterSwap w.clock).afterStart b.clock).reloadRunning = _
    rw [clock]
    exact (w.feed f).reloadRunning_afterStart b.clock _ (Feed.swapDue_eq _ _)

end

end Sys2Proof.Machine
end

section
/-! SUPPORT. The two ways to a frame event: an underflow and a pulse of the house reference (R4 to R8, R10, R11). -/

namespace Sys2Proof.Machine

/-- The clock's part of a frame event: TIME LOADED where it takes a pending load (R10, R11, R14). -/
theorem State.clockFrame_eq (s : State) : ∃ ports, s.clockFrame = { s with
      clock := { s.clock with
        frameStart := s.clock.tick, tod := s.clock.load.getD (s.clock.tod.advance s.clock.rate), load := none }
      ports := ports } ∧
    ∀ q, tget ports q = (s.port q).told (if s.clock.load = none then 0 else 0x080) := by
  unfold State.clockFrame
  cases load : s.clock.load with
  | none => exact ⟨s.ports, by simp [load], fun q => (ControlPort.told_zero _).symm⟩
  | some t =>
    dsimp only
    rw [(raiseAll_frame _ _).eq]
    exact ⟨_, rfl, fun q => State.raiseAll_port { s with clock := { s.clock with frameStart := s.clock.tick, tod := t, load := none } } .timeLoaded q⟩

/-- What a frame event makes of a state whose clock and pending notices alone an event has changed before it, by the kinds `m`. -/
structure FrameMade (m : NoticeSet) (order : FrameOrder) (s r t : State) : Prop where
  clock : t.clock = { r.clock with
    frameStart := r.clock.tick, tod := r.clock.load.getD (r.clock.tod.advance r.clock.rate), load := none }
  list : ListFrame s t
  positions : StackFrame s t
  feeds : FeedFrame s t
  rest : t.pending = s.pending ∧ t.held = s.held ∧ t.loader = s.loader
  notices : NoticeFrame (m ||| if s.clock.load = none then 0 else 0x080) s t
  firing : ∀ examineFirst, order = ⟨[], examineFirst, [], []⟩ →
    FiringFrame examineFirst (m ||| if s.clock.load = none then 0 else 0x080) s t

theorem State.frameEvent_made {m : NoticeSet} {s r : State} (order : FrameOrder) (same : r = { s with clock := r.clock, ports := r.ports })
    (rate : r.clock.rate = s.clock.rate) (load : r.clock.load = s.clock.load) (port : ∀ q, r.port q = (s.port q).told m)
    (kinds : m.getLsbD 0 = false ∧ m.getLsbD 1 = false ∧ m.getLsbD 2 = false ∧ m.getLsbD 3 = false ∧ m.getLsbD 8 = false) :
    FrameMade m order s r (r.frameEvent order) := by
  obtain ⟨ports, e, told⟩ := r.clockFrame_eq
  have begun : FrameBegun (m ||| if s.clock.load = none then 0 else 0x080) s r.clockFrame := by
    refine ⟨?_, ?_, fun q => ?_, ?_⟩
    · rw [e]
      conv_lhs => rw [same]
    · rw [e]
      exact rate
    · rw [e]
      refine (told q).trans ?_
      rw [port, load, ControlPort.told_told]
    · obtain ⟨m0, m1, m2, m3, m8⟩ := kinds
      simp only [BitVec.getLsbD_or, m0, m1, m2, m3, m8, Bool.false_or]
      split <;> exact ⟨rfl, rfl, rfl, rfl, rfl⟩
  have units := State.frameDone_rest r.clockFrame r.clock.load.isSome order
  have clock := State.frameDone_clock r.clockFrame r.clock.load.isSome order
  rw [← State.frameEvent_whole] at units clock
  have whole : r.frameEvent order = r.clockFrame.frameDone s.clock.load.isSome order := by rw [State.frameEvent_whole, load]
  obtain ⟨pending, held, loader⟩ := units
  rw [e] at pending held loader
  refine ⟨by rw [clock, State.clockFrame_clock], by rw [whole]; exact begun.listFrame order, by rw [whole]; exact begun.stackFrame order,
    by rw [whole]; exact begun.feedFrame order, ?_, by rw [whole]; exact begun.noticeFrame order, fun examineFirst h => ?_⟩
  · rw [pending, held, loader]
    rw [same]
    exact ⟨rfl, rfl, rfl⟩
  · rw [whole, h]
    exact begun.firingFrame examineFirst

/-- Settles O7: the underflow's own part of the clock, and the frame event that it makes. -/
theorem underflowMakesFrameEvent : Obligations.UnderflowMakesFrameEvent := by
  unfold Obligations.UnderflowMakesFrameEvent
  intro s order awake first
  dsimp only
  have due : s.dueIn .underflow = some s.clock.untilUnderflow := rfl
  rw [exec_flywheelUnderflow, s.act_awake _ awake]
  rw [State.runTimed_at order due first, State.takeTimed]
  generalize s.clock.untilUnderflow = d
  let a := s.advance d
  let r : State := { a.reloadTimer with clock := { a.reloadTimer.clock with late := some a.reloadTimer.clock.tick } }
  have made : FrameMade 0 order s r (r.frameEvent order) :=
    State.frameEvent_made order rfl rfl rfl (fun q => (ControlPort.told_zero _).symm) ⟨rfl, rfl, rfl, rfl, rfl⟩
  obtain ⟨clock, list, positions, feeds, ⟨pending, held, loader⟩, notices, firing⟩ := made
  rw [show (0 : NoticeSet) ||| (if s.clock.load = none then 0 else 0x080) = if s.clock.load = none then 0 else 0x080 from BitVec.zero_or]
    at notices firing
  exact ⟨r.frameEvent order, rfl, clock, list, positions, feeds, pending, held.trans awake.1, loader, notices, firing⟩

/-! ### A pulse -/

/-- A pulse before or within the late window, or with none, is judged as it comes (R6, log 13). -/
theorem State.pulse_judged {s : State} (order : FrameOrder) (h : ∀ u, s.clock.late = some u → (s.clock.tick - u).toNat ≤ 270) :
    s.pulse order = s.judgePulse order := by
  unfold State.pulse
  cases late : s.clock.late with
  | none => rfl
  | some u =>
    have open' : s.clock.inLateWindow = true := by
      unfold Clock.inLateWindow
      rw [late]
      exact decide_eq_true (h u late)
    rw [open']
    rfl

theorem Clock.inLateWindow_none {c : Clock} (h : c.late = none) : c.inLateWindow = false := by
  unfold Clock.inLateWindow
  rw [h]

/-- A pulse in the early window makes a frame event after it has reloaded the timer and locked the reference (R5, R8). -/
theorem State.judgePulse_early {s : State} (order : FrameOrder) (early : s.clock.timer ≤ 270) :
    s.judgePulse order = ((s.reloadTimer.setRun 0).lockReference).frameEvent order := by
  unfold State.judgePulse
  exact if_pos early

/-- The fourth pulse of a run outside both windows is a reference step, and makes a frame event likewise (R7, R8). -/
theorem State.judgePulse_step {s : State} (order : FrameOrder) (far : 270 < s.clock.timer) (run : s.clock.run = 3) (late : s.clock.late = none) :
    s.judgePulse order = ((((s.reloadTimer.setRun 0).raiseAll .referenceStep).lockReference)).frameEvent order := by
  unfold State.judgePulse
  have away : ¬s.clock.timer ≤ Config.windowTicks := by rw [show Config.windowTicks = 270 from rfl]; omega
  rw [if_neg away, Clock.inLateWindow_none late, if_neg Bool.false_ne_true, if_neg (by omega)]

theorem State.judgePulse_rejected {s : State} (order : FrameOrder) (far : 270 < s.clock.timer) (run : s.clock.run < 3)
    (late : s.clock.late = none) : s.judgePulse order = s.setRun (s.clock.run + 1) := by
  unfold State.judgePulse
  have away : ¬s.clock.timer ≤ Config.windowTicks := by rw [show Config.windowTicks = 270 from rfl]; omega
  rw [if_neg away, Clock.inLateWindow_none late, if_neg Bool.false_ne_true, if_pos (by omega)]

/-- The notices of a pulse that makes a frame event (R7, R8). -/
def Clock.pulseNotices (c : Clock) : NoticeSet :=
  (if 270 < c.timer then 0x040 else 0) ||| (if c.ref = .flywheel then 0x020 else 0)

/-- The state of which a pulse makes a frame event. -/
theorem State.judgePulse_frame {s : State} (order : FrameOrder)
    (h : s.clock.timer ≤ 270 ∨ 270 < s.clock.timer ∧ s.clock.run = 3 ∧ s.clock.late = none) : ∃ r : State,
    s.judgePulse order = r.frameEvent order ∧ r = { s with clock := r.clock, ports := r.ports } ∧
    r.clock = { s.clock with timer := s.clock.rate.ticks, atUnderflow := false, run := 0, ref := .locked } ∧
    ∀ q, r.port q = (s.port q).told s.clock.pulseNotices := by
  have lock : ∀ (u : State) (n : NoticeSet), u = { s with clock := u.clock, ports := u.ports } → u.clock = (s.reloadTimer.setRun 0).clock →
      (∀ q, u.port q = (s.port q).told n) → s.clock.pulseNotices = n ||| (if s.clock.ref = .flywheel then 0x020 else 0) →
      u.lockReference = { s with clock := u.lockReference.clock, ports := u.lockReference.ports } ∧
      u.lockReference.clock = { s.clock with timer := s.clock.rate.ticks, atUnderflow := false, run := 0, ref := .locked } ∧
      ∀ q, u.lockReference.port q = (s.port q).told s.clock.pulseNotices := fun u n same clock port notices => by
    obtain ⟨ports, e, told⟩ := u.lockReference_eq
    rw [e]
    refine ⟨?_, ?_, fun q => (told q).trans ?_⟩
    · conv_lhs => rw [same]
    · rw [clock]; rfl
    · rw [port, ControlPort.told_told, notices, clock]; rfl
  obtain early | ⟨far, run, late⟩ := h
  · refine ⟨_, State.judgePulse_early order early, lock (s.reloadTimer.setRun 0) 0 rfl rfl (fun q => (ControlPort.told_zero _).symm) ?_⟩
    unfold Clock.pulseNotices
    rw [if_neg (by omega)]
  · have raised := raiseAll_frame (s.reloadTimer.setRun 0) .referenceStep
    refine ⟨_, State.judgePulse_step order far run late,
      lock ((s.reloadTimer.setRun 0).raiseAll .referenceStep) 0x040 ?_ raised.moves.stacks.work.clock
        (fun q => State.raiseAll_port (s.reloadTimer.setRun 0) .referenceStep q) ?_⟩
    · rw [raised.eq]; rfl
    · unfold Clock.pulseNotices
      rw [if_pos far]

/-- The expiry of the late window leaves a part awake (R6). -/
theorem State.awake.expireLate {s : State} (h : s.awake) : s.expireLate.awake := by
  obtain ⟨ports, e, told⟩ := s.expireLate_eq
  rw [e]
  refine ⟨h.1, Eq.trans ?_ h.2⟩
  refine State.calm_congr rfl rfl fun k => ?_
  change ((tget ports k).pendingSpeed.isSome && (tget ports k).quiet) = _
  rw [told k]
  rfl

/-- Settles O8: a pulse that makes a frame event, one that only counts in the run, and one at the 271st tick. -/
theorem pulseMakesFrameEvent : Obligations.PulseMakesFrameEvent := by
  unfold Obligations.PulseMakesFrameEvent
  intro s order awake
  dsimp only
  have pulse : exec (.houseReferencePulse order) s = .next (s.pulse order) := by rw [exec_houseReferencePulse, s.act_awake _ awake]
  refine ⟨fun h => ?_, fun far run late => ?_, fun late => ?_⟩
  · have judged : s.pulse order = s.judgePulse order := s.pulse_judged order (h.elim And.right fun k u late => by rw [k.2.2] at late; cases late)
    obtain ⟨r, event, same, clock, port⟩ := s.judgePulse_frame order (h.imp_left And.left)
    have kinds : s.clock.pulseNotices.getLsbD 0 = false ∧ s.clock.pulseNotices.getLsbD 1 = false ∧ s.clock.pulseNotices.getLsbD 2 = false ∧
        s.clock.pulseNotices.getLsbD 3 = false ∧ s.clock.pulseNotices.getLsbD 8 = false := by
      unfold Clock.pulseNotices
      split <;> split <;> exact ⟨rfl, rfl, rfl, rfl, rfl⟩
    obtain ⟨done, list, positions, feeds, ⟨pending, held, loader⟩, notices, firing⟩ :=
      State.frameEvent_made order same (by rw [clock]) (by rw [clock]) port kinds
    rw [pulse, judged, event]
    rw [clock] at done
    exact ⟨_, rfl, done, list, positions, feeds, pending, held.trans awake.1, loader, notices, firing⟩
  · rw [pulse, s.pulse_judged order (fun u open' => by rw [late] at open'; cases open'), State.judgePulse_rejected order far run late]
    rfl
  · have now : s.dueIn .lateExpiry = some 0 := by
      unfold State.dueIn
      rw [late]
      change some ((s.clock.tick - 271 + 271 - s.clock.tick).toNat) = _
      rw [sub_add_cancel, sub_self]
      rfl
    have closed : s.expireLate.clock.late = none := by
      obtain ⟨ports, e, -⟩ := s.expireLate_eq
      rw [e]
    refine ⟨s.expireLate, ?_, closed, ?_⟩
    · rw [exec_lateWindowExpiry, s.act_awake _ awake, State.runTimed_now _ now, State.takeTimed]
    · have far : s.clock.inLateWindow = false := by
        unfold Clock.inLateWindow
        rw [late]
        refine decide_eq_false ?_
        rw [sub_sub_cancel]
        decide
      have judged : s.expireLate.pulse order = s.expireLate.judgePulse order :=
        State.pulse_judged order fun u open' => by rw [closed] at open'; cases open'
      rw [pulse, exec_houseReferencePulse, State.act_awake _ _ awake.expireLate, judged]
      unfold State.pulse
      rw [late, far]
      rfl

end Sys2Proof.Machine
end
